-- ==== Sys2Proof/Word.lean ====
section
/-! DEFINITION. The plainest types of the model: a character on the link, and the sparse table in which records are kept. -/

namespace Sys2Proof

/-- One character of the serial link: 8 data bits (R1). -/
abbrev Byte := BitVec 8

/-- Records kept by number. The canonical form (numbers strictly rising) is `tableWf` of Machine/Table.lean;
a number that is not listed has no record. -/
abbrev Table (α : Type) := List (Nat × α)

end Sys2Proof
end

