-- ==== Sys2Proof/Config.lean ====
section
/-! DEFINITION. The capacities the manual fixes, and the free values: what the manual leaves open and no proof may see. -/

namespace Sys2Proof.Config

/-- Elements E0 to E95 (scope 2.2). -/
def elements : Nat := 96
/-- Ports P0 to P159. -/
def ports : Nat := 160
/-- Curve slots K0 to K255. -/
def curves : Nat := 256
/-- Routes 0 to 255. -/
def routes : Nat := 256
/-- Steps 0 to 511. -/
def steps : Nat := 512
/-- Matrix cards C0 to C11. -/
def cards : Nat := 12
/-- Fixture ports F0 to F7. -/
def fixtures : Nat := 8
/-- Hops of one route, at most (R61). -/
def hops : Nat := 12
/-- Routes applied at one time, at most (R85). -/
def applied : Nat := 8
/-- Lines that wait in the line queue, at most (R2). -/
def lineQueue : Nat := 8
/-- Characters of a line, at most (R1). -/
def lineLength : Nat := 200
/-- Notices that wait in the notice queue, at most (R8). -/
def noticeQueue : Nat := 32
/-- Coil pulses in progress on one card, at most (R145). -/
def driveBudget : Nat := 2
/-- A value that lies outside the range of every argument: what a number of more than ten digits, and a
negative number where the range holds none, is read as (R3). -/
def outOfRange : Nat := 10000000000

/-- FREE VALUE (log entry 3): the part of a running dwell timer that has not yet elapsed. The table of steps
has no clock, so nothing here says how much of a dwell has passed. Read through `State.free`. -/
opaque dwellLeft : Nat → Nat

/-- FREE VALUE (log entry 4): how many of its 258 records a WIPE in progress has erased so far. -/
opaque wipeReach : Nat → Nat

end Sys2Proof.Config
end

