-- ==== Sys2Proof/Syntax.lean ====
section
/-! DEFINITION. The commands of the part: one constructor of `Instr` per row of spec/opcode_table.json, and the
types of their operands. -/

namespace Sys2Proof

/-- Element kinds (R23). -/
inductive ElemKind where
  | latch | failsafe | solid
  deriving DecidableEq, Repr, Inhabited

/-- Port classes (R29). -/
inductive PortClass where
  | source | duplex | sink | probe | fixture | term
  deriving DecidableEq, Repr, Inhabited

/-- A terminal: a port, an element's common terminal, or one of its throws (scope 5.2). -/
inductive Terminal where
  | port (p : Nat)
  | common (e : Nat)
  | throw (e k : Nat)
  deriving DecidableEq, Repr, Inhabited

/-- Names of the site settings, in the order of R16's table. -/
inductive Setting where
  | linkRate | cbRate | pollGap | muteWait | retryDelay | lateLimit | noteGap | admitWait | balLimit
  | topoOneway | protOn | protEdge | protDir | siteLock
  deriving DecidableEq, Repr

/-- The direction of the protection window (R45). -/
inductive Dir where
  | low | high
  deriving DecidableEq, Repr, Inhabited

/-- The value a SITE line carries: a number, or one of the words LOW and HIGH. -/
inductive SettingValue where
  | num (n : Nat)
  | dir (d : Dir)
  deriving DecidableEq, Repr

/-- A value for every site setting (R16). Used for the working values and for the settings record. -/
structure Site where
  linkRate : Nat
  cbRate : Nat
  pollGap : Nat
  muteWait : Nat
  retryDelay : Nat
  lateLimit : Nat
  noteGap : Nat
  admitWait : Nat
  balLimit : Nat
  topoOneway : Nat
  protOn : Nat
  protEdge : Nat
  protDir : Dir
  siteLock : Nat
  deriving DecidableEq, Repr, Inhabited

/-- The points of a curve, frequency in MHz and loss in centi-dB (R43). -/
abbrev Curve := List (Nat × Int)

/-- Throw counts by element number; a number not listed has count 0 (R190). -/
abbrev WearCounts := Table Nat

/-- What one store record may hold (R13). -/
inductive RecordContents where
  | settings (v : Site)
  | curve (points : Curve)
  | wear (counts : WearCounts)
  deriving DecidableEq, Repr

/-- The condition in which a store write that did not compare equal leaves its record (R15): the memory's own
doing, so an operand of the event. -/
inductive Residue where
  | erased
  | failed
  | valid (c : RecordContents)
  deriving DecidableEq, Repr

/-- How a store write ends (R15). `fail at left`: the write stopped at its record number `at`, counting from 0 in
the order it writes them, and that record is left as `left`. -/
inductive WriteResult where
  | ok
  | fail (record : Nat) (left : Residue)
  deriving DecidableEq, Repr

/-- Notice kinds, in the order of R8's table. -/
inductive NoticeKind where
  | boot | lost | done | fault | step | roll | halted | bal | perm | card | fixt | wear | late | retire
  deriving DecidableEq, Repr

/-- What NOTE acts on: one kind, or ALL (R10). -/
inductive NoteSel where
  | all
  | kind (k : NoticeKind)
  deriving DecidableEq, Repr

/-- Step flags (R116). -/
inductive StepFlag where
  | ahead | mark | notice
  deriving DecidableEq, Repr

/-- The five route states as ROUTES? names them (R62, R82). -/
inductive RouteStateName where
  | free | ready | applied | retiring | stale
  deriving DecidableEq, Repr

/-- The part's steps: one constructor per row of spec/opcode_table.json, in the table's order.

A row that is a command line carries `plus` (the verb ended in `+`, R6) and the line's arguments; its step is the
decoder's taking of that line. Every other row is an event at a pin, on a bus or at a timer. -/
inductive Instr where
  | powerOn
  | resetNAsserted
  | reset (plus : Bool)
  | resetEnd
  | discoveryEnd
  | lineReceived (chars : List Byte) (framingError : Bool)
  | syntaxRefusal
  | lineSent
  | noteGapExpiry
  | note (plus : Bool) (change : Option (NoteSel × Nat))
  | stat (plus : Bool)
  | sync (plus : Bool)
  | site (plus : Bool) (name : Setting) (value : Option SettingValue)
  | sitesave (plus : Bool)
  | wipe (plus : Bool)
  | storeWriteEnd (result : WriteResult)
  | elem (plus : Bool) (e : Nat) (kind : ElemKind) (n card slot pulse settle guard life : Nat)
  | elemdel (plus : Bool) (e : Nat)
  | port (plus : Bool) (p : Nat) (cls : PortClass) (fixture : Option Nat)
  | portdel (plus : Bool) (p : Nat)
  | leg (plus : Bool) (a b : Terminal)
  | legCut (plus : Bool) (a : Terminal)
  | elemQuery (plus : Bool) (e : Nat)
  | portQuery (plus : Bool) (p : Nat)
  | legQuery (plus : Bool) (a : Terminal)
  | netQuery (plus : Bool)
  | ecal (plus : Bool) (e k : Nat) (slot : Option Nat)
  | pcal (plus : Bool) (p : Nat) (slot : Option Nat)
  | rel (plus : Bool) (e : Nat)
  | unrel (plus : Bool) (e : Nat)
  | relQuery (plus : Bool)
  | lock (plus : Bool)
  | unlock (plus : Bool)
  | curve (plus : Bool) (c : Nat) (points : List (Nat × Int))
  | curvedel (plus : Bool) (c : Nat)
  | curveQuery (plus : Bool) (c : Nat)
  | loss (plus : Bool) (r f : Nat)
  | lossParts (plus : Bool) (r f : Nat)
  | bal (plus : Bool) (limit : Option Nat)
  | route (plus : Bool) (r src dst : Nat) (hops : List (Nat × Nat))
  | find (plus : Bool) (r src dst : Nat) (guarded : Bool)
  | routedel (plus : Bool) (r : Nat)
  | routeQuery (plus : Bool) (r : Nat)
  | routesQuery (plus : Bool) (state : Option RouteStateName)
  | go (plus : Bool) (ids : List Nat)
  | muteAckAsserted
  | muteAckDeasserted
  | muteWaitExpiry
  | driveAcknowledged
  | cardNoAnswer
  | pulseEnd (e : Nat)
  | settleEnd (e : Nat)
  | senseResult (indicated : Option Nat)
  | retryDelayExpiry (e : Nat)
  | halt (plus : Bool)
  | survey (plus : Bool)
  | engineQuery (plus : Bool)
  | aheadQuery (plus : Bool)
  | step (plus : Bool) (i dwell rep freq : Nat) (flags : List StepFlag) (ids : List Nat)
  | stepdel (plus : Bool) (i : Nat)
  | stepQuery (plus : Bool) (i : Nat)
  | ring (plus : Bool) (len : Nat)
  | run (plus : Bool) (i : Nat)
  | markTimerExpiry
  | dwellExpiry
  | trigIn
  | trig (plus : Bool)
  | hold (plus : Bool)
  | resume (plus : Bool)
  | stop (plus : Bool)
  | reportQuery (plus : Bool)
  | ringQuery (plus : Bool)
  | pollGapExpiry
  | pollAnswer (supplyGood overcurrent : Bool)
  | cardRestart (plus : Bool) (n : Nat)
  | restartAck
  | restartWaitExpiry (n : Nat)
  | restartPollAnswer (supplyGood overcurrent : Bool)
  | cack (plus : Bool) (n : Option Nat)
  | cardQuery (plus : Bool) (n : Nat)
  | cardsQuery (plus : Bool)
  | fpresChange (n : Nat) (present : Bool)
  | fixturePresent (n : Nat)
  | fixtureAbsent (n : Nat)
  | admitFixture (plus : Bool) (n : Nat)
  | admitWaitExpiry (n : Nat)
  | identityRecord (n : Nat) (b0 b1 b2 b3 : Byte)
  | identityReadTimeout (n : Nat)
  | ffltAsserted (n : Nat)
  | ownerBench (plus : Bool) (n : Nat)
  | ownerLocal (plus : Bool) (n : Nat)
  | fack (plus : Bool) (n : Option Nat)
  | fixQuery (plus : Bool) (n : Nat)
  | fixesQuery (plus : Bool)
  | loopInputChange (n : Nat) (closed : Bool)
  | loopOpened (n : Nat)
  | loopClosed (n : Nat)
  | confirm (plus : Bool) (n : Nat)
  | ilkQuery (plus : Bool)
  | muteQuery (plus : Bool)
  | eclr (plus : Bool) (e : Nat)
  | faultQuery (plus : Bool)
  | fclear (plus : Bool)
  | lateQuery (plus : Bool)
  | lateclr (plus : Bool)
  | wearset (plus : Bool) (e count : Nat)
  | wearQuery (plus : Bool) (e : Nat)
  | wearsave (plus : Bool)
  | ffltDeasserted (n : Nat)
  deriving DecidableEq, Repr

end Sys2Proof
end

