-- ==== Sys2Proof/Machine/State.lean ====
section
/-! DEFINITION. The state of the part as plain data, its reset value, the reasons a step can stop, and one named
setter per field of `State`. Every field names the rule that gives it. -/

namespace Sys2Proof.Machine

/-! ### Lines out: replies and notices -/

/-- Refusal codes (R4). -/
inductive ErrCode where
  | syntaxErr | range | undef | busy | inuse | locked | prot | conflict | guard | permit | unavail | stale
  | broken | nopath | absent | openLoop | store
  deriving DecidableEq, Repr

/-- One value of a reply or notice field, or a refusal's detail word, as the manual writes it (scope 5.2). -/
inductive Val where
  | num (n : Int)
  | word (w : String)
  | dash
  | port (p : Nat)
  | elem (e : Nat)
  | common (e : Nat)
  | throw (e k : Nat)
  | curve (c : Nat)
  | fixt (f : Nat)
  | loop (l : Nat)
  | hop (e k : Nat)
  | hopSide (e k : Nat) (entersCommon : Bool)
  | over (x y : Nat)
  | slash (a b : String)
  | commaNums (l : List Nat)
  | commaWords (l : List String)
  | loss (v : Int) (flags : List String)
  deriving DecidableEq, Repr

/-- One field of a reply: a bare value, `KEY=value`, `n=value` with an optional `*`, or a loss contributor. -/
inductive Field where
  | bare (v : Val)
  | keyed (k : String) (v : Val)
  | item (n : Nat) (v : Val) (star : Bool)
  | part (k v : Val)
  deriving DecidableEq, Repr

/-- One reply line (R4): OK with its fields, or ER with a code and at most one detail word, then the status
suffix when the verb asked for it (R6). -/
structure Reply where
  refused : Option ErrCode
  fields : List Field
  suffix : Option (List Field)
  deriving DecidableEq, Repr

/-- A reply on its way out. `thenReset` marks the reply to RESET, after which a reset begins (R20). -/
structure OutReply where
  reply : Reply
  thenReset : Bool
  deriving DecidableEq, Repr

/-- The three kinds of reset (R20). -/
inductive ResetCause where
  | power | line | command
  deriving DecidableEq, Repr

/-- Origins of a transition request (R86). -/
inductive Origin where
  | command | step | drop
  deriving DecidableEq, Repr

/-- Causes of a recorded fault (R185). -/
inductive FaultCause where
  | readback | ahead | hot | muteTimeout | cardOc | cardLost | fixturePulled
  deriving DecidableEq, Repr

/-- Outcomes of a transition (R99). -/
inductive TransOutcome where
  | clean | faulted | halted
  deriving DecidableEq, Repr

/-- Causes of a transition outcome other than CLEAN (R99). -/
inductive EndCause where
  | halt | permit | hot | readback | muteTimeout | card | fixture
  deriving DecidableEq, Repr

/-- Halt causes of the ring (R133). -/
inductive HaltCause where
  | undef | stale | conflict | guard | unavail | permit | readback | muteTimeout | hot | card | fixture
  | halt | overrun
  deriving DecidableEq, Repr

/-- Card states (R141). -/
inductive CardState where
  | absent | disabled | restarting | enabled
  deriving DecidableEq, Repr

/-- Fixture states (R157). -/
inductive FixState where
  | empty | present | admitting | admitted | faulted
  deriving DecidableEq, Repr

/-- Owners of a fixture port (R156). -/
inductive Owner where
  | localOwner | bench
  deriving DecidableEq, Repr

/-- How a loop reads in `!PERM` and ILK? (R176). -/
inductive LoopReport where
  | openLoop | closed | conf
  deriving DecidableEq, Repr

/-- One notice line (R8), with the fields its owner gives it. -/
inductive Notice where
  | boot (cause : ResetCause) (failed : Nat)
  | lost
  | done (number : Option Nat) (origin : Origin) (outcome : TransOutcome) (cause : Option EndCause)
  | fault (cause : FaultCause) (elem : Option Nat)
  | step (index pass count : Nat)
  | roll (pass : Nat)
  | halted (cause : HaltCause) (index : Nat)
  | bal (index spread : Nat)
  | perm (permit : Bool) (s1 s2 s3 s4 : LoopReport)
  | card (n : Nat) (state : CardState)
  | fixt (n : Nat) (state : FixState) (owner : Owner)
  | wear (e count : Nat)
  | late (count : Nat)
  | retire (r : Nat)
  deriving DecidableEq, Repr

/-! ### Command Port -/

/-- What occupies one place of the line queue (R1, R2): a line's text, a long-line placeholder, or a damaged line. -/
inductive Line where
  | text (chars : List Byte)
  | long
  | damaged
  deriving DecidableEq, Repr

/-- An operation a SYNC may wait for (R7). -/
inductive Op where
  | transition | staging | survey
  | restart (card : Nat)
  | admission (fixture : Nat)
  deriving DecidableEq, Repr

/-- The store write in progress, with what it is to write (R15, R18, R19, R46, R47, R192). `wipe reach` counts the
records a WIPE has erased so far as far as anything has depended on it. -/
inductive StoreWrite where
  | settings (v : Site)
  | curve (c : Nat) (points : Curve)
  | curveDel (c : Nat)
  | wear (counts : WearCounts)
  | wipe (reach : Nat)
  deriving DecidableEq, Repr

/-- What keeps the decoder from taking a line (R5, R7, R86). `plus` is the status suffix asked for. -/
inductive Hold where
  | sync (plus : Bool) (awaited : List Op)
  | store (plus : Bool) (write : StoreWrite)
  | goWait (plus : Bool)
  deriving DecidableEq, Repr

/-- What the transmitter is sending (R9): nothing, the reply that stands in the reply slot, or a notice. -/
inductive Tx where
  | idle
  | reply
  | notice (n : Notice)
  deriving DecidableEq, Repr

/-- STEP coalescing (R11). -/
structure Gap where
  timer : Option Nat
  count : Nat
  index : Nat
  pass : Nat
  deriving DecidableEq, Repr

/-- The Command Port's link state (R2, R7, R8, R9, R10, R11). -/
structure Link where
  lines : List Line
  hold : Option Hold
  held : Option OutReply
  slot : Option OutReply
  notices : List Notice
  owed : Nat
  tx : Tx
  lost : Bool
  enabled : List NoticeKind
  gap : Gap
  deriving DecidableEq, Repr

/-- The condition of a store record (R14). -/
inductive Stored (α : Type) where
  | erased
  | failed
  | valid (a : α)
  deriving DecidableEq, Repr

/-- The nonvolatile store (R13). A curve slot that is not listed is erased. -/
structure Store where
  settings : Stored Site
  curves : Table (Stored Curve)
  wear : Stored WearCounts
  deriving DecidableEq, Repr

/-! ### Net Table and Route Table -/

/-- A defined element record (R24). `pos := none` is UNKNOWN, `faulted` is condition FAULT, `pulse := none` is absent. -/
structure Elem where
  kind : ElemKind
  n : Nat
  card : Nat
  slot : Nat
  pulse : Option Nat
  settle : Nat
  guarded : Bool
  life : Nat
  refs : Table Nat
  pos : Option Nat
  faulted : Bool
  deriving DecidableEq, Repr

/-- A defined port record (R29); its leg is held in `Net.legs`. -/
structure PortRec where
  cls : PortClass
  fixture : Option Nat
  cable : Option Nat
  deriving DecidableEq, Repr

/-- The net table (R24, R29, R32, R39, R41). A leg is held once, as the pair of terminals it joins. -/
structure Net where
  elems : Table Elem
  ports : Table PortRec
  legs : List (Terminal × Terminal)
  released : List Nat
  locked : Bool
  deriving DecidableEq, Repr

/-- States of a defined route (R62); FREE is the absence of a record. -/
inductive RouteState where
  | ready | applied | retiring | stale
  deriving DecidableEq, Repr

/-- Torn causes (R76). -/
inductive TearCause where
  | card | readback | hot | fixture | permit
  deriving DecidableEq, Repr

/-- One hop with its entry side (R61). -/
structure Hop where
  elem : Nat
  pos : Nat
  entersCommon : Bool
  deriving DecidableEq, Repr

/-- A route record that is not FREE (R61), with its pending mark (R63). -/
structure Route where
  state : RouteState
  src : Nat
  dst : Nat
  hops : List Hop
  found : Bool
  carries : Bool
  radiates : Bool
  needsGuard : Bool
  torn : Option TearCause
  last : Option Nat
  pending : Bool
  deriving DecidableEq, Repr

/-! ### Throw Engine -/

/-- Engine states (R83). -/
inductive Mode where
  | idle | check | muting | breaking | making | staging | survey
  deriving DecidableEq, Repr

/-- The stop of a transition (R84). -/
inductive Stop where
  | halt | permit | hot
  deriving DecidableEq, Repr

/-- The first fault noted in a transition (R84). -/
inductive FirstFault where
  | readback | muteTimeout | card | fixture
  deriving DecidableEq, Repr

/-- A transition request (R86): origin and target set in the order given. `plus` is GO's status suffix. -/
structure Request where
  origin : Origin
  target : List Nat
  plus : Bool
  deriving DecidableEq, Repr

/-- The transition record (R84). `brkTodo` and `makTodo` are the drives of the two lists not yet issued or removed;
`lastEm` is the EM element whose drive was most recently issued (R93). `claimed`, `fixtures` and `radiating` are what
the routes of A and B claimed, ended on and were when CHECK passed. -/
structure Trans where
  number : Nat
  origin : Origin
  old : List Nat
  target : List Nat
  muteNeeded : Bool
  brk : List Nat
  mak : List (Nat × Nat)
  brkTodo : List Nat
  makTodo : List (Nat × Nat)
  notedElems : List Nat
  notedFixtures : List Nat
  faultedElems : List Nat
  stop : Option Stop
  firstFault : Option FirstFault
  outcome : Option (TransOutcome × Option EndCause)
  lastEm : Option Nat
  claimed : List Nat
  fixtures : List Nat
  radiating : Bool
  deriving DecidableEq, Repr

/-- How far an issued drive has come (R95, R96). Timers keep the length they were started with. -/
inductive DriveStage where
  | pulsing (ms : Nat)
  | settling (units : Nat)
  | senseDue (retry : Bool)
  | sensing (retry : Bool)
  | retryWait (units : Nat)
  deriving DecidableEq, Repr

/-- A drive that has been issued and has not ended. `settle` is the settle time read at its issue (R24). -/
structure Drive where
  elem : Nat
  target : Nat
  settle : Nat
  stage : DriveStage
  deriving DecidableEq, Repr

/-- The staging context (R107): the number of drives listed, those not yet issued or removed, and how many were taken
off the list unissued by an early end of staging (R110) or an edit of their element (R27, R28), which count neither as
ended nor as left (R114; log entry 29). `discard` says that a failure is not to be written into the holder (R109). -/
structure Staging where
  total : Nat
  todo : List (Nat × Nat)
  cut : Nat
  discard : Bool
  deriving DecidableEq, Repr

/-- The survey in progress (R112): elements listed, senses returned, elements still to be sensed, and the element
whose sense is in progress. The number listed stays as SURVEY formed it (log entry 44). -/
structure Survey where
  total : Nat
  returned : Nat
  todo : List Nat
  current : Option Nat
  deriving DecidableEq, Repr

/-- The ahead-fault holder's content (R109); `indicated := none` is INDETERMINATE. -/
structure Ahead where
  elem : Nat
  commanded : Nat
  indicated : Option Nat
  deriving DecidableEq, Repr

/-- The Throw Engine (R83, R84, R85, R91, R103, R107, R109). `applied` is kept in ascending order. -/
structure Engine where
  mode : Mode
  applied : List Nat
  number : Nat
  trans : Option Trans
  mute : Bool
  muteTimer : Option Nat
  dropHeld : Bool
  waiting : Option Request
  active : List Drive
  due : List Nat
  staging : Staging
  survey : Survey
  holder : Option Ahead
  deriving DecidableEq, Repr

/-! ### Step Ring -/

/-- A defined step record (R116). -/
structure StepRec where
  dwell : Nat
  rep : Nat
  freq : Nat
  ahead : Bool
  mark : Bool
  notice : Bool
  group : List Nat
  deriving DecidableEq, Repr

/-- Ring states (R121). -/
inductive RingState where
  | idle | entering | dwelling | held | halted
  deriving DecidableEq, Repr

/-- A loss result (R54). -/
inductive LossResult where
  | openPath
  | value (v : Int) (nocal edge sat : Bool)
  deriving DecidableEq, Repr

/-- The step report (R136); a result of `none` is "no report". -/
structure Report where
  step : Nat
  pass : Nat
  number : Nat
  freq : Nat
  results : List (Nat × Option LossResult)
  spread : Nat
  balance : Bool
  deriving DecidableEq, Repr

/-- The Step Ring (R116, R120, R121, R126, R131, R136). Timers keep the length they were started with. -/
structure Ring where
  steps : Table StepRec
  state : RingState
  len : Nat
  ptr : Nat
  visit : Nat
  pass : Nat
  pendingTrig : Bool
  overrun : Bool
  holdPending : Bool
  halt : Option (HaltCause × Val)
  dwellTimer : Option Nat
  keptDwell : Option Nat
  markTimer : Bool
  report : Option Report
  deriving DecidableEq, Repr

/-! ### Cards and the card bus -/

/-- Classes of a POLL (R142). -/
inductive PollResult where
  | good | bad | oc | silent
  deriving DecidableEq, Repr

/-- Where a card's restart sequence stands (R147). -/
inductive RestartStage where
  | wantRestart | restartSent | waiting | wantPoll | pollSent
  deriving DecidableEq, Repr

/-- A card record (R140) with the stage of its restart sequence (R147). -/
structure Card where
  state : CardState
  presenceChg : Bool
  stateChg : Bool
  coilFault : Bool
  last : Option PollResult
  pulses : Nat
  restart : Option RestartStage
  deriving DecidableEq, Repr

/-- The transaction on the card bus with what its request names (R142): a DRIVE and a SENSE are addressed to a card and
slot (R25), and a DRIVE names the position and, to an EM element, the pulse width (R95). `elem` is the element the
engine issued it for. -/
inductive BusTx where
  | pollRound (card : Nat)
  | pollDiscovery (card : Nat)
  | pollRestart (card : Nat)
  | drive (card slot elem pos : Nat) (pulse : Option Nat)
  | sense (card slot elem : Nat) (survey : Bool)
  | restart (card : Nat)
  deriving DecidableEq, Repr

/-- The card bus (R142), the poll round and its timer (R149), and discovery (R146). `round` and `discovery` hold the
card whose POLL is next or under way. -/
structure Bus where
  tx : Option BusTx
  round : Option Nat
  pollTimer : Option Nat
  discovery : Option Nat
  deriving DecidableEq, Repr

/-! ### Fixtures, interlocks, records -/

/-- Results of an admission (R156); `-` is the absence of one. -/
inductive AdmitResult where
  | ok | noid | check | kind | range | supply
  deriving DecidableEq, Repr

/-- Where an admission stands (R163): the ADMIT_WAIT timer with its length, or the identity read. -/
inductive AdmitStage where
  | wait (ms : Nat)
  | reading
  deriving DecidableEq, Repr

/-- A fixture record (R156) with its inputs FPRES and FFLT, its presence filter (R159) and its admission (R163). -/
structure Fixture where
  state : FixState
  owner : Owner
  present : Bool
  identity : Option (Nat × Nat)
  last : Option AdmitResult
  presenceChg : Bool
  stateChg : Bool
  stage : Option AdmitStage
  fpres : Bool
  counting : Bool
  fflt : Bool
  deriving DecidableEq, Repr

/-- A loop record (R173) with its input and its filter. -/
structure Loop where
  closed : Bool
  confirmed : Bool
  input : Bool
  counting : Bool
  deriving DecidableEq, Repr

/-- The fault record when present (R185). `indicated := some none` is INDETERMINATE. -/
structure FaultRec where
  cause : FaultCause
  elem : Option Nat
  commanded : Option Nat
  indicated : Option (Option Nat)
  number : Option Nat
  step : Option Nat
  torn : List Nat
  deriving DecidableEq, Repr

/-- A wear table entry (R190, R188). -/
structure Wear where
  count : Nat
  noticed : Bool
  late : Nat
  deriving DecidableEq, Repr

/-- Fault and Wear Records (R185, R186, R188, R190). A wear entry that is not listed is all zero. -/
structure Records where
  fault : Option FaultRec
  more : Nat
  late : Nat
  wear : Table Wear
  deriving DecidableEq, Repr

/-- Where the part stands in reset and start-up (R20, R21): in a reset, in card discovery, or running. -/
inductive Phase where
  | inReset | discovery | running
  deriving DecidableEq, Repr

/-- The part. `pending` is the model's queue of commands; `free` counts the free values read (log entry 3). A card,
fixture or loop that is not listed stands as `cardReset`, `fixtureReset` or `loopReset` gives. MUTE_REQ, CTS, READY,
MARK_OUT, fixture power and the RF permit follow from these fields (Machine/Flags.lean). -/
structure State where
  pending : List Instr
  phase : Phase
  cause : ResetCause
  free : Nat
  link : Link
  site : Site
  rate : Nat
  lock : Bool
  store : Store
  failed : Nat
  images : Table Curve
  net : Net
  routes : Table Route
  engine : Engine
  ring : Ring
  bus : Bus
  cards : Table Card
  fixtures : Table Fixture
  loops : Table Loop
  latch : Bool
  records : Records
  muteAck : Bool
  deriving DecidableEq, Repr

/-- Reasons a step stops the model. -/
inductive Fault where
  /-- Raised by an event that names an element, card, fixture connector or loop input the part does not have. Safe:
  the manual gives the part no such input, so no hardware goes on from it. -/
  | noSuchUnit
  /-- Raised by an event whose operands describe nothing that can happen: a received line that contains its own
  line feed, or a store record left holding contents of another kind of record. Safe, for the same reason. -/
  | noSuchEvent
  deriving DecidableEq, Repr

/-- Reasons a step is refused. -/
inductive Refusal where
  /-- Raised by `exec` for a command that has no meaning in the model. Safe: nothing is claimed of it. -/
  | notModelled (mnemonic : String)
  deriving DecidableEq, Repr

/-! ### Reset values -/

/-- The default of every site setting (R16). -/
def siteDefault : Site :=
  { linkRate := 115200, cbRate := 1, pollGap := 50, muteWait := 20, retryDelay := 50, lateLimit := 0,
    noteGap := 0, admitWait := 20, balLimit := 0, topoOneway := 0, protOn := 0, protEdge := 0,
    protDir := .low, siteLock := 0 }

/-- Every notice kind in R8's order; at reset all are enabled (R10). -/
def allKinds : List NoticeKind :=
  [.boot, .lost, .done, .fault, .step, .roll, .halted, .bal, .perm, .card, .fixt, .wear, .late, .retire]

/-- Coalescing cleared: timer stopped, count 0 (R11). -/
def gapReset : Gap := { timer := none, count := 0, index := 0, pass := 0 }

/-- The Command Port after a reset (R2, R8, R9, R10, R11). -/
def linkReset : Link :=
  { lines := [], hold := none, held := none, slot := none, notices := [], owed := 0, tx := .idle,
    lost := false, enabled := allKinds, gap := gapReset }

/-- A store no record of which has ever been written: every record erased (R14; log entry 2). -/
def storeBlank : Store := { settings := .erased, curves := [], wear := .erased }

/-- The net table after a reset (R24, R29, R32, R39, R41). -/
def netReset : Net := { elems := [], ports := [], legs := [], released := [], locked := false }

/-- An empty staging context. -/
def stagingReset : Staging := { total := 0, todo := [], cut := 0, discard := false }

/-- No survey. -/
def surveyReset : Survey := { total := 0, returned := 0, todo := [], current := none }

/-- The Throw Engine after a reset (R83). -/
def engineReset : Engine :=
  { mode := .idle, applied := [], number := 0, trans := none, mute := false, muteTimer := none,
    dropHeld := false, waiting := none, active := [], due := [], staging := stagingReset,
    survey := surveyReset, holder := none }

/-- The Step Ring after a reset (R116, R120, R121, R126, R136). -/
def ringReset : Ring :=
  { steps := [], state := .idle, len := 1, ptr := 0, visit := 1, pass := 0, pendingTrig := false,
    overrun := false, holdPending := false, halt := none, dwellTimer := none, keptDwell := none,
    markTimer := false, report := none }

/-- The card bus after a reset: no transaction, no round, no timer (R20, R149). -/
def busReset : Bus := { tx := none, round := none, pollTimer := none, discovery := none }

/-- A card record before discovery (R140). -/
def cardReset : Card :=
  { state := .absent, presenceChg := false, stateChg := false, coilFault := false, last := none,
    pulses := 0, restart := none }

/-- A fixture record after a reset (R156), with nothing seated and no supply fault at its inputs (log entry 5). -/
def fixtureReset : Fixture :=
  { state := .empty, owner := .localOwner, present := false, identity := none, last := none,
    presenceChg := false, stateChg := false, stage := none, fpres := false, counting := false, fflt := false }

/-- A loop record after a reset (R173), with its input open (log entry 5). -/
def loopReset : Loop := { closed := false, confirmed := false, input := false, counting := false }

/-- A wear entry with nothing counted (R190). -/
def wearZero : Wear := { count := 0, noticed := false, late := 0 }

/-- The records after a reset (R185, R188, R190). -/
def recordsReset : Records := { fault := none, more := 0, late := 0, wear := [] }

/-- The part in a power-on reset that has just begun (R20), its store never written (log entry 2). RESET_END ends the
reset; log entry 1 says how commands come to be decoded from here. -/
def State.reset : State :=
  { pending := [], phase := .inReset, cause := .power, free := 0, link := linkReset, site := siteDefault,
    rate := 115200, lock := false, store := storeBlank, failed := 0, images := [], net := netReset,
    routes := [], engine := engineReset, ring := ringReset, bus := busReset, cards := [], fixtures := [],
    loops := [], latch := false, records := recordsReset, muteAck := false }

/-! ### Setters: one per field. Every update of the machine goes through them. -/

/-- `s` with field `pending` replaced. -/
def State.setPending (s : State) (v : List Instr) : State := { s with pending := v }
/-- `s` with field `phase` replaced. -/
def State.setPhase (s : State) (v : Phase) : State := { s with phase := v }
/-- `s` with field `cause` replaced. -/
def State.setCause (s : State) (v : ResetCause) : State := { s with cause := v }
/-- `s` with field `free` replaced. -/
def State.setFree (s : State) (v : Nat) : State := { s with free := v }
/-- `s` with field `link` replaced. -/
def State.setLink (s : State) (v : Link) : State := { s with link := v }
/-- `s` with field `site` replaced. -/
def State.setSite (s : State) (v : Site) : State := { s with site := v }
/-- `s` with field `rate` replaced. -/
def State.setRate (s : State) (v : Nat) : State := { s with rate := v }
/-- `s` with field `lock` replaced. -/
def State.setLock (s : State) (v : Bool) : State := { s with lock := v }
/-- `s` with field `store` replaced. -/
def State.setStore (s : State) (v : Store) : State := { s with store := v }
/-- `s` with field `failed` replaced. -/
def State.setFailed (s : State) (v : Nat) : State := { s with failed := v }
/-- `s` with field `images` replaced. -/
def State.setImages (s : State) (v : Table Curve) : State := { s with images := v }
/-- `s` with field `net` replaced. -/
def State.setNet (s : State) (v : Net) : State := { s with net := v }
/-- `s` with field `routes` replaced. -/
def State.setRoutes (s : State) (v : Table Route) : State := { s with routes := v }
/-- `s` with field `engine` replaced. -/
def State.setEngine (s : State) (v : Engine) : State := { s with engine := v }
/-- `s` with field `ring` replaced. -/
def State.setRing (s : State) (v : Ring) : State := { s with ring := v }
/-- `s` with field `bus` replaced. -/
def State.setBus (s : State) (v : Bus) : State := { s with bus := v }
/-- `s` with field `cards` replaced. -/
def State.setCards (s : State) (v : Table Card) : State := { s with cards := v }
/-- `s` with field `fixtures` replaced. -/
def State.setFixtures (s : State) (v : Table Fixture) : State := { s with fixtures := v }
/-- `s` with field `loops` replaced. -/
def State.setLoops (s : State) (v : Table Loop) : State := { s with loops := v }
/-- `s` with field `latch` replaced. -/
def State.setLatch (s : State) (v : Bool) : State := { s with latch := v }
/-- `s` with field `records` replaced. -/
def State.setRecords (s : State) (v : Records) : State := { s with records := v }
/-- `s` with field `muteAck` replaced. -/
def State.setMuteAck (s : State) (v : Bool) : State := { s with muteAck := v }

end Sys2Proof.Machine
end

