-- ==== Sys2Proof/Machine/Table.lean ====
section
/-! DEFINITION. Tables of records in one canonical form (numbers strictly rising), banks (tables whose unlisted
numbers stand at a default, never listed), and ascending lists of numbers. -/

namespace Sys2Proof.Machine

/-- The record of number `k`, if there is one. -/
def tget {α : Type} : Table α → Nat → Option α
  | [], _ => none
  | (j, v) :: t, k => if j = k then some v else tget t k

/-- The table with record `k` written. -/
def tput {α : Type} : Table α → Nat → α → Table α
  | [], k, v => [(k, v)]
  | (j, w) :: t, k, v =>
    if k < j then (k, v) :: (j, w) :: t
    else if k = j then (k, v) :: t
    else (j, w) :: tput t k v

/-- The table with record `k` removed. -/
def tdel {α : Type} : Table α → Nat → Table α
  | [], _ => []
  | (j, w) :: t, k => if j = k then t else (j, w) :: tdel t k

/-- Every record rewritten from its number and content. -/
def tmap {α β : Type} (f : Nat → α → β) (t : Table α) : Table β :=
  t.map fun p => (p.1, f p.1 p.2)

/-- The numbers that have a record satisfying `q`, in ascending order. -/
def tkeys {α : Type} (q : Nat → α → Bool) (t : Table α) : List Nat :=
  (t.filter fun p => q p.1 p.2).map fun p => p.1

/-- The canonical form: numbers strictly rising. -/
def tableWf {α : Type} : Table α → Bool
  | [] => true
  | [_] => true
  | (j, _) :: (k, w) :: t => decide (j < k) && tableWf ((k, w) :: t)

/-- The record of number `k` in a bank with default `d`. -/
def bget {α : Type} (d : α) (t : Table α) (k : Nat) : α := (tget t k).getD d

/-- The bank with record `k` written; a record at the default is not listed. -/
def bput {α : Type} [DecidableEq α] (d : α) (t : Table α) (k : Nat) (v : α) : Table α :=
  if v = d then tdel t k else tput t k v

/-- Every record of a bank rewritten by an `f` that leaves the default as it is. -/
def bmap {α : Type} [DecidableEq α] (d : α) (f : α → α) (t : Table α) : Table α :=
  (t.map fun p => (p.1, f p.2)).filter fun p => decide (p.2 ≠ d)

/-- A number put into an ascending list, once. -/
def insertNat (n : Nat) : List Nat → List Nat
  | [] => [n]
  | m :: l => if n < m then n :: m :: l else if n = m then m :: l else m :: insertNat n l

/-- A list of numbers in ascending order, each once. -/
def sortNat (l : List Nat) : List Nat := l.foldl (fun acc n => insertNat n acc) []

/-- The first number of the list that already stood earlier in it (R64, R87, R117). That the first repeated number is the
one first seen again, E2 in E1 E2 E2 E1, is the model's choice (log entry 43). -/
def firstRepeat : List Nat → List Nat → Option Nat
  | _, [] => none
  | seen, n :: l => if n ∈ seen then some n else firstRepeat (n :: seen) l

end Sys2Proof.Machine
end

