-- ==== Sys2Proof/Machine/Flags.lean ====
section
/-! DEFINITION. What follows from the state: reads of the records, the output pins (MUTE_REQ, CTS, READY, MARK_OUT,
fixture power), the RF permit, and the names the link writes for states. -/

namespace Sys2Proof.Machine

/-! ### Reads of records -/

/-- Card record `n` (R140). -/
def cardAt (s : State) (n : Nat) : Card := bget cardReset s.cards n
/-- Fixture record `n` (R156). -/
def fixtureAt (s : State) (n : Nat) : Fixture := bget fixtureReset s.fixtures n
/-- Loop record `n` (R173). -/
def loopAt (s : State) (n : Nat) : Loop := bget loopReset s.loops n
/-- Wear entry `e` (R190). -/
def wearAt (s : State) (e : Nat) : Wear := bget wearZero s.records.wear e
/-- Element record `e`, if defined (R24). -/
def elemAt (s : State) (e : Nat) : Option Elem := tget s.net.elems e
/-- Port record `p`, if defined (R29). -/
def portAt (s : State) (p : Nat) : Option PortRec := tget s.net.ports p
/-- Route record `r`, unless FREE (R61). -/
def routeAt (s : State) (r : Nat) : Option Route := tget s.routes r
/-- Step record `i`, if defined (R116). -/
def stepAt (s : State) (i : Nat) : Option StepRec := tget s.ring.steps i

/-- The rest position of a kind (R23). -/
def restOf : ElemKind → Nat
  | .latch => 0
  | .failsafe => 1
  | .solid => 0

/-- The electromechanical kinds (R23). -/
def isEm : ElemKind → Bool
  | .latch => true
  | .failsafe => true
  | .solid => false

/-- The card is ENABLED, which makes its elements available (R141). -/
def cardEnabled (s : State) (n : Nat) : Bool := (cardAt s n).state == .enabled

/-- The elements defined on card `n`, in ascending number (R25, R140). -/
def elemsOnCard (s : State) (n : Nat) : List Nat := tkeys (fun _ e => e.card == n) s.net.elems

/-- The route claims element `e` (R33). -/
def claimsElem (r : Route) (e : Nat) : Bool := r.hops.any fun h => h.elem == e

/-- The route ends at port `p`, in either role (R33). -/
def endsAt (r : Route) (p : Nat) : Bool := r.src == p || r.dst == p

/-- The fixture index a port is bound to (R29). -/
def portFixture (s : State) (p : Nat) : Option Nat :=
  match portAt s p with
  | some q => q.fixture
  | none => none

/-- The route has an endpoint port bound to fixture index `n` (R29). -/
def endsOnFixture (s : State) (r : Route) (n : Nat) : Bool :=
  portFixture s r.src == some n || portFixture s r.dst == some n

/-- The routes of `l` whose records satisfy `q`, in the order of `l`. -/
def routesWhere (s : State) (l : List Nat) (q : Route → Bool) : List Nat :=
  l.filter fun r => match routeAt s r with | some rec => q rec | none => false

/-- The lowest applied route whose record satisfies `q` (R148, R162, R167, R184). -/
def appliedWhere (s : State) (q : Route → Bool) : Option Nat := (routesWhere s s.engine.applied q).head?

/-- Some applied route claims `e`. -/
def appliedClaims (s : State) (e : Nat) : Bool := (appliedWhere s fun r => claimsElem r e).isSome

/-- Some route of the list radiates (R67). -/
def anyRadiates (s : State) (l : List Nat) : Bool := !(routesWhere s l fun r => r.radiates).isEmpty

/-- A transition is in flight: MUTING, BREAK or MAKE (R83). -/
def inFlight (s : State) : Bool :=
  s.engine.mode == .muting || s.engine.mode == .breaking || s.engine.mode == .making

/-- The ring is ENTERING, DWELLING or HELD. -/
def ringRuns (s : State) : Bool :=
  s.ring.state == .entering || s.ring.state == .dwelling || s.ring.state == .held

/-- The current group: the group of the step at the pointer (R121). -/
def currentGroup (s : State) : List Nat :=
  match stepAt s s.ring.ptr with
  | some st => st.group
  | none => []

/-- The next step's number (R119, R127). -/
def nextStep (s : State) : Nat := (s.ring.ptr + 1) % s.ring.len

/-! ### Outputs -/

/-- The RF permit: every loop CLOSED and confirmed (R176). -/
def permit (s : State) : Bool :=
  [1, 2, 3, 4].all fun n => (loopAt s n).closed && (loopAt s n).confirmed

/-- The exposure contribution (R180). -/
def exposure (s : State) : Bool := !permit s && anyRadiates s s.engine.applied

/-- MUTE_REQ: engine, exposure, fault latch and start-up contributions (R179, R182). -/
def muteReq (s : State) : Bool :=
  s.engine.mute || exposure s || s.latch || s.phase != .running

/-- CTS: asserted while the receiver runs and fewer than 6 lines wait (R2, R20). -/
def cts (s : State) : Bool := s.phase != .inReset && decide (s.link.lines.length < 6)

/-- READY: asserted exactly in DWELLING (R121). -/
def ready (s : State) : Bool := s.ring.state == .dwelling

/-- MARK_OUT: asserted while its timer runs (R126). -/
def markOut (s : State) : Bool := s.ring.markTimer

/-- The power switch output of fixture `n`: on in ADMITTING and ADMITTED (R157, R20). -/
def fixturePower (s : State) (n : Nat) : Bool :=
  (fixtureAt s n).state == .admitting || (fixtureAt s n).state == .admitted

/-! ### Names on the link -/

/-- 0 or 1. -/
def bit (b : Bool) : Val := .num (if b then 1 else 0)

/-- A number as a value. -/
def vnum (n : Nat) : Val := .num (Int.ofNat n)

/-- A number, or `-`. -/
def optNum : Option Nat → Val
  | some n => vnum n
  | none => .dash

/-- Ring state names (R121). -/
def ringName : RingState → String
  | .idle => "IDLE" | .entering => "ENTERING" | .dwelling => "DWELLING" | .held => "HELD" | .halted => "HALTED"

/-- Engine state names (R83). -/
def modeName : Mode → String
  | .idle => "IDLE" | .check => "CHECK" | .muting => "MUTING" | .breaking => "BREAK" | .making => "MAKE"
  | .staging => "STAGING" | .survey => "SURVEY"

/-- Card state names (R141). -/
def cardName : CardState → String
  | .absent => "ABSENT" | .disabled => "DISABLED" | .restarting => "RESTARTING" | .enabled => "ENABLED"

/-- Fixture state names (R157). -/
def fixName : FixState → String
  | .empty => "EMPTY" | .present => "PRESENT" | .admitting => "ADMITTING" | .admitted => "ADMITTED"
  | .faulted => "FAULTED"

/-- Owner names (R156). -/
def ownerName : Owner → String
  | .localOwner => "LOCAL" | .bench => "BENCH"

/-- Loop report names (R176). -/
def loopName : LoopReport → String
  | .openLoop => "OPEN" | .closed => "CLOSED" | .conf => "CONF"

/-- Element kind names (R23). -/
def kindName : ElemKind → String
  | .latch => "LATCH" | .failsafe => "FAILSAFE" | .solid => "SOLID"

/-- Port class names (R29). -/
def className : PortClass → String
  | .source => "SOURCE" | .duplex => "DUPLEX" | .sink => "SINK" | .probe => "PROBE" | .fixture => "FIXTURE"
  | .term => "TERM"

/-- Route state names (R62). -/
def routeStateName : RouteState → String
  | .ready => "READY" | .applied => "APPLIED" | .retiring => "RETIRING" | .stale => "STALE"

/-- Route state names as ROUTES? takes them (R82). -/
def namedState : RouteStateName → String
  | .free => "FREE" | .ready => "READY" | .applied => "APPLIED" | .retiring => "RETIRING" | .stale => "STALE"

/-- Torn cause names (R76). -/
def tearName : TearCause → String
  | .card => "CARD" | .readback => "READBACK" | .hot => "HOT" | .fixture => "FIXTURE" | .permit => "PERMIT"

/-- Origin names (R86). -/
def originName : Origin → String
  | .command => "COMMAND" | .step => "STEP" | .drop => "DROP"

/-- Outcome names (R99). -/
def outcomeName : TransOutcome → String
  | .clean => "CLEAN" | .faulted => "FAULTED" | .halted => "HALTED"

/-- Transition cause names (R99). -/
def endCauseName : EndCause → String
  | .halt => "HALT" | .permit => "PERMIT" | .hot => "HOT" | .readback => "READBACK"
  | .muteTimeout => "MUTE_TIMEOUT" | .card => "CARD" | .fixture => "FIXTURE"

/-- Stop names (R84). -/
def stopName : Stop → String
  | .halt => "HALT" | .permit => "PERMIT" | .hot => "HOT"

/-- Fault cause names (R185). -/
def faultName : FaultCause → String
  | .readback => "READBACK" | .ahead => "AHEAD" | .hot => "HOT" | .muteTimeout => "MUTE_TIMEOUT"
  | .cardOc => "CARD_OC" | .cardLost => "CARD_LOST" | .fixturePulled => "FIXTURE_PULLED"

/-- Halt cause names (R133). -/
def haltName : HaltCause → String
  | .undef => "UNDEF" | .stale => "STALE" | .conflict => "CONFLICT" | .guard => "GUARD" | .unavail => "UNAVAIL"
  | .permit => "PERMIT" | .readback => "READBACK" | .muteTimeout => "MUTE_TIMEOUT" | .hot => "HOT"
  | .card => "CARD" | .fixture => "FIXTURE" | .halt => "HALT" | .overrun => "OVERRUN"

/-- POLL classes (R142). -/
def pollName : PollResult → String
  | .good => "GOOD" | .bad => "BAD" | .oc => "OC" | .silent => "SILENT"

/-- Admission result names (R156). -/
def admitName : AdmitResult → String
  | .ok => "OK" | .noid => "NOID" | .check => "CHECK" | .kind => "KIND" | .range => "RANGE" | .supply => "SUPPLY"

/-- Reset cause names (R8, R20). -/
def resetName : ResetCause → String
  | .power => "POWER" | .line => "LINE" | .command => "COMMAND"

/-- Notice kind names without the exclamation mark (R8). -/
def noticeName : NoticeKind → String
  | .boot => "BOOT" | .lost => "LOST" | .done => "DONE" | .fault => "FAULT" | .step => "STEP" | .roll => "ROLL"
  | .halted => "HALTED" | .bal => "BAL" | .perm => "PERM" | .card => "CARD" | .fixt => "FIXT" | .wear => "WEAR"
  | .late => "LATE" | .retire => "RETIRE"

/-- Setting names (R16). -/
def settingName : Setting → String
  | .linkRate => "LINK_RATE" | .cbRate => "CB_RATE" | .pollGap => "POLL_GAP" | .muteWait => "MUTE_WAIT"
  | .retryDelay => "RETRY_DELAY" | .lateLimit => "LATE_LIMIT" | .noteGap => "NOTE_GAP"
  | .admitWait => "ADMIT_WAIT" | .balLimit => "BAL_LIMIT" | .topoOneway => "TOPO_ONEWAY" | .protOn => "PROT_ON"
  | .protEdge => "PROT_EDGE" | .protDir => "PROT_DIR" | .siteLock => "SITE_LOCK"

/-- Refusal code names (R4). -/
def errName : ErrCode → String
  | .syntaxErr => "SYNTAX" | .range => "RANGE" | .undef => "UNDEF" | .busy => "BUSY" | .inuse => "INUSE"
  | .locked => "LOCKED" | .prot => "PROT" | .conflict => "CONFLICT" | .guard => "GUARD" | .permit => "PERMIT"
  | .unavail => "UNAVAIL" | .stale => "STALE" | .broken => "BREAK" | .nopath => "NOPATH" | .absent => "ABSENT"
  | .openLoop => "OPEN" | .store => "STORE"

/-- A terminal as the link writes it (scope 5.2). -/
def terminalVal : Terminal → Val
  | .port p => .port p
  | .common e => .common e
  | .throw e k => .throw e k

/-- A loop record as `!PERM` and ILK? write it (R176). -/
def loopReport (l : Loop) : LoopReport :=
  if !l.closed then .openLoop else if l.confirmed then .conf else .closed

/-- The kind of a notice (R8). -/
def noticeKind : Notice → NoticeKind
  | .boot _ _ => .boot
  | .lost => .lost
  | .done _ _ _ _ => .done
  | .fault _ _ => .fault
  | .step _ _ _ => .step
  | .roll _ => .roll
  | .halted _ _ => .halted
  | .bal _ _ => .bal
  | .perm _ _ _ _ _ => .perm
  | .card _ _ => .card
  | .fixt _ _ _ => .fixt
  | .wear _ _ => .wear
  | .late _ => .late
  | .retire _ => .retire

/-- The status summary of R6. -/
def statusSummary (s : State) : List Field :=
  [.keyed "S" (.word (ringName s.ring.state)), .keyed "I" (vnum s.ring.ptr),
   .keyed "T" (.word (modeName s.engine.mode)), .keyed "P" (bit (permit s)), .keyed "M" (bit (muteReq s)),
   .keyed "F" (bit s.records.fault.isSome)]

end Sys2Proof.Machine
end

