-- ==== Sys2Proof/Machine/Operands.lean ====
section
/-! DEFINITION. What the decoder checks of a command's arguments once the line has the right form (R3, checks 3
and 5), and which events name something the part has. -/

namespace Sys2Proof.Machine

/-- `n` lies in lo to hi. -/
def within (lo hi n : Nat) : Bool := decide (lo ≤ n) && decide (n ≤ hi)

/-- The terminal's numbers lie in their ranges, and a throw in 1 to 8 (R3, section 2.4). -/
def terminalInRange : Terminal → Bool
  | .port p => within 0 159 p
  | .common e => within 0 95 e
  | .throw e k => within 0 95 e && within 1 8 k

/-- A curve slot, when one is named, lies in 0 to 255. -/
def slotInRange : Option Nat → Bool
  | none => true
  | some c => within 0 255 c

/-- A loss in centi-dB lies in −2000 to 12000 (R43). -/
def lossInRange (v : Int) : Bool := decide (-2000 ≤ v) && decide (v ≤ 12000)

/-- The range of each numeric setting (R16). PROT_DIR takes no number. -/
def settingInRange (name : Setting) (n : Nat) : Bool :=
  match name with
  | .linkRate => n == 115200 || n == 230400 || n == 460800 || n == 921600
  | .cbRate => within 0 3 n
  | .pollGap => within 10 1000 n
  | .muteWait => within 1 250 n
  | .retryDelay => within 0 500 n
  | .lateLimit => within 0 65535 n
  | .noteGap => within 0 1000 n
  | .admitWait => within 1 500 n
  | .balLimit => within 0 6000 n
  | .topoOneway => within 0 1 n
  | .protOn => within 0 1 n
  | .protEdge => within 0 255 n
  | .protDir => false
  | .siteLock => within 0 1 n

/-- A SITE value has the form its setting takes: LOW or HIGH for PROT_DIR, a number otherwise (R3 check 4, R16). -/
def settingForm (name : Setting) : SettingValue → Bool
  | .num _ => name != .protDir
  | .dir _ => name == .protDir

/-- Every setting of `v` lies in its range (R16). -/
def siteInRange (v : Site) : Bool :=
  settingInRange .linkRate v.linkRate && settingInRange .cbRate v.cbRate && settingInRange .pollGap v.pollGap
  && settingInRange .muteWait v.muteWait && settingInRange .retryDelay v.retryDelay
  && settingInRange .lateLimit v.lateLimit && settingInRange .noteGap v.noteGap
  && settingInRange .admitWait v.admitWait && settingInRange .balLimit v.balLimit
  && settingInRange .topoOneway v.topoOneway && settingInRange .protOn v.protOn
  && settingInRange .protEdge v.protEdge && settingInRange .siteLock v.siteLock

/-- No flag is named twice (R117). -/
def flagsDistinct : List StepFlag → Bool
  | [] => true
  | f :: l => !l.contains f && flagsDistinct l

/-- SYNTAX when `form` fails, RANGE when `range` fails: the decoder's order (R3). -/
def decoderCheck (form range : Bool) : Option ErrCode :=
  if !form then some .syntaxErr else if !range then some .range else none

/-- What the decoder answers a line with these operands, or none when the line passes to its owner (R3 and the
rule of each command). Events pass. That ECAL's position has the decoder's range 1 to 8, also on an undefined element, is
the model's choice, for R37 gives the decoder none (log entry 37). -/
def operandCheck : Instr → Option ErrCode
  | .note _ (some (sel, v)) =>
    decoderCheck true (within 0 1 v && !(v == 0 && (sel == .kind .boot || sel == .kind .lost)))
  | .site _ name (some v) =>
    decoderCheck (settingForm name v) (match v with | .num n => settingInRange name n | .dir _ => true)
  | .elem _ e _ n card slot pulse settle guard life =>
    decoderCheck true (within 0 95 e && within 2 8 n && within 0 11 card && within 0 7 slot && within 0 50 pulse
      && within 0 1000 settle && within 0 1 guard && within 0 4294967295 life)
  | .elemdel _ e | .elemQuery _ e | .rel _ e | .unrel _ e | .eclr _ e | .wearQuery _ e =>
    decoderCheck true (within 0 95 e)
  | .port _ p cls fixture =>
    decoderCheck (fixture.isSome == (cls == .fixture))
      (within 0 159 p && (match fixture with | some n => within 0 7 n | none => true))
  | .portdel _ p | .portQuery _ p => decoderCheck true (within 0 159 p)
  | .leg _ a b => decoderCheck true (terminalInRange a && terminalInRange b)
  | .legCut _ a | .legQuery _ a => decoderCheck true (terminalInRange a)
  | .ecal _ e k slot => decoderCheck true (within 0 95 e && within 1 8 k && slotInRange slot)
  | .pcal _ p slot => decoderCheck true (within 0 159 p && slotInRange slot)
  | .curve _ c points =>
    decoderCheck (!points.isEmpty)
      (within 0 255 c && points.all fun q => within 1 65000 q.1 && lossInRange q.2)
  | .curvedel _ c | .curveQuery _ c => decoderCheck true (within 0 255 c)
  | .loss _ r f | .lossParts _ r f => decoderCheck true (within 0 255 r && within 1 65000 f)
  | .bal _ (some n) => decoderCheck true (within 0 65535 n)
  | .route _ r src dst hops =>
    decoderCheck (within 1 12 hops.length)
      (within 0 255 r && within 0 159 src && within 0 159 dst
        && hops.all fun h => within 0 95 h.1 && within 1 8 h.2)
  | .find _ r src dst _ => decoderCheck true (within 0 255 r && within 0 159 src && within 0 159 dst)
  | .routedel _ r | .routeQuery _ r => decoderCheck true (within 0 255 r)
  | .go _ ids => decoderCheck (within 0 8 ids.length) (ids.all (within 0 255))
  | .step _ i dwell rep freq flags ids =>
    decoderCheck (within 0 8 ids.length && flagsDistinct flags)
      (within 0 511 i && within 0 65535 dwell && within 1 16 rep && within 0 65000 freq && ids.all (within 0 255))
  | .stepdel _ i | .stepQuery _ i | .run _ i => decoderCheck true (within 0 511 i)
  | .ring _ len => decoderCheck true (within 1 512 len)
  | .cardRestart _ n | .cardQuery _ n => decoderCheck true (within 0 11 n)
  | .cack _ (some n) => decoderCheck true (within 0 11 n)
  | .admitFixture _ n | .ownerBench _ n | .ownerLocal _ n | .fixQuery _ n => decoderCheck true (within 0 7 n)
  | .fack _ (some n) => decoderCheck true (within 0 7 n)
  | .confirm _ n => decoderCheck true (within 1 4 n)
  | .wearset _ e count => decoderCheck true (within 0 95 e && within 0 4294967295 count)
  | _ => none

/-! ### The length of a line (R1) -/

/-- The decimal digits of `n`, of at most `fuel`. -/
def digitCount : Nat → Nat → Nat
  | 0, _ => 0
  | fuel + 1, n => if n < 10 then 1 else 1 + digitCount fuel (n / 10)

/-- The characters of the shortest spelling of a number argument. One that lies outside every range is spelled
shortest as `-1` (R3 check 5). -/
def natWidth (n : Nat) : Nat := if n < Config.outOfRange then digitCount 10 n else 2

/-- The same where the range holds negative numbers. -/
def intWidth (v : Int) : Nat := digitCount 11 v.natAbs + if v < 0 then 1 else 0

/-- The characters of a list of arguments, each with the space before it. -/
def argsWidth {α : Type} (width : α → Nat) (l : List α) : Nat := (l.map fun a => 1 + width a).sum

/-- The characters of a verb of `n` letters, with its `+`. -/
def verbWidth (n : Nat) (plus : Bool) : Nat := if plus then n + 1 else n

/-- The characters of step flags: `-`, or the names joined by commas (R117). -/
def flagsWidth : List StepFlag → Nat
  | [] => 1
  | l => (l.map fun f => match f with | .ahead => 6 | .mark => 5 | .notice => 7).sum - 1

/-- The characters of the shortest line that spells a command whose arguments are a list. Every other command has a
spelling of far fewer than 200 characters and stands at 0. -/
def shortestLine : Instr → Nat
  | .curve plus c points =>
    verbWidth 5 plus + argsWidth natWidth [c] + argsWidth (fun q => natWidth q.1 + 1 + intWidth q.2) points
  | .route plus r src dst hops =>
    verbWidth 5 plus + argsWidth natWidth [r, src, dst] + argsWidth (fun h => natWidth h.1 + 1 + natWidth h.2) hops
  | .go plus ids => verbWidth 2 plus + argsWidth natWidth ids
  | .step plus i dwell rep freq flags ids =>
    verbWidth 4 plus + argsWidth natWidth [i, dwell, rep, freq] + 1 + flagsWidth flags + argsWidth natWidth ids
  | _ => 0

/-- Some line of at most 200 characters spells the command (R1). -/
def fitsLine (i : Instr) : Bool := decide (shortestLine i ≤ Config.lineLength)

/-- A stored curve meets R43: 2 to 16 points, in range, frequencies strictly rising. -/
def risingFrom : Nat → Curve → Bool
  | _, [] => true
  | f, q :: l => decide (f < q.1) && risingFrom q.1 l

/-- R43's conditions on a defined curve. -/
def curveOk (c : Curve) : Bool :=
  within 2 16 c.length && risingFrom 0 c && c.all fun q => within 1 65000 q.1 && lossInRange q.2

/-- Throw counts such as a wear-base record holds (R190). -/
def countsOk (w : WearCounts) : Bool :=
  tableWf w && w.all fun p => within 0 95 p.1 && within 1 4294967295 p.2

/-- What the decoder requires of an event's operands; a stop names which of the two fails. -/
def eventCheck : Instr → Option Fault
  | .pulseEnd e | .settleEnd e | .retryDelayExpiry e => if within 0 95 e then none else some .noSuchUnit
  | .restartWaitExpiry n => if within 0 11 n then none else some .noSuchUnit
  | .fpresChange n _ | .fixturePresent n | .fixtureAbsent n | .admitWaitExpiry n | .identityRecord n _ _ _ _
  | .identityReadTimeout n | .ffltAsserted n | .ffltDeasserted n => if within 0 7 n then none else some .noSuchUnit
  | .loopInputChange n _ | .loopOpened n | .loopClosed n => if within 1 4 n then none else some .noSuchUnit
  | .lineReceived chars _ => if chars.contains 10 then some .noSuchEvent else none
  | .storeWriteEnd (.fail _ (.valid c)) =>
    match c with
    | .settings v => if siteInRange v then none else some .noSuchEvent
    | .curve p => if curveOk p then none else some .noSuchEvent
    | .wear w => if countsOk w then none else some .noSuchEvent
  | _ => none

end Sys2Proof.Machine
end

