-- ==== Sys2Proof/Decode.lean ====
section
/-! DEFINITION. The decoder (R3): from the text of a line to a command, or to the refusal it is answered with. The
opcode table gives its rows no bits, so `decodeTableWord` reads no word. -/

namespace Sys2Proof

/-- The command that a word of `nbits` bits spells by the opcode table's bits. No row of the table has any. -/
def decodeTableWord (_nbits _w : Nat) : Option Instr := none

namespace Machine

/-- A token of a line, folded to upper case. -/
abbrev Tok := List Char

/-- A received character as the decoder reads it: lower case letters folded to upper case (R3). -/
def foldChar (b : Byte) : Char :=
  if 97 ≤ b.toNat ∧ b.toNat ≤ 122 then Char.ofNat (b.toNat - 32) else Char.ofNat b.toNat

/-- A character a line may hold: space to tilde, or tab (R3 check 1). -/
def printable (b : Byte) : Bool := within 32 126 b.toNat || b.toNat == 9

/-- The tokens of a line: separated by one or more spaces or tabs (R3). `cur` is the token so far, reversed. -/
def splitTokens : List Char → List Char → List Tok
  | [], cur => if cur.isEmpty then [] else [cur.reverse]
  | c :: l, cur =>
    if c = ' ' ∨ c = '\t' then
      if cur.isEmpty then splitTokens l [] else cur.reverse :: splitTokens l []
    else splitTokens l (c :: cur)

/-- The parts of a token between occurrences of `sep`, with `cur` the part so far, reversed. -/
def splitOn (sep : Char) : List Char → List Char → List Tok
  | [], cur => [cur.reverse]
  | c :: l, cur => if c = sep then cur.reverse :: splitOn sep l [] else splitOn sep l (c :: cur)

/-- A decimal digit. -/
def isDigit (c : Char) : Bool := within 48 57 c.toNat

/-- The value of a run of digits, read from the left onto `acc`. -/
def digitsValue (acc : Nat) : List Char → Nat
  | [] => acc
  | c :: l => digitsValue (acc * 10 + (c.toNat - 48)) l

/-- A number written in digits alone. More than 10 digits lie outside every range (R3 check 5). -/
def digitsOf (t : Tok) : Option Nat :=
  if t.isEmpty || !t.all isDigit then none
  else if t.length > 10 then some Config.outOfRange
  else some (digitsValue 0 t)

/-- A number argument whose range holds no negative number (R3 checks 4 and 5). -/
def natOf : Tok → Option Nat
  | '-' :: l => (digitsOf l).map fun n => if n = 0 then 0 else Config.outOfRange
  | t => digitsOf t

/-- A number argument whose range holds negative numbers. -/
def intOf : Tok → Option Int
  | '-' :: l => (digitsOf l).map fun n => - (n : Int)
  | t => (digitsOf t).map fun n => (n : Int)

/-- A letter followed by a number, as in `K12` (scope 5.2). -/
def lettered (c : Char) : Tok → Option Nat
  | d :: l => if d = c then digitsOf l else none
  | [] => none

/-- A port written as a plain number or as `Pn` (R64). -/
def portOf (t : Tok) : Option Nat := (natOf t).orElse fun _ => lettered 'P' t

/-- A loop written as a number or as `Ln` (R175). -/
def loopOf (t : Tok) : Option Nat := (natOf t).orElse fun _ => lettered 'L' t

/-- A terminal: `Pn`, `En.C` or `En.k` (scope 5.2). -/
def terminalOf (t : Tok) : Option Terminal :=
  match splitOn '.' t [] with
  | [p] => (lettered 'P' p).map .port
  | [e, k] =>
    match lettered 'E' e with
    | some n => if k = ['C'] then some (.common n) else (digitsOf k).map (.throw n)
    | none => none
  | _ => none

/-- A curve slot `Kc`, or `-` for none (R37). -/
def curveRefOf (t : Tok) : Option (Option Nat) :=
  if t = ['-'] then some none else (lettered 'K' t).map some

/-- A hop `e:k` (R64). -/
def hopOf (t : Tok) : Option (Nat × Nat) :=
  match splitOn ':' t [] with
  | [e, k] => (natOf e).bind fun e => (natOf k).map fun k => (e, k)
  | _ => none

/-- Every token read by `f`, or none. -/
def allOf {α : Type} (f : Tok → Option α) : List Tok → Option (List α)
  | [] => some []
  | t :: l => (f t).bind fun a => (allOf f l).map fun as => a :: as

/-- The first of `l` whose name is the token. -/
def named {α : Type} (name : α → String) (l : List α) (t : Tok) : Option α := l.find? fun a => (name a).toList == t

/-- A number or ALL. -/
def numberOrAll (t : Tok) : Option (Option Nat) := if t = "ALL".toList then some none else (natOf t).map some

/-- Element kinds by name. -/
def kindOf : Tok → Option ElemKind := named kindName [.latch, .failsafe, .solid]

/-- Port classes by name. -/
def classOf : Tok → Option PortClass := named className [.source, .duplex, .sink, .probe, .fixture, .term]

/-- Settings by name (R16). -/
def settingOf : Tok → Option Setting :=
  named settingName [.linkRate, .cbRate, .pollGap, .muteWait, .retryDelay, .lateLimit, .noteGap, .admitWait,
    .balLimit, .topoOneway, .protOn, .protEdge, .protDir, .siteLock]

/-- A SITE value: LOW, HIGH or a number. -/
def settingValueOf (t : Tok) : Option SettingValue :=
  if t = "LOW".toList then some (.dir .low)
  else if t = "HIGH".toList then some (.dir .high)
  else (natOf t).map .num

/-- What NOTE acts on (R10). -/
def noteSelOf (t : Tok) : Option NoteSel :=
  if t = "ALL".toList then some .all else (named noticeName allKinds t).map .kind

/-- Step flags joined by commas, or `-` (R117). -/
def flagsOf (t : Tok) : Option (List StepFlag) :=
  if t = ['-'] then some []
  else allOf (named (fun f => match f with | .ahead => "AHEAD" | .mark => "MARK" | .notice => "NOTICE")
    [StepFlag.ahead, StepFlag.mark, StepFlag.notice]) (splitOn ',' t [])

/-- Frequency and loss pairs (R46). -/
def pointsOf : List Tok → Option (List (Nat × Int))
  | [] => some []
  | [_] => none
  | f :: v :: l => (natOf f).bind fun f => (intOf v).bind fun v => (pointsOf l).map fun ps => (f, v) :: ps

/-- A verb: its name, and what it makes of `+` and its arguments; none is SYNTAX. -/
structure Verb where
  name : String
  read : Bool → List Tok → Option Instr

/-- A verb that takes no argument. -/
def verb0 (name : String) (c : Bool → Instr) : Verb :=
  { name := name, read := fun p a => match a with | [] => some (c p) | _ => none }

/-- A verb that takes one argument. -/
def verb1 {α : Type} (name : String) (f : Tok → Option α) (c : Bool → α → Instr) : Verb :=
  { name := name, read := fun p a => match a with | [x] => (f x).map (c p) | _ => none }

/-- A verb that takes two arguments. -/
def verb2 {α β : Type} (name : String) (f : Tok → Option α) (g : Tok → Option β) (c : Bool → α → β → Instr) : Verb :=
  { name := name
    read := fun p a => match a with
      | [x, y] => (f x).bind fun x => (g y).map fun y => c p x y
      | _ => none }

/-- A verb that takes one argument or none. -/
def verbOpt {α : Type} (name : String) (f : Tok → Option α) (c : Bool → Option α → Instr) : Verb :=
  { name := name
    read := fun p a => match a with
      | [] => some (c p none)
      | [x] => (f x).map fun x => c p (some x)
      | _ => none }

/-- Verbs of the Command Port (chapter 1). -/
def linkVerbs : List Verb :=
  [verb0 "RESET" .reset, verb0 "STAT" .stat, verb0 "SYNC" .sync, verb0 "SITESAVE" .sitesave, verb0 "WIPE" .wipe,
   { name := "NOTE"
     read := fun p a => match a with
       | [] => some (.note p none)
       | [k, v] => (noteSelOf k).bind fun k => (natOf v).map fun v => .note p (some (k, v))
       | _ => none },
   { name := "SITE"
     read := fun p a => match a with
       | [n] => (settingOf n).map fun n => .site p n none
       | [n, v] => (settingOf n).bind fun n => (settingValueOf v).map fun v => .site p n (some v)
       | _ => none }]

/-- Verbs of the Net Table (chapter 2). -/
def netVerbs : List Verb :=
  [{ name := "ELEM"
     read := fun p a => match a with
       | [e, k, n, c, s, w, t, g, l] =>
         (natOf e).bind fun e => (kindOf k).bind fun k => (natOf n).bind fun n => (natOf c).bind fun c =>
         (natOf s).bind fun s => (natOf w).bind fun w => (natOf t).bind fun t => (natOf g).bind fun g =>
         (natOf l).map fun l => .elem p e k n c s w t g l
       | _ => none },
   verb1 "ELEMDEL" natOf .elemdel,
   { name := "PORT"
     read := fun p a => match a with
       | [n, c] => (natOf n).bind fun n => (classOf c).map fun c => .port p n c none
       | [n, c, f] =>
         (natOf n).bind fun n => (classOf c).bind fun c => (lettered 'F' f).map fun f => .port p n c (some f)
       | _ => none },
   verb1 "PORTDEL" natOf .portdel,
   { name := "LEG"
     read := fun p a => match a with
       | [x, y] => (terminalOf x).bind fun x =>
         if y = ['-'] then some (.legCut p x) else (terminalOf y).map fun y => .leg p x y
       | _ => none },
   verb1 "ELEM?" natOf .elemQuery, verb1 "PORT?" natOf .portQuery, verb1 "LEG?" terminalOf .legQuery,
   verb0 "NET?" .netQuery,
   { name := "ECAL"
     read := fun p a => match a with
       | [e, k, c] => (natOf e).bind fun e => (natOf k).bind fun k => (curveRefOf c).map fun c => .ecal p e k c
       | _ => none },
   verb2 "PCAL" natOf curveRefOf .pcal, verb1 "REL" natOf .rel, verb1 "UNREL" natOf .unrel, verb0 "REL?" .relQuery,
   verb0 "LOCK" .lock, verb0 "UNLOCK" .unlock]

/-- Verbs of the Calibration Store, the Loss Unit and the Route Table (chapters 3 and 4). -/
def routeVerbs : List Verb :=
  [{ name := "CURVE"
     read := fun p a => match a with
       | c :: l => (natOf c).bind fun c => (pointsOf l).map fun ps => .curve p c ps
       | [] => none },
   verb1 "CURVEDEL" natOf .curvedel, verb1 "CURVE?" natOf .curveQuery,
   { name := "LOSS"
     read := fun p a => match a with
       | [r, f] => (natOf r).bind fun r => (natOf f).map fun f => .loss p r f
       | [r, f, w] =>
         if w = "PARTS".toList then (natOf r).bind fun r => (natOf f).map fun f => .lossParts p r f else none
       | _ => none },
   verbOpt "BAL" natOf .bal,
   { name := "ROUTE"
     read := fun p a => match a with
       | r :: s :: d :: l => (natOf r).bind fun r => (portOf s).bind fun s => (portOf d).bind fun d =>
         (allOf hopOf l).map fun hs => .route p r s d hs
       | _ => none },
   { name := "FIND"
     read := fun p a => match a with
       | [r, s, d] => (natOf r).bind fun r => (portOf s).bind fun s => (portOf d).map fun d => .find p r s d false
       | [r, s, d, g] =>
         if g = ['G'] then
           (natOf r).bind fun r => (portOf s).bind fun s => (portOf d).map fun d => .find p r s d true
         else none
       | _ => none },
   verb1 "ROUTEDEL" natOf .routedel, verb1 "ROUTE?" natOf .routeQuery,
   verbOpt "ROUTES?" (named namedState [.free, .ready, .applied, .retiring, .stale]) .routesQuery]

/-- Verbs of the Throw Engine and the Step Ring (chapters 5 and 6). -/
def engineVerbs : List Verb :=
  [{ name := "GO", read := fun p a => (allOf natOf a).map fun ids => .go p ids },
   verb0 "HALT" .halt, verb0 "SURVEY" .survey, verb0 "ENGINE?" .engineQuery, verb0 "AHEAD?" .aheadQuery,
   { name := "STEP"
     read := fun p a => match a with
       | i :: d :: r :: f :: g :: l => (natOf i).bind fun i => (natOf d).bind fun d => (natOf r).bind fun r =>
         (natOf f).bind fun f => (flagsOf g).bind fun g => (allOf natOf l).map fun ids => .step p i d r f g ids
       | _ => none },
   verb1 "STEPDEL" natOf .stepdel, verb1 "STEP?" natOf .stepQuery, verb1 "RING" natOf .ring,
   verb1 "RUN" natOf .run, verb0 "TRIG" .trig, verb0 "HOLD" .hold, verb0 "RESUME" .resume, verb0 "STOP" .stop,
   verb0 "REPORT?" .reportQuery, verb0 "RING?" .ringQuery]

/-- Verbs of the cards, fixtures, interlocks and records (chapters 7 to 10). -/
def unitVerbs : List Verb :=
  [{ name := "CARD"
     read := fun p a => match a with
       | [n, w] => if w = "RESTART".toList then (natOf n).map fun n => .cardRestart p n else none
       | _ => none },
   verb1 "CACK" numberOrAll .cack, verb1 "CARD?" natOf .cardQuery, verb0 "CARDS?" .cardsQuery,
   verb1 "ADMIT" natOf .admitFixture,
   { name := "OWNER"
     read := fun p a => match a with
       | [n, w] => (natOf n).bind fun n =>
         if w = "BENCH".toList then some (.ownerBench p n)
         else if w = "LOCAL".toList then some (.ownerLocal p n) else none
       | _ => none },
   verb1 "FACK" numberOrAll .fack, verb1 "FIX?" natOf .fixQuery, verb0 "FIXES?" .fixesQuery,
   verb1 "CONFIRM" loopOf .confirm, verb0 "ILK?" .ilkQuery, verb0 "MUTE?" .muteQuery, verb1 "ECLR" natOf .eclr,
   verb0 "FAULT?" .faultQuery, verb0 "FCLEAR" .fclear, verb0 "LATE?" .lateQuery, verb0 "LATECLR" .lateclr,
   verb2 "WEARSET" natOf natOf .wearset, verb1 "WEAR?" natOf .wearQuery, verb0 "WEARSAVE" .wearsave]

/-- Every verb of the part. -/
def verbs : List Verb := linkVerbs ++ netVerbs ++ routeVerbs ++ engineVerbs ++ unitVerbs

/-- What the decoder makes of a line: a command for its owner, or a refusal, with the status suffix asked for. -/
inductive Decoded where
  | command (i : Instr)
  | refused (plus : Bool) (code : ErrCode) (detail : Option String)
  deriving DecidableEq, Repr

/-- A verb token: the verb, and whether it ends in `+`, which may not stand alone (R3). -/
def verbOf (t : Tok) : Tok × Bool :=
  match t.reverse with
  | '+' :: c :: l => ((c :: l).reverse, true)
  | _ => (t, false)

/-- The command the tokens name, before its ranges are checked. -/
def readCommand : List Tok → Option Instr
  | [] => none
  | v :: a =>
    match verbs.find? fun w => w.name.toList == (verbOf v).1 with
    | some w => w.read (verbOf v).2 a
    | none => none

/-- The decoder's work on the text of a line (R3). -/
def decodeText (chars : List Byte) : Decoded :=
  let toks := splitTokens (chars.map foldChar) []
  let plus := match toks with | v :: _ => (verbOf v).2 | [] => false
  if !chars.all printable then .refused plus .syntaxErr none
  else match readCommand toks with
    | none => .refused plus .syntaxErr none
    | some i => match operandCheck i with
      | some e => .refused plus e none
      | none => .command i

/-- The decoder's work on one place of the line queue (R1, R3). -/
def decodeLine : Line → Decoded
  | .text chars => decodeText chars
  | .long => .refused false .syntaxErr (some "LONG")
  | .damaged => .refused false .syntaxErr (some "FRAME")

end Machine
end Sys2Proof
end

