-- ==== Sys2Proof/Machine/Ops.lean ====
section
/-! DEFINITION. The named operations that several blocks share: notices, replies, operations a SYNC waits for, the
fault record, the wear table, and the reports that change a route's state. -/

namespace Sys2Proof.Machine

/-! ### Notices (R8, R9) -/

/-- A notice put at the tail of the notice queue, or discarded with lost-pending set when the queue is full (R8). -/
def enqueue (n : Notice) (s : State) : State :=
  if s.link.notices.length < Config.noticeQueue then
    s.setLink { s.link with notices := s.link.notices ++ [n] }
  else s.setLink { s.link with lost := true }

/-- A notice handed to the Command Port: dropped when its kind is masked, queued otherwise (R8, R10). -/
def notify (n : Notice) (s : State) : State :=
  if s.link.enabled.contains (noticeKind n) then enqueue n s else s

/-- The STEP entry of a step that asks for a notice, coalesced by NOTE_GAP (R11). -/
def stepEntry (index pass : Nat) (s : State) : State :=
  if !s.link.enabled.contains .step then s
  else match s.link.gap.timer with
    | none =>
      let s := enqueue (.step index pass 1) s
      if s.site.noteGap > 0 then s.setLink { s.link with gap := { s.link.gap with timer := some s.site.noteGap } }
      else s
    | some _ =>
      s.setLink { s.link with gap := { s.link.gap with count := s.link.gap.count + 1, index := index, pass := pass } }

/-! ### Replies (R4, R6, R9) -/

/-- A success reply. -/
def ok (fields : List Field) : Reply := { refused := none, fields := fields, suffix := none }

/-- A refusal without detail. -/
def er (c : ErrCode) : Reply := { refused := some c, fields := [], suffix := none }

/-- A refusal with its detail word. -/
def erWith (c : ErrCode) (d : Val) : Reply := { refused := some c, fields := [.bare d], suffix := none }

/-- A reply line placed in the reply slot, or held by the decoder while the slot is full (R9). -/
def placeReply (o : OutReply) (s : State) : State :=
  match s.link.slot with
  | none => s.setLink { s.link with slot := some o }
  | some _ => s.setLink { s.link with held := some o }

/-- The reply of the command just acted on, formed from the state `s` it leaves, with the status suffix when asked
for (R6). -/
def answer (plus : Bool) (r : Reply) (s : State) : State :=
  placeReply { reply := { r with suffix := if plus then some (statusSummary s) else none }, thenReset := false } s

/-! ### Operations a SYNC waits for (R7) -/

/-- The end of an operation: a SYNC that waits for it waits for it no more. -/
def opEnded (o : Op) (s : State) : State :=
  match s.link.hold with
  | some (.sync plus ops) => s.setLink { s.link with hold := some (.sync plus (ops.erase o)) }
  | _ => s

/-! ### The fault record (R185, R186) -/

/-- A fault reported by the rule named for its cause. The step index is the ring pointer unless the ring is IDLE. -/
def recordFault (f : FaultRec) (s : State) : State :=
  let f := { f with step := if s.ring.state == .idle then none else some s.ring.ptr }
  let r := s.records
  let s := match r.fault with
    | none => s.setRecords { r with fault := some f }
    | some _ => s.setRecords { r with more := if r.more < 255 then r.more + 1 else 255 }
  notify (.fault f.cause f.elem) s

/-- A fault with no field but its cause, for `recordFault` to complete. -/
def plainFault (c : FaultCause) : FaultRec :=
  { cause := c, elem := none, commanded := none, indicated := none, number := none, step := none, torn := [] }

/-- The number of the transition in flight, if one is (R185). -/
def flightNumber (s : State) : Option Nat := if inFlight s then some s.engine.number else none

/-! ### Wear and late readbacks (R188, R190) -/

/-- One DRIVE counted on its element's wear entry (R190). -/
def countDrive (e : Nat) (s : State) : State :=
  let w := wearAt s e
  let c := if w.count < 4294967295 then w.count + 1 else 4294967295
  let life := match elemAt s e with | some x => x.life | none => 0
  let due := decide (life > 0) && decide (life ≤ c) && !w.noticed
  let s := s.setRecords { s.records with
    wear := bput wearZero s.records.wear e { w with count := c, noticed := w.noticed || due } }
  if due then notify (.wear e c) s else s

/-- A late event of element `e` (R188). -/
def lateEvent (e : Nat) (s : State) : State :=
  let w := wearAt s e
  let k := if w.late < 65535 then w.late + 1 else 65535
  let r := s.records
  let d := if r.late < 65535 then r.late + 1 else 65535
  let s := s.setRecords { r with late := d, wear := bput wearZero r.wear e { w with late := k } }
  if s.site.lateLimit > 0 && r.late < d && d == s.site.lateLimit then notify (.late d) s else s

/-! ### Elements and cards -/

/-- Element `e` with record `x`. -/
def setElem (e : Nat) (x : Elem) (s : State) : State := s.setNet { s.net with elems := tput s.net.elems e x }

/-- The runtime fields of element `e` rewritten, if it is defined (R24). -/
def updElem (e : Nat) (f : Elem → Elem) (s : State) : State :=
  match elemAt s e with
  | some x => setElem e (f x) s
  | none => s

/-- Card `n` with record `c`. -/
def setCard (n : Nat) (c : Card) (s : State) : State := s.setCards (bput cardReset s.cards n c)

/-- Fixture `n` with record `f`. -/
def setFixture (n : Nat) (f : Fixture) (s : State) : State := s.setFixtures (bput fixtureReset s.fixtures n f)

/-- Loop `n` with record `l`. -/
def setLoop (n : Nat) (l : Loop) (s : State) : State := s.setLoops (bput loopReset s.loops n l)

/-- The fault mute latch set (R181). -/
def setTheLatch (s : State) : State := s.setLatch true

/-! ### Reports of the engine to the Route Table (R74, R75, R76) -/

/-- The applied set replaced. -/
def withApplied (l : List Nat) (s : State) : State := s.setEngine { s.engine with applied := l }

/-- Route `r` enters the applied set under transition number `t` (R74, R85). -/
def routeEnter (t : Nat) (r : Nat) (s : State) : State :=
  let s := withApplied (insertNat r s.engine.applied) s
  match routeAt s r with
  | some x => s.setRoutes (tput s.routes r { x with state := .applied, last := some t, pending := false })
  | none => s

/-- Route `r` leaves the applied set: an APPLIED route becomes READY, a RETIRING route FREE with `!RETIRE` (R75). -/
def routeLeave (r : Nat) (s : State) : State :=
  let s := withApplied (s.engine.applied.erase r) s
  match routeAt s r with
  | some x =>
    match x.state with
    | .applied => s.setRoutes (tput s.routes r { x with state := .ready })
    | .retiring => notify (.retire r) (s.setRoutes (tdel s.routes r))
    | _ => s
  | none => s

/-- The torn cause written into route `r` (R76). -/
def tornCause (c : TearCause) (r : Nat) (s : State) : State :=
  match routeAt s r with
  | some x => s.setRoutes (tput s.routes r { x with torn := some c })
  | none => s

/-- A tear of an applied route: the cause, then its leaving (R76). -/
def tearApplied (c : TearCause) (r : Nat) (s : State) : State := routeLeave r (tornCause c r s)

/-- Every pending mark removed (R63). -/
def clearPending (s : State) : State := s.setRoutes (tmap (fun _ x => { x with pending := false }) s.routes)

/-- The READY routes of a target set marked pending (R63). -/
def markPending (target : List Nat) (s : State) : State :=
  s.setRoutes (tmap (fun r x => { x with pending := x.pending || (target.contains r && x.state == .ready) }) s.routes)

/-! ### The engine's modes and staging (R107, R110) -/

/-- The engine in another state (R83). -/
def setMode (m : Mode) (s : State) : State := s.setEngine { s.engine with mode := m }

/-- Staging has ended: its context is emptied, and a SYNC no longer waits for it (R107, R110). That a SYNC waits until
here, and not only until staging was cut short, is the model's choice (log entry 45). -/
def stagingOver (s : State) : State := opEnded .staging (s.setEngine { s.engine with staging := stagingReset })

/-- The staging drives not yet issued taken off the list (R110). They do not count as ended (R114; log entry 29). -/
def quitStaging (g : Staging) : Staging := { g with todo := [], cut := g.cut + g.todo.length }

/-- The ring's request to end staging, with or without emptying the ahead-fault holder (R110). -/
def endStaging (empty : Bool) (s : State) : State :=
  let s := if empty then s.setEngine { s.engine with holder := none } else s
  if s.engine.mode == .staging then
    let g := quitStaging s.engine.staging
    let s := s.setEngine { s.engine with staging := { g with discard := g.discard || empty } }
    if s.engine.active.isEmpty then setMode .idle (stagingOver s) else s
  else s

end Sys2Proof.Machine
end

