-- ==== Sys2Proof/Machine/Loss.lean ====
section
/-! DEFINITION. The Loss Unit (chapter 3): contributors of a route, their sum, and the results of a step group. -/

namespace Sys2Proof.Machine

/-- One part of a path that can be calibrated, worked out at a frequency (R50, R51, R53). -/
structure Contributor where
  name : Val
  value : Int
  nocal : Bool
  edge : Bool
  isOpen : Bool
  deriving DecidableEq, Repr

/-- Interpolation between adjacent points, halves going upward (R52): the quotient is the greatest integer not
greater than (2N + D)/(2D). -/
def interpolate (f : Nat) (p q : Nat × Int) : Int :=
  let num := (q.2 - p.2) * ((f : Int) - (p.1 : Int))
  let den := (q.1 : Int) - (p.1 : Int)
  p.2 + (2 * num + den) / (2 * den)

/-- The value at `f` from point `p` on, with EDGE when `f` lies above the last point (R51). -/
def curveFrom (f : Nat) (p : Nat × Int) : Curve → Int × Bool
  | [] => (p.2, decide (p.1 < f))
  | q :: l =>
    if f = p.1 then (p.2, false)
    else if f < q.1 then (interpolate f p q, false)
    else curveFrom f q l

/-- The value of a curve at `f` and its EDGE flag (R51). -/
def curveValue (f : Nat) : Curve → Int × Bool
  | [] => (0, false)
  | p :: l => if f < p.1 then (p.2, true) else curveFrom f p l

/-- A curve contributor from the slot it refers to (R51). -/
def curveContributor (s : State) (f : Nat) (name : Val) (slot : Option Nat) : Contributor :=
  match slot.bind (tget s.images) with
  | none => { name := name, value := 0, nocal := true, edge := false, isOpen := false }
  | some c =>
    let v := curveValue f c
    { name := name, value := v.1, nocal := false, edge := v.2, isOpen := false }

/-- The cable contributor of port `p` (R50). -/
def cableContributor (s : State) (f p : Nat) : Contributor :=
  curveContributor s f (.port p) (match portAt s p with | some q => q.cable | none => none)

/-- The contributor of one hop (R50). -/
def hopContributor (s : State) (f : Nat) (h : Hop) : Contributor :=
  curveContributor s f (.hop h.elem h.pos)
    (match elemAt s h.elem with
     | some e => if h.pos ≤ e.n then tget e.refs h.pos else none
     | none => none)

/-- The coupler contributor of port `p`, when it is now of class FIXTURE (R50, R53). -/
def couplerContributor (s : State) (p : Nat) : List Contributor :=
  match portFixture s p with
  | none => []
  | some n =>
    let x := fixtureAt s n
    match x.state, x.identity with
    | .admitted, some (_, c) =>
      [{ name := .fixt n, value := Int.ofNat c, nocal := false, edge := false, isOpen := false }]
    | _, _ => [{ name := .fixt n, value := 0, nocal := false, edge := false, isOpen := true }]

/-- The contributors of a route at `f`, in the order of R50. -/
def contributors (s : State) (f : Nat) (r : Route) : List Contributor :=
  [cableContributor s f r.src] ++ r.hops.map (hopContributor s f) ++ [cableContributor s f r.dst]
    ++ couplerContributor s r.src ++ couplerContributor s r.dst

/-- Contributors combined into a result: OPEN, or the sum held to −2000 to 12000 with its flags (R54). -/
def combine (l : List Contributor) : LossResult :=
  if l.any (fun c => c.isOpen) then .openPath
  else
    let sum := l.foldl (fun a c => a + c.value) 0
    let v := if sum > 12000 then 12000 else if sum < -2000 then -2000 else sum
    .value v (l.any fun c => c.nocal) (l.any fun c => c.edge) (v != sum)

/-- The loss of a route at `f` (R50 to R54). -/
def routeLoss (s : State) (f : Nat) (r : Route) : LossResult := combine (contributors s f r)

/-- The flags that are set, in the order NOCAL, EDGE, SAT (R55). -/
def flagWords (nocal edge sat : Bool) : List String :=
  (if nocal then ["NOCAL"] else []) ++ (if edge then ["EDGE"] else []) ++ (if sat then ["SAT"] else [])

/-- A route's result at step frequency `f`; a step of frequency 0 reports none (R57). -/
def groupResult (s : State) (f r : Nat) : Nat × Option LossResult :=
  if f = 0 then (r, none)
  else match routeAt s r with
    | some x => (r, some (routeLoss s f x))
    | none => (r, none)

/-- The numeric values among the results (R58). -/
def numericValues : List (Nat × Option LossResult) → List Int
  | [] => []
  | (_, some (.value v _ _ _)) :: l => v :: numericValues l
  | _ :: l => numericValues l

/-- The spread: the greatest value less the least, 0 with fewer than two (R58). -/
def spreadOf (l : List (Nat × Option LossResult)) : Nat :=
  match numericValues l with
  | [] => 0
  | v :: vs => (vs.foldl max v - vs.foldl min v).toNat

/-- The report of a step (R57, R58, R59, R136). -/
def formReport (s : State) (st : StepRec) (index pass number : Nat) : Report :=
  let results := st.group.map (groupResult s st.freq)
  let spread := spreadOf results
  { step := index, pass := pass, number := number, freq := st.freq, results := results, spread := spread,
    balance := decide (s.site.balLimit > 0) && decide (s.site.balLimit < spread) }

end Sys2Proof.Machine
end

