-- ==== Sys2Proof/Machine/Store.lean ====
section
/-! DEFINITION. The nonvolatile store (section 1.5): how a store write ends, how far a WIPE has come, and what a reset
in the middle of a write leaves. -/

namespace Sys2Proof.Machine

/-- The records of a WIPE are erased in this order: the settings, K0 to K255, the wear bases (R19). -/
def wipeRecords : Nat := 258

/-- Record `i` of a WIPE erased, and with it the working image of its curve slot (R19, R48). -/
def eraseRecord (i : Nat) (s : State) : State :=
  if i = 0 then s.setStore { s.store with settings := .erased }
  else if i ≤ 256 then
    (s.setStore { s.store with curves := tdel s.store.curves (i - 1) }).setImages (tdel s.images (i - 1))
  else s.setStore { s.store with wear := .erased }

/-- Records from `lo` up to, not including, `hi` of a WIPE erased. -/
def eraseRange (lo hi : Nat) (s : State) : State :=
  (List.range (hi - lo)).foldl (fun s i => eraseRecord (lo + i) s) s

/-- A WIPE in progress brought as far as it has come at this moment: a free value, never less than what has been
seen of it before (R48; log entry 4). -/
def wipeAdvance (s : State) : State :=
  match s.link.hold with
  | some (.store plus (.wipe reach)) =>
    let now := max reach (min (Config.wipeReach s.free) (wipeRecords - 1))
    let s := eraseRange reach now s
    (s.setLink { s.link with hold := some (.store plus (.wipe now)) }).setFree (s.free + 1)
  | _ => s

/-- A settings record left as `x` says; contents of another kind leave it failed. -/
def residueSettings : Residue → Stored Site
  | .erased => .erased
  | .valid (.settings v) => .valid v
  | _ => .failed

/-- A curve record left as `x` says. -/
def residueCurve : Residue → Stored Curve
  | .erased => .erased
  | .valid (.curve p) => .valid p
  | _ => .failed

/-- A wear-base record left as `x` says. -/
def residueWear : Residue → Stored WearCounts
  | .erased => .erased
  | .valid (.wear w) => .valid w
  | _ => .failed

/-- The curve record of slot `c` written; an erased record is not listed (R13). -/
def putCurveRecord (c : Nat) (x : Stored Curve) (s : State) : State :=
  s.setStore { s.store with curves := if x = .erased then tdel s.store.curves c else tput s.store.curves c x }

/-- Record `i` of a WIPE left in the condition `x` (R15). -/
def leaveRecord (i : Nat) (x : Residue) (s : State) : State :=
  if i = 0 then s.setStore { s.store with settings := residueSettings x }
  else if i ≤ 256 then putCurveRecord (i - 1) (residueCurve x) s
  else s.setStore { s.store with wear := residueWear x }

/-- The record a write of one record is writing, left in the condition `x` (R15). -/
def leaveOne (w : StoreWrite) (x : Residue) (s : State) : State :=
  match w with
  | .settings _ => s.setStore { s.store with settings := residueSettings x }
  | .curve c _ => putCurveRecord c (residueCurve x) s
  | .curveDel c => putCurveRecord c (residueCurve x) s
  | .wear _ => s.setStore { s.store with wear := residueWear x }
  | .wipe reach => leaveRecord reach x s

/-- The store when a reset begins: a record written in part is found failed (R15, R48). -/
def abandonWrite (s : State) : State :=
  match (wipeAdvance s).link.hold with
  | some (.store _ w) => leaveOne w .failed (wipeAdvance s)
  | _ => s

/-- A write that succeeded: the records, the working images and settings it changes, and the reply (R15, R18, R19,
R46, R47, R192). -/
def writeSucceeds (w : StoreWrite) (s : State) : State × Reply :=
  match w with
  | .settings v => (s.setStore { s.store with settings := .valid v }, ok [])
  | .curve c p =>
    ((putCurveRecord c (.valid p) s).setImages (tput s.images c p), ok [.bare (vnum c), .bare (vnum p.length)])
  | .curveDel c => ((putCurveRecord c .erased s).setImages (tdel s.images c), ok [.bare (vnum c)])
  | .wear w => (s.setStore { s.store with wear := .valid w }, ok [])
  | .wipe reach => (((eraseRange reach wipeRecords s).setSite siteDefault).setLock false, ok [])

/-- A write that stopped at record `i` of those it writes, which it left as `x` (R15, R19). For a WIPE the records
before `i` are erased. -/
def writeFails (w : StoreWrite) (i : Nat) (x : Residue) (s : State) : State × Reply :=
  match w with
  | .wipe reach => (leaveRecord i x (eraseRange reach i s), er .store)
  | _ => (leaveOne w x s, er .store)

/-- The failing record is one the write could have stopped at. -/
def failPossible (w : StoreWrite) (i : Nat) : Bool :=
  match w with
  | .wipe reach => decide (reach ≤ i) && decide (i < wipeRecords)
  | _ => i == 0

/-- The working throw counts as WEARSAVE writes them (R192). -/
def wearCounts (s : State) : WearCounts :=
  (s.records.wear.filter fun p => decide (0 < p.2.count)).map fun p => (p.1, p.2.count)

/-- Curve slot `c` is protected (R45). -/
def slotProtected (v : Site) (c : Nat) : Bool :=
  v.protOn == 1 && (match v.protDir with | .low => decide (c ≤ v.protEdge) | .high => decide (v.protEdge ≤ c))

end Sys2Proof.Machine
end

