-- ==== Sys2Proof/Machine/RingCore.lean ====
section
/-! DEFINITION. What the Step Ring does when the engine or a visit end reaches it (R123 to R128, R133 to R135): halts,
the outcome of an entry, and the move to the next step. -/

namespace Sys2Proof.Machine

/-- What the ring asks of the engine once the engine has entered IDLE (R124, R127). -/
inductive Ask where
  | nothing | stage | enter
  deriving DecidableEq, Repr

/-- The ring HALTED at its pointer with a cause and detail, its timers stopped, its marks cleared (R133). -/
def ringHalted (c : HaltCause) (detail : Val) (g : Ring) : Ring :=
  { g with
    state := .halted, halt := some (c, detail), dwellTimer := none, keptDwell := none, pendingTrig := false,
    overrun := false, holdPending := false }

/-- The ring becomes HALTED (R133): staging is ended, and `!HALTED` sent. -/
def haltRing (c : HaltCause) (detail : Val) (s : State) : State :=
  let s := s.setRing (ringHalted c detail s.ring)
  notify (.halted c s.ring.ptr) (endStaging false s)

/-- The halt cause a tear gives (R134). -/
def haltOfTear : TearCause → HaltCause
  | .card => .card | .readback => .readback | .hot => .hot | .fixture => .fixture | .permit => .permit

/-- The halt cause a transition's outcome gives (R124). -/
def haltOfEnd : Option EndCause → HaltCause
  | some .halt => .halt | some .permit => .permit | some .hot => .hot | some .readback => .readback
  | some .muteTimeout => .muteTimeout | some .card => .card | some .fixture => .fixture | none => .halt

/-- The halt cause a CHECK failure gives (R124). -/
def haltOfCode : ErrCode → HaltCause
  | .undef => .undef | .stale => .stale | .conflict => .conflict | .guard => .guard | .permit => .permit
  | _ => .unavail

/-- The ring is told of a tear: a route of the current group halts a DWELLING or HELD ring (R134). -/
def ringTorn (c : TearCause) (r : Nat) (s : State) : State :=
  if (s.ring.state == .dwelling || s.ring.state == .held) && (currentGroup s).contains r then
    haltRing (haltOfTear c) (vnum r) s
  else s

/-- The ring leaves its step: the pointer rises or wraps with `!ROLL`, V becomes 1, READY falls (R128). The state
ENTERING or HALTED that follows is set by the entry. -/
def leaveStep (s : State) : State :=
  let g := s.ring
  if g.ptr + 1 < g.len then s.setRing { g with ptr := g.ptr + 1, visit := 1, dwellTimer := none }
  else
    let p := (g.pass + 1) % 65536
    notify (.roll p) (s.setRing { g with ptr := 0, visit := 1, pass := p, dwellTimer := none })

/-- The ring enters DWELLING, with the dwell timer of a timed step started for `units` (R125 step 7, R132). -/
def beginDwell (st : StepRec) (units : Nat) (s : State) : State :=
  s.setRing { s.ring with
    state := .dwelling, dwellTimer := if st.dwell = 0 then none else some units, keptDwell := none }

/-- The staging request made when the ring begins to dwell in a step with AHEAD (R127). -/
def dwellAsk (st : StepRec) : Ask := if st.ahead then .stage else .nothing

/-- Steps 5 to 7 of R125: hold, pending trigger, dwell. -/
def afterNotice (st : StepRec) (s : State) : State × Ask :=
  let g := s.ring
  if g.holdPending then
    (s.setRing { g with
      state := .held, visit := 1, keptDwell := if st.dwell = 0 then none else some st.dwell,
      holdPending := false, pendingTrig := false }, .nothing)
  else if g.pendingTrig && st.dwell == 0 then
    let s := s.setRing { g with pendingTrig := false }
    if st.rep ≤ 1 then (leaveStep s, .enter)
    else (beginDwell st st.dwell (s.setRing { s.ring with visit := 2 }), dwellAsk st)
  else (beginDwell st st.dwell (s.setRing { g with pendingTrig := false }), dwellAsk st)

/-- A CLEAN entry of the step at the pointer by transition `number` (R125). -/
def entryClean (st : StepRec) (number : Nat) (s : State) : State × Ask :=
  let s := wipeAdvance s
  let rep := formReport s st s.ring.ptr s.ring.pass number
  let s := s.setRing { s.ring with report := some rep }
  let s := if rep.balance then notify (.bal s.ring.ptr rep.spread) s else s
  if s.ring.overrun then (haltRing .overrun .dash s, .nothing)
  else
    let s := if st.mark then s.setRing { s.ring with markTimer := true } else s
    let s := if st.notice then stepEntry s.ring.ptr s.ring.pass s else s
    afterNotice st s

/-- The ring is told the outcome of a STEP transition; it acts on it in ENTERING alone (R124, R125). -/
def ringOutcome (number : Nat) (out : TransOutcome) (cause : Option EndCause) (s : State) : State × Ask :=
  if s.ring.state == .entering then
    match out, stepAt s s.ring.ptr with
    | .clean, some st => entryClean st number s
    | .clean, none => (haltRing .undef .dash s, .nothing)
    | _, _ => (haltRing (haltOfEnd cause) (vnum number) s, .nothing)
  else (s, .nothing)

/-- The ring is told that its request was refused by CHECK or abandoned (R124). -/
def ringRefused (c : HaltCause) (detail : Val) (s : State) : State :=
  if s.ring.state == .entering then haltRing c detail s else s

/-- The ring is told that a DROP request removes the routes `gone` (R135). -/
def ringDropped (gone : List Nat) (s : State) : State :=
  if s.ring.state == .dwelling || s.ring.state == .held then
    match gone.filter (fun r => (currentGroup s).contains r) with
    | r :: _ => haltRing .permit (vnum r) s
    | [] => s
  else s

end Sys2Proof.Machine
end

