-- ==== Sys2Proof/Machine/Engine.lean ====
section
/-! DEFINITION. The Throw Engine (chapter 5): CHECK, planning, the phases, stops, the end of a transition, staging and
survey, and the reports of cards, fixtures and permit it acts on. -/

namespace Sys2Proof.Machine

/-- The first result found along a list. -/
def firstSome {α β : Type} (f : α → Option β) : List α → Option β
  | [] => none
  | a :: l => match f a with | some b => some b | none => firstSome f l

/-! ### CHECK (R88) -/

/-- A refusal of CHECK: code and detail. -/
abbrev CheckFail := ErrCode × Val

/-- The state of route `r`, none when FREE. -/
def routeState (s : State) (r : Nat) : Option RouteState := (routeAt s r).map fun x => x.state

/-- Condition 1: FREE or RETIRING. For a DROP a RETIRING route of the applied set passes. -/
def checkUndef (s : State) (o : Origin) (r : Nat) : Option CheckFail :=
  match routeState s r with
  | none => some (.undef, vnum r)
  | some .retiring => if o == .drop && s.engine.applied.contains r then none else some (.undef, vnum r)
  | _ => none

/-- Condition 2: STALE. -/
def checkStale (s : State) (r : Nat) : Option CheckFail :=
  if routeState s r = some .stale then some (.stale, vnum r) else none

/-- Two routes conflict: an element claimed by both, or a port at an end of both (R80). -/
def routesConflict (a b : Route) : Bool :=
  a.hops.any (fun h => claimsElem b h.elem) || endsAt b a.src || endsAt b a.dst

/-- Condition 3: the first route of the list that conflicts with one before it. -/
def checkConflict (s : State) : List Nat → List Nat → Option CheckFail
  | _, [] => none
  | before, r :: l =>
    match routeAt s r with
    | some x =>
      if (routesWhere s before (routesConflict x)).isEmpty then checkConflict s (r :: before) l
      else some (.conflict, vnum r)
    | none => checkConflict s (r :: before) l

/-- The first hop of route `r` whose element fails `q` (conditions 4 and 5). -/
def checkHops (s : State) (code : ErrCode) (q : Elem → Bool) (r : Nat) : Option CheckFail :=
  match routeAt s r with
  | some x => firstSome (fun h => match elemAt s h.elem with
      | some e => if q e then none else some (code, .elem h.elem)
      | none => some (code, .elem h.elem)) x.hops
  | none => none

/-- An element a route may use: its card ENABLED and its condition OK (condition 4). -/
def elemUsable (s : State) (e : Elem) : Bool := cardEnabled s e.card && !e.faulted

/-- Condition 5: an element that is guarded and not released. -/
def checkGuard (s : State) (r : Nat) : Option CheckFail :=
  match routeAt s r with
  | some x => firstSome (fun h => match elemAt s h.elem with
      | some e => if e.guarded && !s.net.released.contains h.elem then some (.guard, .elem h.elem) else none
      | none => none) x.hops
  | none => none

/-- Condition 6: an endpoint whose fixture is not ADMITTED, or is owned BENCH. The source port comes first, the model's
choice (log entry 41). -/
def checkFixture (s : State) (r : Nat) : Option CheckFail :=
  match routeAt s r with
  | some x => firstSome (fun p => match portFixture s p with
      | some n =>
        let f := fixtureAt s n
        if f.state == .admitted && f.owner == .localOwner then none else some (.unavail, .fixt n)
      | none => none) [x.src, x.dst]
  | none => none

/-- Condition 7: a radiating route without the permit; not tested for a DROP. -/
def checkPermit (s : State) (o : Origin) (r : Nat) : Option CheckFail :=
  match routeAt s r with
  | some x => if x.radiates && !permit s && o != .drop then some (.permit, vnum r) else none
  | none => none

/-- CHECK: the seven conditions in order, each over the routes in the order given (R88). -/
def checkSet (s : State) (q : Request) : Option CheckFail :=
  (firstSome (checkUndef s q.origin) q.target).orElse fun _ =>
  (firstSome (checkStale s) q.target).orElse fun _ =>
  (checkConflict s [] q.target).orElse fun _ =>
  (firstSome (checkHops s .unavail (elemUsable s)) q.target).orElse fun _ =>
  (firstSome (checkGuard s) q.target).orElse fun _ =>
  (firstSome (checkFixture s) q.target).orElse fun _ =>
  firstSome (checkPermit s q.origin) q.target

/-! ### Planning (R89, R90) -/

/-- The position the routes `l` require of element `e`: the first hop found that claims it. -/
def requiredPos (s : State) (l : List Nat) (e : Nat) : Option Nat :=
  firstSome (fun r => match routeAt s r with
    | some x => firstSome (fun h => if h.elem = e then some h.pos else none) x.hops
    | none => none) l

/-- The plan for one element: its target position, or none when it is not driven (R89). -/
def planElem (s : State) (target : List Nat) (e : Nat) (x : Elem) : Option Nat :=
  let want := (requiredPos s target e).getD (restOf x.kind)
  if (requiredPos s target e).isNone && !elemUsable s x then none
  else if x.pos = some want then none else some want

/-- The elements to be driven with their targets, in ascending number (R89). -/
def planDrives (s : State) (target : List Nat) : List (Nat × Elem × Nat) :=
  s.net.elems.filterMap fun p => (planElem s target p.1 p.2).map fun t => (p.1, p.2, t)

/-- The break list (R90). -/
def breakList (l : List (Nat × Elem × Nat)) : List Nat :=
  (l.filter fun p => p.2.1.pos != some (restOf p.2.1.kind)).map fun p => p.1

/-- The make list (R90): a target other than rest is one a route of B requires. -/
def makeList (l : List (Nat × Elem × Nat)) : List (Nat × Nat) :=
  (l.filter fun p => p.2.2 != restOf p.2.1.kind).map fun p => (p.1, p.2.2)

/-- The elements that the routes `l` claim. -/
def claimedBy (s : State) (l : List Nat) : List Nat :=
  l.flatMap fun r => match routeAt s r with | some x => x.hops.map fun h => h.elem | none => []

/-- The fixture indexes on which the routes `l` end. -/
def fixturesOf (s : State) (l : List Nat) : List Nat :=
  l.flatMap fun r => match routeAt s r with
    | some x => (portFixture s x.src).toList ++ (portFixture s x.dst).toList
    | none => []

/-- Mute is needed: an EM element to be driven is claimed by a route of A or B that carries source (R90). -/
def planNeedsMute (s : State) (old target : List Nat) (l : List (Nat × Elem × Nat)) : Bool :=
  l.any fun p => isEm p.2.1.kind
    && ((breakList l).contains p.1 || (makeList l).any fun q => q.1 == p.1)
    && !(routesWhere s (old ++ target) fun r => r.carries && claimsElem r p.1).isEmpty

/-- The next transition number: 65535 is followed by 1 (R84). -/
def nextNumber (n : Nat) : Nat := if n = 65535 then 1 else n + 1

/-- The record of a transition that has just passed CHECK (R84, R88). -/
def newTrans (s : State) (q : Request) : Trans :=
  let a := s.engine.applied
  let l := planDrives s q.target
  { number := nextNumber s.engine.number, origin := q.origin, old := a, target := q.target,
    muteNeeded := planNeedsMute s a q.target l, brk := breakList l, mak := makeList l,
    brkTodo := breakList l, makTodo := makeList l, notedElems := [], notedFixtures := [], faultedElems := [],
    stop := none, firstFault := none, outcome := none, lastEm := none, claimed := claimedBy s (a ++ q.target),
    fixtures := fixturesOf s (a ++ q.target), radiating := anyRadiates s (a ++ q.target) }

/-- A request that passes CHECK: number, record, pending marks, plan, and MUTING or BREAK entered (R88, R91). -/
def accept (q : Request) (s : State) : State :=
  let t := newTrans s q
  let s := markPending q.target s
  s.setEngine { s.engine with
    number := t.number, trans := some t,
    mode := if t.muteNeeded then .muting else .breaking,
    mute := t.muteNeeded,
    muteTimer := if t.muteNeeded then some s.site.muteWait else none }

/-! ### The transition record -/

/-- The transition record rewritten, if one is held. -/
def updTrans (f : Trans → Trans) (s : State) : State :=
  match s.engine.trans with
  | some t => s.setEngine { s.engine with trans := some (f t) }
  | none => s

/-- A fault noted as first fault, if none was (R84). -/
def noteFirst (c : FirstFault) (t : Trans) : Trans :=
  match t.firstFault with
  | none => { t with firstFault := some c }
  | some _ => t

/-- The cause a first fault gives the outcome (R99). -/
def endOfFirst : FirstFault → EndCause
  | .readback => .readback | .muteTimeout => .muteTimeout | .card => .card | .fixture => .fixture

/-- Outcome and cause from the stop and the first fault (R99). -/
def outcomeOf (t : Trans) : TransOutcome × Option EndCause :=
  match t.stop, t.firstFault with
  | some .halt, _ => (.halted, some .halt)
  | some .permit, _ => (.halted, some .permit)
  | some .hot, _ => (.faulted, some .hot)
  | none, some f => (.faulted, some (endOfFirst f))
  | none, none => (.clean, none)

/-- The route claims an element of the list. -/
def claimsAny (x : Route) (l : List Nat) : Bool := l.any (claimsElem x)

/-- The route ends on a fixture of the list. -/
def endsOnAny (s : State) (x : Route) (l : List Nat) : Bool := l.any (endsOnFixture s x)

/-! ### The end of a transition (R98) -/

/-- The routes of B that enter at the end: none unless MAKE was completed without a stop (R98 step 1). -/
def enteringRoutes (s : State) (t : Trans) (completed : Bool) : List Nat :=
  if completed && t.stop.isNone then
    t.target.filter fun r => !t.old.contains r && (match routeAt s r with
      | some x => !(claimsAny x t.faultedElems || claimsAny x t.notedElems || endsOnAny s x t.notedFixtures)
      | none => false)
  else []

/-- The tear a note gives a route (R98 step 2, R105). -/
def notedTear (s : State) (t : Trans) (x : Route) : Option TearCause :=
  if claimsAny x t.notedElems then some .card
  else if endsOnAny s x t.notedFixtures then some .fixture
  else none

/-- The tears of applied routes at a transition end (R98 step 2). R98 gives them no order: that they stand in ascending id, as
in R94 and R106, is the model's choice (log entry 48). -/
def appliedTears (s : State) (t : Trans) : List (Nat × TearCause) :=
  s.engine.applied.filterMap fun r => match routeAt s r with
    | some x => (notedTear s t x).map fun c => (r, c)
    | none => none

/-- The tears of routes of B that have not entered (R98 step 2), in B's order and after those of applied routes, the model's
choice (log entry 48). -/
def targetTears (s : State) (t : Trans) (entered : List Nat) : List (Nat × TearCause) :=
  (t.target.filter fun r => !t.old.contains r && !entered.contains r).filterMap fun r =>
    match routeAt s r with
    | some x =>
      let c : Option TearCause :=
        if claimsAny x t.faultedElems then some .readback
        else match notedTear s t x with
          | some c => some c
          | none => match t.stop with
            | some .hot => some .hot
            | some .permit => some .permit
            | _ => none
      c.map fun c => (r, c)
    | none => none

/-- Some route of the list carries source (R67). -/
def anyCarries (s : State) (l : List Nat) : Bool := !(routesWhere s l fun r => r.carries).isEmpty

/-- The torn routes that set the latch when they carry source: all, but for those that a PERMIT stop in MUTING tears,
which is handled like a HALT in MUTING with no latch set (R98 step 3, R100, R101; log entry 19). -/
def latchTears (s : State) (l : List (Nat × TearCause)) : List Nat :=
  (l.filter fun p => !(s.engine.mode == .muting && p.2 == .permit)).map fun p => p.1

/-- Steps 1 to 8 of R98, less the taking of a held DROP. `completed` says that MAKE was run to its end. The answer says
what the ring asks of the engine now that it is IDLE. -/
def endTransition (completed : Bool) (s : State) : State × Ask :=
  match s.engine.trans with
  | none => (setMode .idle s, .nothing)
  | some t =>
    let entered := enteringRoutes s t completed
    let s := entered.foldl (fun s r => routeEnter t.number r s) s
    let torn := appliedTears s t
    let lost := targetTears s t entered
    let carries := anyCarries s (latchTears s (torn ++ lost))
    let s := torn.foldl (fun s p => tearApplied p.2 p.1 s) s
    let s := lost.foldl (fun s p => tornCause p.2 p.1 s) s
    let s := if carries then setTheLatch s else s
    let s := clearPending s
    let s := s.setEngine { s.engine with mute := false, muteTimer := none }
    let out := outcomeOf t
    let s := updTrans (fun t => { t with outcome := some out }) s
    let s := if out.1 = .clean then s.setLatch false else s
    let s := notify (.done (some t.number) t.origin out.1 out.2) s
    let s := opEnded .transition s
    let r := if t.origin = .step then ringOutcome t.number out.1 out.2 s else (s, .nothing)
    let s := (torn ++ lost).foldl (fun s p => ringTorn p.2 p.1 s) r.1
    (setMode .idle s, r.2)

/-! ### The phases (R94, R97, R101) -/

/-- The phase in progress looked at: BREAK goes on to MAKE or ends the transition, MAKE ends it (R97). -/
def phaseAdvance (s : State) : State × Ask :=
  match s.engine.trans with
  | none => (s, .nothing)
  | some t =>
    if !s.engine.active.isEmpty then (s, .nothing)
    else match s.engine.mode with
      | .breaking =>
        if !t.brkTodo.isEmpty then (s, .nothing)
        else if t.stop.isSome || !t.faultedElems.isEmpty then endTransition false s
        else if t.makTodo.isEmpty then endTransition true (setMode .making s)
        else (setMode .making s, .nothing)
      | .making => if t.makTodo.isEmpty then endTransition true s else (s, .nothing)
      | _ => (s, .nothing)

/-- The routes of A that are not in B leave the applied set; those of a DROP are torn PERMIT (R94). -/
def leaveOld (t : Trans) (s : State) : State :=
  (t.old.filter fun r => !t.target.contains r).foldl
    (fun s r => if t.origin = .drop then ringTorn .permit r (tearApplied .permit r s) else routeLeave r s) s

/-- BREAK begins (R94). -/
def startBreak (s : State) : State × Ask :=
  match s.engine.trans with
  | none => (s, .nothing)
  | some t =>
    let s := leaveOld t s
    phaseAdvance (s.setEngine { s.engine with mode := .breaking, muteTimer := none })

/-- A transition that has just passed CHECK goes on: BREAK at once, or MUTING until MUTE_ACK is seen (R91, R94). -/
def proceed (s : State) : State × Ask :=
  if s.engine.mode == .breaking || (s.engine.mode == .muting && s.muteAck) then startBreak s else (s, .nothing)

/-- A stop of a transition in BREAK or MAKE; a stop already taken stays (R101). -/
def stopTransition (c : Stop) (s : State) : State :=
  match s.engine.trans with
  | none => s
  | some t =>
    if t.stop.isSome then s
    else
      let s := updTrans (fun t => { t with stop := some c, brkTodo := [], makTodo := [] }) s
      if t.muteNeeded then setTheLatch s else s

/-- A stop of a transition in MUTING: nothing has moved and it ends at once (R100, R102). -/
def stopMuting (c : Stop) (s : State) : State × Ask :=
  endTransition false (updTrans (fun t => { t with stop := some (t.stop.getD c) }) s)

/-! ### Requests (R86, R103, R111) -/

/-- What became of a request: it waits in CHECK, was refused, or has passed CHECK. -/
inductive Taken where
  | waiting
  | refused (f : CheckFail)
  | accepted
  deriving DecidableEq, Repr

/-- The ahead-fault holder acted on at a STEP request (R111). -/
def promoteHolder (s : State) : State :=
  match s.engine.holder with
  | none => s
  | some a =>
    let s := updElem a.elem (fun x => { x with faulted := true }) s
    let s := s.setEngine { s.engine with holder := none }
    recordFault { plainFault .ahead with
      elem := some a.elem, commanded := some a.commanded, indicated := some a.indicated } s

/-- The checks of a request made, with the engine leaving CHECK (R86, R88, R111). -/
def decideRequest (q : Request) (s : State) : State × Taken :=
  let s := setMode .idle s
  let s := if q.origin = .step then promoteHolder s else s
  match checkSet s q with
  | some f => (s, .refused f)
  | none => (accept q s, .accepted)

/-- A request taken in IDLE or STAGING (R86). In STAGING staging is ended, and the request waits in CHECK for the
drives in progress. In another state the manual has no requester make one. -/
def takeRequest (q : Request) (s : State) : State × Taken :=
  match s.engine.mode with
  | .idle => decideRequest q s
  | .staging =>
    let s := s.setEngine { s.engine with staging := quitStaging s.engine.staging }
    if s.engine.active.isEmpty then decideRequest q (stagingOver s)
    else (setMode .check (s.setEngine { s.engine with waiting := some q }), .waiting)
  | _ => (s, .waiting)

/-- The reply of a GO that waited in CHECK, releasing the decoder (R86, R87). -/
def answerGo (r : Reply) (s : State) : State :=
  match s.link.hold with
  | some (.goWait plus) => answer plus r (s.setLink { s.link with hold := none })
  | _ => s

/-- A DROP request made now (R103): its target set is the applied set less its radiating routes, and the ring is told
of those it removes (R135). No request is made when none radiates. -/
def makeDrop (s : State) : State :=
  let gone := routesWhere s s.engine.applied fun r => r.radiates
  if gone.isEmpty then s
  else
    let keep := s.engine.applied.filter fun r => !gone.contains r
    let s := ringDropped gone s
    let r := takeRequest { origin := .drop, target := keep, plus := false } s
    match r.2 with
    | .accepted => (proceed r.1).1
    | _ => r.1

/-- A held DROP taken on entry to IDLE: discarded when the permit is present again (R103), also one held in SURVEY (the
model's choice, log entry 39). -/
def takeHeldDrop (s : State) : State :=
  if s.engine.dropHeld && s.engine.mode == .idle then
    let s := s.setEngine { s.engine with dropHeld := false }
    if permit s then s else makeDrop s
  else s

/-- A DROP called for (R103): made at once in IDLE and STAGING, held otherwise. -/
def callDrop (s : State) : State :=
  match s.engine.mode with
  | .idle => makeDrop s
  | .staging => makeDrop s
  | _ => s.setEngine { s.engine with dropHeld := true }

/-- The ring enters the step at its pointer (R123): a halt on an undefined step, or ENTERING and a STEP request. The
Boolean says that the request has just passed CHECK. -/
def beginEntry (s : State) : State × Bool :=
  match stepAt s s.ring.ptr with
  | none => (haltRing .undef .dash s, false)
  | some st =>
    let s := s.setRing { s.ring with
      state := .entering, visit := 1, pendingTrig := false, overrun := false, holdPending := false,
      dwellTimer := none, keptDwell := none }
    let r := takeRequest { origin := .step, target := st.group, plus := false } s
    match r.2 with
    | .accepted => (r.1, true)
    | .refused f => (ringRefused (haltOfCode f.1) f.2 r.1, false)
    | .waiting => (r.1, false)

/-- The rest of an entry: a transition that has just passed CHECK goes on. -/
def continueEntry (r : State × Bool) : State × Ask := if r.2 then proceed r.1 else (r.1, .nothing)

/-! ### Staging (R107) -/

/-- The positions the usable routes of a group require of element `e`: READY and APPLIED routes count (R107). -/
def stagedPositions (s : State) (group : List Nat) (e : Nat) : List Nat :=
  group.flatMap fun r => match routeAt s r with
    | some x =>
      if x.state == .ready || x.state == .applied then (x.hops.filter fun h => h.elem == e).map fun h => h.pos
      else []
    | none => []

/-- The position to which element `e` is staged, if it meets every condition of R107. -/
def stageElem (s : State) (group : List Nat) (e : Nat) (x : Elem) : Option Nat :=
  match stagedPositions s group e with
  | [] => none
  | k :: l =>
    if l.all (fun j => j == k) && !appliedClaims s e && elemUsable s x
        && (!x.guarded || s.net.released.contains e)
        && (x.pos == some (restOf x.kind) || x.pos == none) && x.pos != some k then some k else none

/-- A staging request for a group: taken in IDLE, discarded in any other state (R107). -/
def stageGroup (group : List Nat) (s : State) : State :=
  if s.engine.mode == .idle then
    let l := s.net.elems.filterMap fun p => (stageElem s group p.1 p.2).map fun k => (p.1, k)
    if l.isEmpty then s
    else s.setEngine { s.engine with
      mode := .staging, staging := { total := l.length, todo := l, cut := 0, discard := false } }
  else s

/-- The ring's staging request for the next step: none when that step is undefined or its group is empty (R127). -/
def stageNext (s : State) : State :=
  match stepAt s (nextStep s) with
  | none => s
  | some st => if st.group.isEmpty then s else stageGroup st.group s

/-! ### What follows the engine's entry into IDLE -/

/-- After an event: a held DROP is taken, then what the ring asks reaches the engine (R98 step 8, R124). An entry can
end at once with an empty plan and ask again; its pending-trigger mark is then clear, so two rounds suffice. -/
def followUp : Nat → State × Ask → State
  | 0, r => r.1
  | n + 1, (s, a) =>
    let s := takeHeldDrop s
    match a with
    | .nothing => s
    | .stage => stageNext s
    | .enter => followUp n (continueEntry (beginEntry s))

/-- The rounds `followUp` is given. -/
def rounds : Nat := 3

/-! ### Advance: what the end of a drive or sense leads to -/

/-- CHECK's wait is over: staging has ended, for a SYNC too only now (the model's choice, log entry 45), and the waiting
request's checks are made, its requester told (R86, R87, R100, R103). -/
def resolveCheck (s : State) : State × Ask :=
  let s := stagingOver s
  match s.engine.waiting with
  | none => (setMode .idle s, .nothing)
  | some q =>
    let s := s.setEngine { s.engine with waiting := none }
    let r := decideRequest q s
    match r.2 with
    | .refused f =>
      let s := opEnded .transition r.1
      match q.origin with
      | .command => (answerGo (erWith f.1 f.2) s, .nothing)
      | .step => (ringRefused (haltOfCode f.1) f.2 s, .nothing)
      | .drop => (s, .nothing)
    | _ => proceed (if q.origin = .command then answerGo (ok []) r.1 else r.1)

/-- The survey's list less the elements at its head that cannot be sensed: those on a card that has left ENABLED are
passed over (R112). -/
def passOver (s : State) : List Nat → List Nat
  | [] => []
  | e :: l =>
    match elemAt s e with
    | some x => if cardEnabled s x.card then e :: l else passOver s l
    | none => passOver s l

/-- The survey looked at: it ends when no sense is in progress and none is left (R112, R113). -/
def surveyAdvance (s : State) : State :=
  let v := s.engine.survey
  let todo := passOver s v.todo
  if v.current.isNone && todo.isEmpty then
    opEnded .survey (s.setEngine { s.engine with mode := .idle, survey := surveyReset })
  else s.setEngine { s.engine with survey := { v with todo := if v.current.isNone then todo else v.todo } }

/-- The engine's operation looked at after something of it has ended. -/
def advance (s : State) : State × Ask :=
  match s.engine.mode with
  | .breaking => phaseAdvance s
  | .making => phaseAdvance s
  | .staging =>
    if s.engine.active.isEmpty && s.engine.staging.todo.isEmpty then (setMode .idle (stagingOver s), .nothing)
    else (s, .nothing)
  | .check => if s.engine.active.isEmpty then resolveCheck s else (s, .nothing)
  | .survey => (surveyAdvance s, .nothing)
  | _ => (s, .nothing)

/-- `advance` with all that follows from it. -/
def advanceAll (s : State) : State := followUp rounds (advance s)

/-! ### HALT and the permit (R100, R102) -/

/-- The waiting request abandoned before its checks: `!DONE - origin HALTED cause`, its requester told (R100, R102). That
`ER PERMIT` to a GO (R87) is formed here, at the loss, and not once the staging drives have ended is the model's choice
(log entry 40). -/
def abandonWaiting (c : EndCause) (s : State) : State :=
  match s.engine.waiting with
  | none => s
  | some q =>
    let s := s.setEngine { s.engine with waiting := none }
    let s := notify (.done none q.origin .halted (some c)) s
    let s := opEnded .transition s
    match q.origin with
    | .command => answerGo (er .permit) s
    | .step => ringRefused (haltOfEnd (some c)) .dash s
    | .drop => s

/-- HALT's effect in each engine state (R100). -/
def haltEngine (s : State) : State :=
  match s.engine.mode with
  | .idle => s
  | .check => advanceAll (abandonWaiting .halt s)
  | .muting => followUp rounds (stopMuting .halt s)
  | .breaking => advanceAll (stopTransition .halt s)
  | .making => advanceAll (stopTransition .halt s)
  | .staging => endStaging false s
  | .survey => advanceAll (s.setEngine { s.engine with survey := { s.engine.survey with todo := [] } })

/-- The transition record's routes radiated (R102). -/
def transRadiates (s : State) : Bool :=
  match s.engine.trans with
  | some t => t.radiating
  | none => false

/-- The engine is told that the permit is lost (R102, R103, R177). That a DROP called for in SURVEY is held as the flag
is the model's choice, for R103 states the flag for a transition in flight and a CHECK wait only (log entry 39). -/
def permitLost (s : State) : State :=
  let exposed := anyRadiates s s.engine.applied
  let s := if exposed && s.engine.mode != .idle && s.engine.mode != .staging then
      s.setEngine { s.engine with dropHeld := true } else s
  match s.engine.mode with
  | .idle => if exposed then callDrop s else s
  | .staging => if exposed then callDrop s else s
  | .check =>
    let waits := match s.engine.waiting with | some q => anyRadiates s q.target | none => false
    if exposed || waits then advanceAll (abandonWaiting .permit s) else s
  | .muting => if transRadiates s then followUp rounds (stopMuting .permit s) else s
  | .breaking => if transRadiates s then advanceAll (stopTransition .permit s) else s
  | .making => if transRadiates s then advanceAll (stopTransition .permit s) else s
  | .survey =>
    if exposed then advanceAll (s.setEngine { s.engine with survey := { s.engine.survey with todo := [] } }) else s

/-! ### Tears at once (R106) -/

/-- A route torn with no transition in flight leaves the applied set, and the target set of a DROP that waits in CHECK
(R103, R106). -/
def tearAtOnce (c : TearCause) (r : Nat) (s : State) : State :=
  let s := tearApplied c r s
  let s := match s.engine.waiting with
    | some q =>
      if q.origin = .drop then
        s.setEngine { s.engine with waiting := some { q with target := q.target.filter fun x => x != r } }
      else s
    | none => s
  ringTorn c r s

/-- The applied routes `l` torn at once with cause `c`; the latch is set when one carries source (R106). -/
def tearAll (c : TearCause) (l : List Nat) (s : State) : State :=
  let s := if anyCarries s l then setTheLatch s else s
  l.foldl (fun s r => tearAtOnce c r s) s

/-! ### A card or fixture that leaves use (R104, R105, R106) -/

/-- The known position of an element whose card leaves ENABLED (R104). -/
def positionOff (moving : Bool) (x : Elem) : Option Nat :=
  match x.kind with
  | .failsafe => some 1
  | .solid => some 0
  | .latch => if moving then none else x.pos

/-- The positions of card `n`'s elements set, their drives and senses ended, their waiting drives removed (R104,
R105, R108). -/
def dropCardDrives (n : Nat) (s : State) : State :=
  let on := elemsOnCard s n
  let moving := s.engine.active.map fun d => d.elem
  let s := s.setNet { s.net with
    elems := tmap (fun e x => if x.card = n then { x with pos := positionOff (moving.contains e) x } else x)
      s.net.elems }
  let g := s.engine
  let s := s.setEngine { g with
    active := g.active.filter fun d => !on.contains d.elem
    due := g.due.filter fun e => !on.contains e
    staging := { g.staging with todo := g.staging.todo.filter fun p => !on.contains p.1 }
    survey := { g.survey with
      current := match g.survey.current with
        | some e => if on.contains e then none else some e
        | none => none } }
  if inFlight s then
    updTrans (fun t => { t with
      brkTodo := t.brkTodo.filter fun e => !on.contains e
      makTodo := t.makTodo.filter fun p => !on.contains p.1 }) s
  else s

/-- A card leaving ENABLED noted in the transition in flight (R99, R105). -/
def noteCard (on : List Nat) (t : Trans) : Trans :=
  let t' := { t with notedElems := t.notedElems ++ on }
  if on.any (fun e => t.brk.contains e || (t.mak.any fun p => p.1 == e) || t.claimed.contains e) then
    noteFirst .card t'
  else t'

/-- The engine is told that card `n` has left ENABLED (R104, R105, R106, R153). -/
def cardLeft (n : Nat) (s : State) : State :=
  let on := elemsOnCard s n
  let s := dropCardDrives n s
  let s := if inFlight s then updTrans (noteCard on) s
    else tearAll .card (routesWhere s s.engine.applied fun r => claimsAny r on) s
  advanceAll s

/-- A fixture leaving ADMITTED noted in the transition in flight (R99, R105). -/
def noteFixture (n : Nat) (t : Trans) : Trans :=
  let t' := { t with notedFixtures := t.notedFixtures ++ [n] }
  if t.fixtures.contains n then noteFirst .fixture t' else t'

/-- The engine is told that fixture `n` has left ADMITTED (R105, R106, R158). -/
def fixtureLeft (n : Nat) (s : State) : State :=
  if inFlight s then updTrans (noteFixture n) s
  else tearAll .fixture (routesWhere s s.engine.applied fun r => endsOnFixture s r n) s

end Sys2Proof.Machine
end

