-- ==== Sys2Proof/Machine/CardBus.lean ====
section
/-! DEFINITION. The card bus (chapter 7) and what the engine puts on it (R94 to R96, R112): who gets the bus, drives and
senses issued and answered, restarts, poll rounds and discovery. -/

namespace Sys2Proof.Machine

/-- The bus carrying transaction `t`, or none. -/
def setTx (t : Option BusTx) (s : State) : State := s.setBus { s.bus with tx := t }

/-- The coil pulses in progress on card `n` changed (R145). -/
def setPulses (n : Nat) (f : Nat → Nat) (s : State) : State :=
  let c := cardAt s n
  setCard n { c with pulses := f c.pulses } s

/-- The drive's coil pulse is in progress (R95, R145). -/
def pulsing (d : Drive) : Bool := match d.stage with | .pulsing _ => true | _ => false

/-- The drive of element `e` that has been issued and has not ended. -/
def driveOf (s : State) (e : Nat) : Option Drive := s.engine.active.find? fun d => d.elem == e

/-- The drive of element `e` at another stage (R95, R96). -/
def setStage (e : Nat) (g : DriveStage) (s : State) : State :=
  s.setEngine { s.engine with
    active := s.engine.active.map fun d => if d.elem = e then { d with stage := g } else d }

/-! ### Issue (R94, R95, R112) -/

/-- A DRIVE issued to element `e`: the bus taken for its card and slot, the position UNKNOWN, the throw counted, and the
pulse of an EM element or the settle of a SOLID one begun (R25, R95). -/
def issueDrive (e target : Nat) (x : Elem) (s : State) : State :=
  let s := setTx (some (.drive x.card x.slot e target x.pulse)) s
  let s := setElem e { x with pos := none } s
  let stage := if isEm x.kind then .pulsing (x.pulse.getD 0) else .settling x.settle
  let d : Drive := { elem := e, target := target, settle := x.settle, stage := stage }
  let s := s.setEngine { s.engine with active := s.engine.active ++ [d] }
  let s := if isEm x.kind then setPulses x.card (fun p => p + 1) s else s
  let s := if isEm x.kind && inFlight s then updTrans (fun t => { t with lastEm := some e }) s else s
  countDrive e s

/-- A drive to `e` may be issued now: SOLID always, EM while its card has fewer than 2 pulses (R94, R145). -/
def mayIssue (s : State) (e : Nat) : Bool :=
  match elemAt s e with
  | some x => !isEm x.kind || decide ((cardAt s x.card).pulses < Config.driveBudget)
  | none => false

/-- The drives of the phase not yet issued, with their targets, in list order (R94, R108). -/
def waitingDrives (s : State) : List (Nat × Nat) :=
  match s.engine.mode, s.engine.trans with
  | .breaking, some t => t.brkTodo.map fun e => (e, match elemAt s e with | some x => restOf x.kind | none => 0)
  | .making, some t => t.makTodo
  | .staging, _ => s.engine.staging.todo
  | _, _ => []

/-- Element `e` taken off the list its drive waited in. -/
def takeWaiting (e : Nat) (s : State) : State :=
  match s.engine.mode with
  | .breaking => updTrans (fun t => { t with brkTodo := t.brkTodo.erase e }) s
  | .making => updTrans (fun t => { t with makTodo := t.makTodo.filter fun p => p.1 != e }) s
  | .staging => s.setEngine { s.engine with
      staging := { s.engine.staging with todo := s.engine.staging.todo.filter fun p => p.1 != e } }
  | _ => s

/-- A due SENSE issued to its element's card and slot (R25, R94, R96). -/
def issueSense (e : Nat) (l : List Nat) (s : State) : State :=
  let s := s.setEngine { s.engine with due := l }
  match elemAt s e, driveOf s e with
  | some x, some d =>
    let retry := match d.stage with | .senseDue r => r | _ => false
    setTx (some (.sense x.card x.slot e false)) (setStage e (.sensing retry) s)
  | _, _ => s

/-- A survey SENSE issued to its element's card and slot (R25, R112). -/
def issueSurveySense (e : Nat) (l : List Nat) (x : Elem) (s : State) : State :=
  setTx (some (.sense x.card x.slot e true))
    (s.setEngine { s.engine with survey := { s.engine.survey with todo := l, current := some e } })

/-- The engine's next transaction issued, if it has one (R94, R112): a due SENSE first, then the first waiting drive
that may be issued, or the survey's next sense. -/
def engineIssues (s : State) : Option State :=
  match s.engine.due with
  | e :: l => some (issueSense e l s)
  | [] =>
    match (waitingDrives s).find? fun p => mayIssue s p.1 with
    | some (e, target) => (elemAt s e).map fun x => issueDrive e target x (takeWaiting e s)
    | none =>
      if s.engine.mode == .survey && s.engine.survey.current.isNone then
        match s.engine.survey.todo with
        | e :: l => (elemAt s e).map fun x => issueSurveySense e l x s
        | [] => none
      else none

/-! ### Restarts and polls (R144, R146, R147, R149) -/

/-- The lowest card whose restart waits for the bus (R144). -/
def restartWants (s : State) : Option Nat :=
  (List.range Config.cards).find? fun n =>
    (cardAt s n).restart == some .wantRestart || (cardAt s n).restart == some .wantPoll

/-- The restart of card `n` given the bus: its RESTART, or its POLL (R147). -/
def restartIssues (n : Nat) (s : State) : State :=
  let c := cardAt s n
  if c.restart = some .wantRestart then
    setTx (some (.restart n)) (setCard n { c with restart := some .restartSent } s)
  else setTx (some (.pollRestart n)) (setCard n { c with restart := some .pollSent } s)

/-- The first card from `k` on, of the next `fuel`, that is not RESTARTING (R149). -/
def notRestarting (s : State) : Nat → Nat → Option Nat
  | 0, _ => none
  | fuel + 1, k => if (cardAt s k).state = .restarting then notRestarting s fuel (k + 1) else some k

/-- The poll round at card `k`: RESTARTING cards are passed over, and past C11 the round ends and the poll timer is
started for the working POLL_GAP (R149). That a card's turn comes when the POLL before it has ended is the model's
choice (log entry 42), and so is that a round with no POLL left to send ends at the moment it passes over its last card,
also at the timer's expiry and at a grant of the bus (log entry 46). -/
def roundAt (k : Nat) (s : State) : State :=
  match notRestarting s (Config.cards - k) k with
  | some j => s.setBus { s.bus with round := some j }
  | none => s.setBus { s.bus with round := none, pollTimer := some s.site.pollGap }

/-- The poll round given the bus, after passing over cards that are RESTARTING now; with none left it ends here (R149; log
entries 42 and 46). -/
def roundIssues (k : Nat) (s : State) : State :=
  let s := roundAt k s
  match s.bus.round with
  | some j => setTx (some (.pollRound j)) s
  | none => s

/-- The bus handed on when it is free: the engine, restarts by card number, then the poll round or discovery (R144). -/
def grantBus (s : State) : State :=
  if s.bus.tx.isSome || s.phase == .inReset then s
  else match engineIssues s with
    | some s' => s'
    | none => match restartWants s with
      | some n => restartIssues n s
      | none => match s.bus.discovery, s.bus.round with
        | some k, _ => setTx (some (.pollDiscovery k)) s
        | none, some k => roundIssues k s
        | none, none => s

/-! ### The link's own progress (R7, R9) -/

/-- `!LOST` queued while lost-pending is set and the notice queue has a free place (R9). -/
def queueLost (s : State) : State :=
  if s.link.lost && decide (s.link.notices.length < Config.noticeQueue) then
    s.setLink { s.link with notices := s.link.notices ++ [.lost], lost := false }
  else s

/-- The transmitter starts the next line when it is free: owed notices, then the reply, then notices (R9). It sends
nothing before `!BOOT` is placed (R21). -/
def startLine (s : State) : State :=
  let k := s.link
  if s.phase == .running && k.tx == .idle then
    match k.owed, k.slot, k.notices with
    | 0, some _, _ => s.setLink { k with tx := .reply }
    | _, _, n :: l => s.setLink { k with tx := .notice n, notices := l, owed := k.owed - 1 }
    | _, some _, [] => s.setLink { k with tx := .reply, owed := 0 }
    | _, none, [] => s.setLink { k with owed := 0 }
  else s

/-- A SYNC that waits for nothing more is answered (R7). -/
def releaseSync (s : State) : State :=
  match s.link.hold with
  | some (.sync plus []) => answer plus (ok []) (s.setLink { s.link with hold := none })
  | _ => s

/-- What comes about at once after every event: the bus handed on, a SYNC released, and the next line started. -/
def settle (s : State) : State := queueLost (startLine (queueLost (releaseSync (grantBus s))))

/-- An event's outcome: stopped when its operands name nothing the part has, or the state after `f` and all that
follows at once. -/
def event (i : Instr) (f : State → State) (s : State) : Host.Outcome State Fault Refusal :=
  match eventCheck i with
  | some x => .fault x
  | none => .next (settle (f s))

/-! ### Answers: drives and senses (R95, R96, R109, R112) -/

/-- The drive of element `e` has ended (R95, R96). -/
def dropDrive (e : Nat) (s : State) : State :=
  s.setEngine { s.engine with active := s.engine.active.filter fun d => d.elem != e }

/-- A drive in progress belongs to staging: the engine is STAGING, or in CHECK's wait for it (R86, R108). -/
def stagingDrive (s : State) : Bool := s.engine.mode == .staging || s.engine.mode == .check

/-- A drive that ended at its target: the known position is the driven position (R95, R96). -/
def driveReached (d : Drive) (s : State) : State :=
  dropDrive d.elem (updElem d.elem (fun x => { x with pos := some d.target }) s)

/-- A readback failure in a transition (R96). -/
def readbackFailed (d : Drive) (got : Option Nat) (s : State) : State :=
  let s := updElem d.elem (fun x => { x with pos := got, faulted := true }) s
  let claims := match s.engine.trans with
    | some t => sortNat (routesWhere s t.target fun r => claimsElem r d.elem)
    | none => []
  let s := recordFault { plainFault .readback with
    elem := some d.elem, commanded := some d.target, indicated := some got, number := flightNumber s,
    torn := claims } s
  let s := updTrans (fun t => noteFirst .readback { t with faultedElems := t.faultedElems ++ [d.elem] }) s
  let mute := match s.engine.trans with | some t => t.muteNeeded | none => false
  let s := if mute then setTheLatch s else s
  dropDrive d.elem s

/-- A readback failure of a staging drive: held, not recorded (R109). -/
def stagingFailed (d : Drive) (got : Option Nat) (s : State) : State :=
  let s := updElem d.elem (fun x => { x with pos := none }) s
  let s := if s.engine.staging.discard then s
    else s.setEngine { s.engine with
      holder := some { elem := d.elem, commanded := d.target, indicated := got } }
  dropDrive d.elem s

/-- The result of a readback sense (R96). -/
def readback (d : Drive) (retry : Bool) (got : Option Nat) (s : State) : State :=
  if got = some d.target then
    let s := driveReached d s
    advanceAll (if retry then lateEvent d.elem s else s)
  else if !retry && decide (s.site.retryDelay > 0) then setStage d.elem (.retryWait s.site.retryDelay) s
  else advanceAll (if stagingDrive s then stagingFailed d got s else readbackFailed d got s)

/-- The result of a survey sense (R112). -/
def surveyed (e : Nat) (got : Option Nat) (s : State) : State :=
  let s := match got with
    | some k => updElem e (fun x => { x with pos := some k }) s
    | none =>
      recordFault { plainFault .readback with elem := some e, indicated := some none }
        (updElem e (fun x => { x with pos := none, faulted := true }) s)
  let v := s.engine.survey
  advanceAll (s.setEngine { s.engine with survey := { v with current := none, returned := v.returned + 1 } })

/-- A position above the element's n is taken as indeterminate (R96, R112). -/
def bounded (x : Elem) (got : Option Nat) : Option Nat :=
  match got with
  | some k => if k ≤ x.n then some k else none
  | none => none

/-! ### Card states (R147, R150 to R153) -/

/-- A card's change of state with its flag and `!CARD`; discovery sets no flag and sends no notice (R146, R152). -/
def changeCard (n : Nat) (new : CardState) (s : State) : State :=
  let c := cardAt s n
  if c.state = new then s
  else if s.phase == .discovery then setCard n { c with state := new } s
  else
    let presence := c.state == .absent || new == .absent
    notify (.card n new) (setCard n { c with
      state := new, presenceChg := c.presenceChg || presence, stateChg := c.stateChg || !presence } s)

/-- Card `n` leaves ENABLED: its pulses are 0 and the engine is told (R145, R153). -/
def leaveEnabled (n : Nat) (s : State) : State := cardLeft n (setPulses n (fun _ => 0) s)

/-- The fault of a card that leaves use (R151, R185). -/
def cardFault (c : FaultCause) (n : Nat) (s : State) : State :=
  recordFault { plainFault c with
    number := flightNumber s,
    torn := routesWhere s s.engine.applied fun r => claimsAny r (elemsOnCard s n) } s

/-- An ENABLED card disabled on its coil supply (R151). -/
def disableCard (n : Nat) (s : State) : State :=
  let s := setCard n { cardAt s n with coilFault := true } s
  leaveEnabled n (cardFault .cardOc n (changeCard n .disabled s))

/-- An ENABLED card lost (R143, R151). -/
def loseCard (n : Nat) (s : State) : State := leaveEnabled n (cardFault .cardLost n (changeCard n .absent s))

/-- The class of a POLL answer (R142). -/
def pollClass (supplyGood overcurrent : Bool) : PollResult :=
  if overcurrent then .oc else if supplyGood then .good else .bad

/-- The last poll field written (R142, R150). -/
def setLast (n : Nat) (p : PollResult) (s : State) : State := setCard n { cardAt s n with last := some p } s

/-- A restart sequence of card `n` begun (R147 step 1). -/
def beginRestart (n : Nat) (s : State) : State :=
  let was := cardEnabled s n
  let s := changeCard n .restarting s
  let s := setCard n { cardAt s n with restart := some .wantRestart } s
  if was then leaveEnabled n s else s

/-- A restart sequence of card `n` ended in state `new` (R147 step 5). -/
def endRestart (n : Nat) (new : CardState) (s : State) : State :=
  let s := changeCard n new s
  opEnded (.restart n) (setCard n { cardAt s n with restart := none } s)

/-- A restart's POLL judged (R147 step 5). -/
def restartPolled (n : Nat) (p : PollResult) (s : State) : State :=
  let s := setLast n p s
  match p with
  | .good => endRestart n .enabled (setCard n { cardAt s n with coilFault := false } s)
  | .silent => endRestart n .absent s
  | _ => endRestart n .disabled (setCard n { cardAt s n with coilFault := true } s)

/-- A poll round's POLL of card `n` judged by the card's state (R150), before the round goes on. -/
def roundPolled (n : Nat) (p : PollResult) (s : State) : State :=
  let s := setLast n p s
  match (cardAt s n).state, p with
  | .absent, .silent => s
  | .absent, _ => changeCard n .disabled s
  | .disabled, .silent => changeCard n .absent s
  | .disabled, _ => s
  | .enabled, .good => s
  | .enabled, .silent => loseCard n s
  | .enabled, _ => disableCard n s
  | .restarting, _ => s

/-- Discovery's next card, or its last POLL done (R146). -/
def discoveryAfter (n : Nat) (s : State) : State :=
  s.setBus { s.bus with discovery := if n + 1 < Config.cards then some (n + 1) else none }

/-- A POLL of a poll round or of discovery answered, or unanswered, with class `p` (R146, R149, R150). -/
def pollDone (p : PollResult) (s : State) : State :=
  match s.bus.tx with
  | some (.pollRound n) => roundAt (n + 1) (roundPolled n p (setTx none s))
  | some (.pollDiscovery n) =>
    let s := setLast n p (setTx none s)
    discoveryAfter n (if p = .silent then s else beginRestart n s)
  | _ => s

/-- The transaction on the bus gets no answer: a card loss judged by its card's state (R143). -/
def noAnswer (s : State) : State :=
  match s.bus.tx with
  | some (.drive n _ _ _ _) => (fun s => if cardEnabled s n then loseCard n s else s) (setTx none s)
  | some (.sense n _ _ _) => (fun s => if cardEnabled s n then loseCard n s else s) (setTx none s)
  | some (.restart n) => endRestart n .absent (setTx none s)
  | some (.pollRestart n) => restartPolled n .silent (setTx none s)
  | some (.pollRound _) => pollDone .silent s
  | some (.pollDiscovery _) => pollDone .silent s
  | none => s

end Sys2Proof.Machine
end

