-- ==== Sys2Proof/Machine/Link.lean ====
section
/-! DEFINITION. The Command Port (chapter 1): the taking of lines, the transmitter, the notice mask, the site settings,
the store, and reset and start-up. One `exec…` per row of the opcode table. -/

namespace Sys2Proof.Machine

/-- The outcome of every meaning. -/
abbrev Result := Host.Outcome State Fault Refusal

/-! ### Taking a line (R2, R3, R9) -/

/-- The decoder can take a line: it has started (R21), nothing holds it (R5, R7, R86), and its last reply stands in
the reply slot (R9). -/
def canTake (s : State) : Bool := s.phase == .running && s.link.hold.isNone && s.link.held.isNone

/-- The state with the line of command `i` taken: the line at the head of the line queue, when it decodes to `i`, or,
with the queue empty, a line that is taken as it arrives (log entry 6). None when the decoder takes no such line. -/
def lineFor (i : Instr) (s : State) : Option State :=
  if !canTake s then none
  else match s.link.lines with
    | [] => some s
    | l :: rest => if decodeLine l = .command i then some (s.setLink { s.link with lines := rest }) else none

/-- A command: its line is taken, the decoder's checks of count and range are made, and the owner's effect and reply
`f` follow (R3, R4). A command that no line of 200 characters can spell is the long line of R1, answered as one (R49;
log entries 6 and 12). Nothing happens when the decoder takes no such line (log entry 7). -/
def command (i : Instr) (plus : Bool) (f : State → State) (s : State) : Result :=
  match lineFor i s with
  | none => .next s
  | some t => .next (settle (
      if fitsLine i then
        match operandCheck i with
        | some e => answer plus (er e) t
        | none => f t
      else answer false (erWith .syntaxErr (.word "LONG")) t))

/-! ### Reset and start-up (R20, R21) -/

/-- The fixture records at a reset: as R156 gives, their inputs as they stand. -/
def fixturesReset (t : Table Fixture) : Table Fixture :=
  t.foldl (fun acc p => bput fixtureReset acc p.1 { fixtureReset with fpres := p.2.fpres, fflt := p.2.fflt }) []

/-- The loop records at a reset: as R173 gives, their inputs as they stand. -/
def loopsReset (t : Table Loop) : Table Loop :=
  t.foldl (fun acc p => bput loopReset acc p.1 { loopReset with input := p.2.input }) []

/-- Every block's volatile state cleared (R21 stage 2). -/
def clearVolatile (s : State) : State :=
  let s := (s.setLink linkReset).setNet netReset
  let s := (s.setRoutes []).setEngine engineReset
  let s := (s.setRing ringReset).setBus busReset
  let s := (s.setCards []).setFixtures (fixturesReset s.fixtures)
  let s := (s.setLoops (loopsReset s.loops)).setLatch false
  s.setRecords { recordsReset with wear := s.records.wear }

/-- A reset begins (R20): a store write is abandoned, every operation with it, and the outputs stand as R20 gives. -/
def beginReset (c : ResetCause) (s : State) : State :=
  ((clearVolatile (abandonWrite s)).setPhase .inReset).setCause c

/-- The contents of a record, when it is valid (R14). -/
def validOf {α : Type} : Stored α → Option α
  | .valid a => some a
  | _ => none

/-- 1 for a failed record (R14, R21). -/
def failedOne {α : Type} : Stored α → Nat
  | .failed => 1
  | _ => 0

/-- The curve images formed from the records (R44). -/
def imagesOf (t : Table (Stored Curve)) : Table Curve :=
  t.filterMap fun p => (validOf p.2).map fun c => (p.1, c)

/-- The wear table formed from its bases (R190). -/
def wearOf (t : WearCounts) : Table Wear :=
  t.foldl (fun acc p => bput wearZero acc p.1 { wearZero with count := p.2 }) []

/-- The store load (R21 stage 1, R44, R190). -/
def storeLoad (s : State) : State :=
  let v := (validOf s.store.settings).getD siteDefault
  let s := ((s.setSite v).setRate v.linkRate).setLock (v.siteLock == 1)
  let s := s.setImages (imagesOf s.store.curves)
  let s := s.setFailed (failedOne s.store.settings + (s.store.curves.map fun p => failedOne p.2).sum
    + failedOne s.store.wear)
  s.setRecords { s.records with wear := wearOf ((validOf s.store.wear).getD []) }

/-- Presence and loop filtering start: an input away from the filtered level is counted from now (R156, R173). -/
def startFilters (s : State) : State :=
  (s.setFixtures (tmap (fun _ f => { f with counting := f.fpres }) s.fixtures)).setLoops
    (tmap (fun _ l => { l with counting := l.input }) s.loops)

/-- Stages 1 and 2 of start-up, and discovery's first POLL called for (R21, R146). -/
def startUp (s : State) : State :=
  let s := (startFilters (clearVolatile (storeLoad s))).setPhase .discovery
  s.setBus { s.bus with discovery := some 0 }

/-- Discovery is over: every card polled, none RESTARTING (R146). -/
def discoveryDone (s : State) : Bool :=
  s.phase == .discovery && s.bus.discovery.isNone && s.bus.tx.isNone
    && (s.cards.all fun p => p.2.state != .restarting)

/-- `!BOOT` at the head of the notice queue, the notice at its tail discarded when it is full (R21 stage 4). -/
def placeBoot (s : State) : State :=
  let boot := Notice.boot s.cause s.failed
  if s.link.notices.length < Config.noticeQueue then
    s.setLink { s.link with notices := boot :: s.link.notices }
  else s.setLink { s.link with notices := boot :: s.link.notices.dropLast, lost := true }

/-- Stages 4 and 5 of start-up (R21), with the poll timer of the first round (R149). -/
def endDiscovery (s : State) : State :=
  if discoveryDone s then
    let s := (placeBoot s).setPhase .running
    s.setBus { s.bus with pollTimer := some s.site.pollGap }
  else s

/-- POWER_ON (R20). -/
def execPowerOn (s : State) : Result := event .powerOn (beginReset .power) s

/-- RESET_N_ASSERTED (R20). -/
def execResetNAsserted (s : State) : Result := event .resetNAsserted (beginReset .line) s

/-- RESET (R20): answered OK; the reset begins when the reply has left. -/
def execReset (plus : Bool) (s : State) : Result :=
  command (.reset plus) plus (fun s => placeReply
    { reply := { ok [] with suffix := if plus then some (statusSummary s) else none }, thenReset := true } s) s

/-- RESET_END (R21). -/
def execResetEnd (s : State) : Result :=
  event .resetEnd (fun s => if s.phase = .inReset then startUp s else s) s

/-- DISCOVERY_END (R21, R146). -/
def execDiscoveryEnd (s : State) : Result := event .discoveryEnd endDiscovery s

/-! ### Lines in (R1, R2) -/

/-- A CR immediately before the LF is dropped (R1). -/
def dropCr (l : List Byte) : List Byte := if l.getLast? = some 13 then l.dropLast else l

/-- The line holds no characters, or only spaces and tabs (R1). -/
def blankLine (l : List Byte) : Bool := l.all fun b => b == 32 || b == 9

/-- What a completed line puts into the line queue, none when it is ignored (R1). -/
def assembled (chars : List Byte) (framingError : Bool) : Option Line :=
  let l := dropCr chars
  if l.length > Config.lineLength then some .long
  else if framingError then some .damaged
  else if blankLine l then none
  else some (.text l)

/-- A completed line queued, or discarded with lost-pending set when 8 wait (R2). -/
def queueLine (l : Line) (s : State) : State :=
  if s.link.lines.length < Config.lineQueue then s.setLink { s.link with lines := s.link.lines ++ [l] }
  else s.setLink { s.link with lost := true }

/-- LINE_RECEIVED (R1, R2). -/
def execLineReceived (chars : List Byte) (framingError : Bool) (s : State) : Result :=
  event (.lineReceived chars framingError) (fun s =>
    if s.phase = .inReset then s
    else match assembled chars framingError with
      | some l => queueLine l s
      | none => s) s

/-- SYNTAX_REFUSAL (R3): the line at the head of the queue fails the decoder's checks and is answered. -/
def execSyntaxRefusal (s : State) : Result :=
  event .syntaxRefusal (fun s =>
    if canTake s then
      match s.link.lines with
      | [] => s
      | l :: rest => match decodeLine l with
        | .command _ => s
        | .refused plus c d =>
          answer plus { er c with fields := d.toList.map fun w => .bare (.word w) }
            (s.setLink { s.link with lines := rest })
    else s) s

/-! ### Lines out (R9, R11) -/

/-- The last character of the line in transmission has left (R9). After the reply to RESET a reset begins (R20). The
notices that wait now go before the reply that was held, also a `!PERM` before the reply of its CONFIRM: R9 is followed
here, not R176 (the model's choice, log entry 47). -/
def lineLeft (s : State) : State :=
  match s.link.tx with
  | .idle => s
  | .notice _ => s.setLink { s.link with tx := .idle }
  | .reply =>
    let resets := match s.link.slot with | some o => o.thenReset | none => false
    if resets then beginReset .command s
    else s.setLink { s.link with
      tx := .idle, slot := s.link.held, held := none, owed := s.link.notices.length }

/-- LINE_SENT (R9). -/
def execLineSent (s : State) : Result := event .lineSent lineLeft s

/-- The gap timer runs out (R11). -/
def gapExpires (s : State) : State :=
  let g := s.link.gap
  match g.timer with
  | none => s
  | some _ =>
    if g.count = 0 then s.setLink { s.link with gap := { g with timer := none } }
    else
      let s := enqueue (.step g.index g.pass g.count) s
      s.setLink { s.link with
        gap := { g with count := 0, timer := if s.site.noteGap > 0 then some s.site.noteGap else none } }

/-- NOTE_GAP_EXPIRY (R11). -/
def execNoteGapExpiry (s : State) : Result := event .noteGapExpiry gapExpires s

/-! ### NOTE, STAT, SYNC (R7, R10, R12) -/

/-- The enabled kinds with `sel` enabled or masked; BOOT and LOST are never masked (R9, R10). -/
def maskSet (sel : NoteSel) (on : Bool) (enabled : List NoticeKind) : List NoticeKind :=
  allKinds.filter fun k =>
    if k == .boot || k == .lost then true
    else match sel with
      | .all => on
      | .kind j => if k = j then on else enabled.contains k

/-- NOTE (R10). -/
def execNote (plus : Bool) (change : Option (NoteSel × Nat)) (s : State) : Result :=
  command (.note plus change) plus (fun s => match change with
    | none => answer plus (ok (s.link.enabled.map fun k => .bare (.word (noticeName k)))) s
    | some (sel, v) =>
      answer plus (ok []) (s.setLink { s.link with enabled := maskSet sel (v == 1) s.link.enabled })) s

/-- Some card has a change flag set (R12). -/
def cardChanged (s : State) : Bool := s.cards.any fun p => p.2.presenceChg || p.2.stateChg

/-- Some fixture has a change flag set (R12). -/
def fixtureChanged (s : State) : Bool := s.fixtures.any fun p => p.2.presenceChg || p.2.stateChg

/-- The fields of STAT (R12). -/
def statFields (s : State) : List Field :=
  [.keyed "RING" (.word (ringName s.ring.state)), .keyed "STEP" (vnum s.ring.ptr),
   .keyed "VISIT" (vnum s.ring.visit), .keyed "PASS" (vnum s.ring.pass),
   .keyed "ENGINE" (.word (modeName s.engine.mode)), .keyed "TN" (vnum s.engine.number),
   .keyed "APPLIED" (vnum s.engine.applied.length), .keyed "PERMIT" (bit (permit s)),
   .keyed "MUTE" (bit (muteReq s)), .keyed "FAULT" (bit s.records.fault.isSome),
   .keyed "CARDCHG" (bit (cardChanged s)), .keyed "FIXCHG" (bit (fixtureChanged s))]

/-- STAT (R12). -/
def execStat (plus : Bool) (s : State) : Result :=
  command (.stat plus) plus (fun s => answer plus (ok (statFields s)) s) s

/-- The operations in flight (R7). In the engine's CHECK the staging drives and the waiting request both are: that staging
cut short is in flight until its last drive in progress has ended is the model's choice (log entry 45). -/
def opsInFlight (s : State) : List Op :=
  (if inFlight s || s.engine.waiting.isSome then [.transition] else [])
  ++ (if s.engine.mode == .staging || s.engine.mode == .check then [.staging] else [])
  ++ (if s.engine.mode == .survey then [.survey] else [])
  ++ (tkeys (fun _ c => c.restart.isSome) s.cards).map .restart
  ++ (tkeys (fun _ f => f.state == .admitting) s.fixtures).map .admission

/-- SYNC (R7): the decoder is held until the operations in flight have ended. -/
def execSync (plus : Bool) (s : State) : Result :=
  command (.sync plus) plus (fun s => s.setLink { s.link with hold := some (.sync plus (opsInFlight s)) }) s

/-! ### Site settings (R16, R17) -/

/-- The value of a setting as the link writes it (R16). -/
def settingRead (v : Site) : Setting → Val
  | .linkRate => vnum v.linkRate | .cbRate => vnum v.cbRate | .pollGap => vnum v.pollGap
  | .muteWait => vnum v.muteWait | .retryDelay => vnum v.retryDelay | .lateLimit => vnum v.lateLimit
  | .noteGap => vnum v.noteGap | .admitWait => vnum v.admitWait | .balLimit => vnum v.balLimit
  | .topoOneway => vnum v.topoOneway | .protOn => vnum v.protOn | .protEdge => vnum v.protEdge
  | .protDir => .word (match v.protDir with | .low => "LOW" | .high => "HIGH")
  | .siteLock => vnum v.siteLock

/-- A numeric setting written (R16). -/
def settingNum (n : Nat) (v : Site) : Setting → Site
  | .linkRate => { v with linkRate := n } | .cbRate => { v with cbRate := n }
  | .pollGap => { v with pollGap := n } | .muteWait => { v with muteWait := n }
  | .retryDelay => { v with retryDelay := n } | .lateLimit => { v with lateLimit := n }
  | .noteGap => { v with noteGap := n } | .admitWait => { v with admitWait := n }
  | .balLimit => { v with balLimit := n } | .topoOneway => { v with topoOneway := n }
  | .protOn => { v with protOn := n } | .protEdge => { v with protEdge := n }
  | .protDir => v | .siteLock => { v with siteLock := n }

/-- A setting written (R16). -/
def settingWrite (name : Setting) (x : SettingValue) (v : Site) : Site :=
  match x with
  | .num n => settingNum n v name
  | .dir d => { v with protDir := d }

/-- The five settings the settings lock freezes (R17). -/
def lockedSetting : Setting → Bool
  | .protOn => true | .protEdge => true | .protDir => true | .topoOneway => true | .siteLock => true
  | .linkRate => false | .cbRate => false | .pollGap => false | .muteWait => false | .retryDelay => false
  | .lateLimit => false | .noteGap => false | .admitWait => false | .balLimit => false

/-- SITE (R16, R17). -/
def execSite (plus : Bool) (name : Setting) (value : Option SettingValue) (s : State) : Result :=
  command (.site plus name value) plus (fun s => match value with
    | none => answer plus (ok [.bare (.word (settingName name)), .bare (settingRead s.site name)]) s
    | some x =>
      if s.lock && lockedSetting name then answer plus (er .prot) s
      else answer plus (ok []) (s.setSite (settingWrite name x s.site))) s

/-! ### Store writes (R15, R18, R19) -/

/-- A store write begun: the decoder is held until it ends (R5, R15). -/
def beginWrite (plus : Bool) (w : StoreWrite) (s : State) : State :=
  s.setLink { s.link with hold := some (.store plus w) }

/-- SITESAVE (R18). -/
def execSitesave (plus : Bool) (s : State) : Result :=
  command (.sitesave plus) plus (fun s => beginWrite plus (.settings s.site) s) s

/-- WIPE (R19). -/
def execWipe (plus : Bool) (s : State) : Result :=
  command (.wipe plus) plus (fun s =>
    if s.engine.mode = .idle then beginWrite plus (.wipe 0) s else answer plus (er .busy) s) s

/-- The store write in progress ends (R15, R48). -/
def writeEnds (r : WriteResult) (s : State) : State :=
  match s.link.hold with
  | some (.store plus w) =>
    let s' := s.setLink { s.link with hold := none }
    match r with
    | .ok =>
      let x := writeSucceeds w s'
      answer plus x.2 x.1
    | .fail i left =>
      if failPossible w i then
        let x := writeFails w i left s'
        answer plus x.2 x.1
      else s
  | _ => s

/-- STORE_WRITE_END (R15). -/
def execStoreWriteEnd (result : WriteResult) (s : State) : Result :=
  event (.storeWriteEnd result) (writeEnds result) s

end Sys2Proof.Machine
end

