-- ==== Sys2Proof/Machine/NetTable.lean ====
section
/-! DEFINITION. The Net Table (chapter 2): topology edits and their checks, queries, curve references, the release set
and the topology lock. One `exec…` per row of the opcode table. -/

namespace Sys2Proof.Machine

/-! ### Legs (R32) -/

/-- The far end of the leg at terminal `a`. -/
def partner (s : State) (a : Terminal) : Option Terminal :=
  match s.net.legs.find? fun l => l.1 == a || l.2 == a with
  | some (x, y) => some (if x = a then y else x)
  | none => none

/-- The leg at `a` cut at both ends. -/
def cutLeg (a : Terminal) (s : State) : State :=
  s.setNet { s.net with legs := s.net.legs.filter fun l => !(l.1 == a || l.2 == a) }

/-- The terminals of an element with `n` throws. -/
def elemTerminals (e n : Nat) : List Terminal := .common e :: (List.range n).map fun k => .throw e (k + 1)

/-- The terminals of `l` that have a leg, each with its far end. -/
def legEnds (s : State) (l : List Terminal) : List Terminal :=
  l.flatMap fun a => match partner s a with | some b => [a, b] | none => []

/-- The legs at the terminals of `l` cut at both ends. -/
def cutLegs (l : List Terminal) (s : State) : State := l.foldl (fun s a => cutLeg a s) s

/-! ### Use by routes (R33) and the notice of edit (R42) -/

/-- The terminals a route traverses (R33). -/
def traversed (r : Route) : List Terminal :=
  [.port r.src, .port r.dst] ++ r.hops.flatMap fun h => [.common h.elem, .throw h.elem h.pos]

/-- What one notice of edit lists (R42). -/
structure Edit where
  elems : List Nat
  ports : List Nat
  terms : List Terminal
  deriving DecidableEq, Repr

/-- The route meets one of R42's conditions. -/
def editReaches (n : Edit) (r : Route) : Bool :=
  n.elems.any (claimsElem r) || n.ports.any (endsAt r) || n.terms.any fun a => (traversed r).contains a

/-- The notice of edit: every READY route that it reaches becomes STALE (R42). -/
def noticeOfEdit (n : Edit) (s : State) : State :=
  s.setRoutes (tmap (fun _ x => if x.state == .ready && editReaches n x then { x with state := .stale } else x) s.routes)

/-! ### Checks of a topology edit (R26) -/

/-- The first refusal of an ordered list of checks. -/
def firstRefusal : List (Bool × Reply) → Option Reply
  | [] => none
  | (fails, r) :: l => if fails then some r else firstRefusal l

/-- A command with its checks in order: the first failure is the reply, and otherwise the effect is followed by OK. -/
def checked (plus : Bool) (checks : List (Bool × Reply)) (effect : State → State) (s : State) : State :=
  match firstRefusal checks with
  | some r => answer plus r s
  | none => answer plus (ok []) (effect s)

/-- The engine is in CHECK, MUTING, BREAK or MAKE. -/
def engineEngaged (s : State) : Bool := s.engine.mode == .check || inFlight s

/-- A drive or sense has been issued to `e` and has not ended. -/
def elemBusy (s : State) (e : Nat) : Bool :=
  (s.engine.active.any fun d => d.elem == e) || s.engine.survey.current == some e

/-- Checks 1 and 2 of R26 for an edit that names no element to define or delete. -/
def editOpen (s : State) : List (Bool × Reply) := [(s.net.locked, er .locked), (engineEngaged s, er .busy)]

/-- Checks 1 and 2 of R26 for ELEM and ELEMDEL. -/
def elemOpen (e : Nat) (s : State) : List (Bool × Reply) :=
  [(s.net.locked, er .locked), (engineEngaged s || elemBusy s e, er .busy)]

/-- The element or port a terminal names is undefined. -/
def terminalUndef (s : State) : Terminal → Bool
  | .port p => (portAt s p).isNone
  | .common e => (elemAt s e).isNone
  | .throw e _ => (elemAt s e).isNone

/-- A throw above its element's n. -/
def throwAbove (s : State) : Terminal → Bool
  | .port _ => false
  | .common _ => false
  | .throw e k => match elemAt s e with | some x => decide (x.n < k) | none => false

/-- The element a terminal belongs to. -/
def terminalElem : Terminal → Option Nat
  | .port _ => none
  | .common e => some e
  | .throw e _ => some e

/-- The same terminal, or two terminals of one element (R34). -/
def sameTerminal (a b : Terminal) : Bool := a == b || (terminalElem a).isSome && terminalElem a == terminalElem b

/-- A route of the applied set traverses `a` (R33). -/
def terminalInUse (s : State) (a : Terminal) : Bool := (appliedWhere s fun r => (traversed r).contains a).isSome

/-- A route of the applied set ends at port `p` (R33). -/
def portInUse (s : State) (p : Nat) : Bool := (appliedWhere s fun r => endsAt r p).isSome

/-! ### Element edits (R27, R28) -/

/-- The legs of element `e` cut and the element removed from the release set (R27 step 1, R28 steps 1 and 2). -/
def dropElemUse (e : Nat) (s : State) : State :=
  match elemAt s e with
  | some x =>
    let s := cutLegs (elemTerminals e x.n) s
    s.setNet { s.net with released := s.net.released.erase e }
  | none => s

/-- The notice of an edit of element `e`, made from the state before it; none when `e` was undefined. -/
def elemEdit (before : State) (e : Nat) (s : State) : State :=
  match elemAt before e with
  | some x => noticeOfEdit { elems := [e], ports := [], terms := legEnds before (elemTerminals e x.n) } s
  | none => s

/-- Element `e` taken out of the ahead-fault holder, the staging list and the survey list (R27 step 5, R28 step 5). Its
staging drives count neither as ended nor as left (log entry 29), and the number of elements the survey listed stays, the
model's choice (log entry 44). -/
def forgetElem (e : Nat) (s : State) : State :=
  let g := s.engine
  s.setEngine { g with
    holder := match g.holder with
      | some a => if a.elem = e then none else some a
      | none => none
    staging := { g.staging with
      todo := g.staging.todo.filter fun p => p.1 != e
      cut := g.staging.cut + (g.staging.todo.filter fun p => p.1 == e).length }
    survey := { g.survey with todo := g.survey.todo.filter fun x => x != e } }

/-- The known position ELEM writes (R27 step 4). -/
def positionAtDefinition : ElemKind → Option Nat
  | .latch => none
  | .failsafe => some 1
  | .solid => some 0

/-- The effect of ELEM (R27). Staging or a survey left with nothing to do ends here: for staging the model's choice (log
entries 36 and 38). -/
def defineElem (e : Nat) (x : Elem) (s : State) : State :=
  advanceAll (elemEdit s e (forgetElem e (setElem e x (dropElemUse e s))))

/-- A pulse or n that does not fit the kind (R27). -/
def kindMismatch (kind : ElemKind) (n pulse : Nat) : Bool :=
  match kind with
  | .latch => pulse == 0
  | .failsafe => n != 2 || pulse == 0
  | .solid => pulse != 0

/-- Another element holds the card slot (R25). -/
def slotHeld (s : State) (e card slot : Nat) : Bool :=
  s.net.elems.any fun p => p.1 != e && p.2.card == card && p.2.slot == slot

/-- ELEM (R27). -/
def execElem (plus : Bool) (e : Nat) (kind : ElemKind) (n card slot pulse settle guard life : Nat) (s : State) :
    Result :=
  command (.elem plus e kind n card slot pulse settle guard life) plus (fun s =>
    checked plus (elemOpen e s ++
      [(kindMismatch kind n pulse, erWith .range (.word "KIND")),
       (slotHeld s e card slot, erWith .conflict (.word "SLOT")), (appliedClaims s e, er .inuse)])
      (defineElem e
        { kind := kind, n := n, card := card, slot := slot, pulse := if kind = .solid then none else some pulse,
          settle := settle, guarded := guard == 1, life := life, refs := [], pos := positionAtDefinition kind,
          faulted := false }) s) s

/-- The effect of ELEMDEL (R28). Staging or a survey left with nothing to do ends here: for staging the model's choice
(log entries 36 and 38). -/
def deleteElem (e : Nat) (s : State) : State :=
  let t := dropElemUse e s
  advanceAll (elemEdit s e (forgetElem e (t.setNet { t.net with elems := tdel t.net.elems e })))

/-- ELEMDEL (R28). -/
def execElemdel (plus : Bool) (e : Nat) (s : State) : Result :=
  command (.elemdel plus e) plus (fun s =>
    checked plus (elemOpen e s ++ [((elemAt s e).isNone, er .undef), (appliedClaims s e, er .inuse)])
      (deleteElem e) s) s

/-! ### Port edits (R30, R31) -/

/-- Fixture index `n` is bound to a port other than `p` (R29). -/
def fixtureBound (s : State) (p : Nat) (fixture : Option Nat) : Bool :=
  match fixture with
  | some n => s.net.ports.any fun q => q.1 != p && q.2.fixture == some n
  | none => false

/-- The effect of PORT (R30). -/
def definePort (p : Nat) (cls : PortClass) (fixture : Option Nat) (s : State) : State :=
  match portAt s p with
  | none => s.setNet { s.net with ports := tput s.net.ports p { cls := cls, fixture := fixture, cable := none } }
  | some q =>
    noticeOfEdit { elems := [], ports := [p], terms := [] }
      (s.setNet { s.net with ports := tput s.net.ports p { cls := cls, fixture := fixture, cable := q.cable } })

/-- PORT (R30). -/
def execPort (plus : Bool) (p : Nat) (cls : PortClass) (fixture : Option Nat) (s : State) : Result :=
  command (.port plus p cls fixture) plus (fun s =>
    checked plus (editOpen s ++
      [(fixtureBound s p fixture, erWith .conflict (.word "FIXTURE")), (portInUse s p, er .inuse)])
      (definePort p cls fixture) s) s

/-- The effect of PORTDEL (R31). -/
def deletePort (p : Nat) (s : State) : State :=
  let ends := legEnds s [.port p]
  let t := cutLeg (.port p) s
  noticeOfEdit { elems := [], ports := [p], terms := ends } (t.setNet { t.net with ports := tdel t.net.ports p })

/-- PORTDEL (R31). -/
def execPortdel (plus : Bool) (p : Nat) (s : State) : Result :=
  command (.portdel plus p) plus (fun s =>
    checked plus (editOpen s ++ [((portAt s p).isNone, er .undef), (portInUse s p, er .inuse)]) (deletePort p) s) s

/-! ### Leg edits (R34, R35) -/

/-- The effect of LEG joining `a` and `b` (R34). -/
def joinLeg (a b : Terminal) (s : State) : State :=
  let t := cutLeg b (cutLeg a s)
  noticeOfEdit { elems := [], ports := [], terms := [a, b] ++ (partner s a).toList ++ (partner s b).toList }
    (t.setNet { t.net with legs := t.net.legs ++ [(a, b)] })

/-- LEG (R34). -/
def execLeg (plus : Bool) (a b : Terminal) (s : State) : Result :=
  command (.leg plus a b) plus (fun s =>
    checked plus (editOpen s ++
      [(terminalUndef s a || terminalUndef s b, er .undef), (throwAbove s a || throwAbove s b, er .range),
       (sameTerminal a b, erWith .conflict (.word "SAME")), (terminalInUse s a || terminalInUse s b, er .inuse)])
      (joinLeg a b) s) s

/-- The effect of LEG with `-` (R35). -/
def removeLeg (a : Terminal) (s : State) : State :=
  match partner s a with
  | some b => noticeOfEdit { elems := [], ports := [], terms := [a, b] } (cutLeg a s)
  | none => s

/-- LEG with `-` (R35). -/
def execLegCut (plus : Bool) (a : Terminal) (s : State) : Result :=
  command (.legCut plus a) plus (fun s =>
    checked plus (editOpen s ++
      [(terminalUndef s a, er .undef), (throwAbove s a, er .range), (terminalInUse s a, er .inuse)])
      (removeLeg a) s) s

/-! ### Queries (R36) -/

/-- A curve reference as the link writes it. -/
def curveRef : Option Nat → Val
  | some c => .curve c
  | none => .dash

/-- The fields of ELEM? (R36). -/
def elemFields (s : State) (e : Nat) (x : Elem) : List Field :=
  ([vnum e, .word (kindName x.kind), vnum x.n, vnum x.card, vnum x.slot, vnum (x.pulse.getD 0), vnum x.settle,
    bit x.guarded, vnum x.life, match x.pos with | some k => vnum k | none => .word "UNKNOWN",
    .word (if x.faulted then "FAULT" else "OK"), bit (s.net.released.contains e)]
    ++ (List.range x.n).map fun k => curveRef (tget x.refs (k + 1))).map .bare

/-- ELEM? (R36). -/
def execElemQuery (plus : Bool) (e : Nat) (s : State) : Result :=
  command (.elemQuery plus e) plus (fun s => match elemAt s e with
    | some x => answer plus (ok (elemFields s e x)) s
    | none => answer plus (er .undef) s) s

/-- A terminal, or `-`. -/
def terminalRef : Option Terminal → Val
  | some a => terminalVal a
  | none => .dash

/-- PORT? (R36). -/
def execPortQuery (plus : Bool) (p : Nat) (s : State) : Result :=
  command (.portQuery plus p) plus (fun s => match portAt s p with
    | some q => answer plus (ok ([vnum p, .word (className q.cls),
        match q.fixture with | some n => .fixt n | none => .dash, curveRef q.cable,
        terminalRef (partner s (.port p))].map .bare)) s
    | none => answer plus (er .undef) s) s

/-- LEG? (R36). -/
def execLegQuery (plus : Bool) (a : Terminal) (s : State) : Result :=
  command (.legQuery plus a) plus (fun s =>
    if terminalUndef s a then answer plus (er .undef) s
    else if throwAbove s a then answer plus (er .range) s
    else answer plus (ok [.bare (terminalVal a), .bare (terminalRef (partner s a))]) s) s

/-- NET? (R36). -/
def execNetQuery (plus : Bool) (s : State) : Result :=
  command (.netQuery plus) plus (fun s => answer plus (ok
    [.keyed "ELEMS" (vnum s.net.elems.length), .keyed "PORTS" (vnum s.net.ports.length),
     .keyed "LEGS" (vnum s.net.legs.length), .keyed "RELEASED" (vnum s.net.released.length),
     .keyed "LOCK" (bit s.net.locked)]) s) s

/-! ### Curve references (R37, R38) -/

/-- A reference table with position `k` set, or cleared by none. -/
def setRef (k : Nat) (slot : Option Nat) (t : Table Nat) : Table Nat :=
  match slot with
  | some c => tput t k c
  | none => tdel t k

/-- ECAL (R37). -/
def execEcal (plus : Bool) (e k : Nat) (slot : Option Nat) (s : State) : Result :=
  command (.ecal plus e k slot) plus (fun s => match elemAt s e with
    | none => answer plus (er .undef) s
    | some x =>
      if k ≤ x.n then answer plus (ok []) (setElem e { x with refs := setRef k slot x.refs } s)
      else answer plus (er .range) s) s

/-- PCAL (R38). -/
def execPcal (plus : Bool) (p : Nat) (slot : Option Nat) (s : State) : Result :=
  command (.pcal plus p slot) plus (fun s => match portAt s p with
    | none => answer plus (er .undef) s
    | some q =>
      answer plus (ok []) (s.setNet { s.net with ports := tput s.net.ports p { q with cable := slot } })) s

/-! ### The release set (R39, R40) -/

/-- REL (R39). -/
def execRel (plus : Bool) (e : Nat) (s : State) : Result :=
  command (.rel plus e) plus (fun s => match elemAt s e with
    | none => answer plus (er .undef) s
    | some x =>
      if x.guarded then answer plus (ok []) (s.setNet { s.net with released := insertNat e s.net.released })
      else answer plus (erWith .range (.word "GUARD")) s) s

/-- A route of the target set of the transition in flight claims `e` (R40). -/
def targetClaims (s : State) (e : Nat) : Bool :=
  match s.engine.trans with
  | some t => inFlight s && !(routesWhere s t.target fun r => claimsElem r e).isEmpty
  | none => false

/-- UNREL (R40). -/
def execUnrel (plus : Bool) (e : Nat) (s : State) : Result :=
  command (.unrel plus e) plus (fun s =>
    checked plus [((elemAt s e).isNone, er .undef), (appliedClaims s e || targetClaims s e, er .inuse)]
      (fun s => s.setNet { s.net with released := s.net.released.erase e }) s) s

/-- REL? (R40). -/
def execRelQuery (plus : Bool) (s : State) : Result :=
  command (.relQuery plus) plus (fun s => answer plus (ok (s.net.released.map fun e => .bare (vnum e))) s) s

/-! ### The topology lock (R41) -/

/-- LOCK (R41). -/
def execLock (plus : Bool) (s : State) : Result :=
  command (.lock plus) plus (fun s => answer plus (ok []) (s.setNet { s.net with locked := true })) s

/-- UNLOCK (R41). -/
def execUnlock (plus : Bool) (s : State) : Result :=
  command (.unlock plus) plus (fun s =>
    if s.net.locked && s.site.topoOneway == 1 then answer plus (er .locked) s
    else answer plus (ok []) (s.setNet { s.net with locked := false })) s

end Sys2Proof.Machine
end

