-- ==== Sys2Proof/Machine/Calibration.lean ====
section
/-! DEFINITION. The Calibration Store and the loss commands (chapter 3). The Loss Unit's computation itself stands in
Loss.lean. One `exec…` per row of the opcode table. -/

namespace Sys2Proof.Machine

/-- Each frequency is greater than the one before it (R43, R46). -/
def pointsRise : Curve → Bool
  | [] => true
  | [_] => true
  | p :: q :: l => decide (p.1 < q.1) && pointsRise (q :: l)

/-- The refusals of CURVE, in order (R46). -/
def curveChecks (c : Nat) (points : Curve) (s : State) : List (Bool × Reply) :=
  [(slotProtected s.site c, er .prot), (!within 2 16 points.length, erWith .range (.word "COUNT")),
   (!pointsRise points, erWith .range (.word "ORDER"))]

/-- CURVE (R46): a store write begins, and STORE_WRITE_END answers. -/
def execCurve (plus : Bool) (c : Nat) (points : List (Nat × Int)) (s : State) : Result :=
  command (.curve plus c points) plus (fun s => match firstRefusal (curveChecks c points s) with
    | some r => answer plus r s
    | none => beginWrite plus (.curve c points) s) s

/-- CURVEDEL (R47). -/
def execCurvedel (plus : Bool) (c : Nat) (s : State) : Result :=
  command (.curvedel plus c) plus (fun s =>
    if slotProtected s.site c then answer plus (er .prot) s else beginWrite plus (.curveDel c) s) s

/-- The points of a curve as values, in order (R49). -/
def pointVals (points : Curve) : List Val := points.flatMap fun p => [vnum p.1, .num p.2]

/-- CURVE? (R49). -/
def execCurveQuery (plus : Bool) (c : Nat) (s : State) : Result :=
  command (.curveQuery plus c) plus (fun s => match tget s.images c with
    | some points => answer plus (ok (([vnum c, vnum points.length] ++ pointVals points).map .bare)) s
    | none => answer plus (er .undef) s) s

/-- The result's fields `value flags` (R55). -/
def lossFields : LossResult → List Val
  | .openPath => [.word "OPEN", .dash]
  | .value v nocal edge sat =>
    [.num v, match flagWords nocal edge sat with | [] => .dash | l => .commaWords l]

/-- A contributor as PARTS writes it (R56). -/
def partVal (c : Contributor) : Val :=
  if c.isOpen then .word "OPEN" else .loss c.value (flagWords c.nocal c.edge false)

/-- A route whose loss may be asked: READY, APPLIED or STALE (R55). -/
def lossRoute (s : State) (r : Nat) : Option Route :=
  match routeAt s r with
  | some x => if x.state = .retiring then none else some x
  | none => none

/-- The fields common to both forms of LOSS (R55). -/
def lossReply (s : State) (r f : Nat) (x : Route) : List Field :=
  ([vnum r, vnum f] ++ lossFields (routeLoss s f x)).map .bare

/-- LOSS (R55). -/
def execLoss (plus : Bool) (r f : Nat) (s : State) : Result :=
  command (.loss plus r f) plus (fun s => match lossRoute s r with
    | some x => answer plus (ok (lossReply s r f x)) s
    | none => answer plus (er .undef) s) s

/-- LOSS with PARTS (R56). -/
def execLossParts (plus : Bool) (r f : Nat) (s : State) : Result :=
  command (.lossParts plus r f) plus (fun s => match lossRoute s r with
    | some x => answer plus (ok (lossReply s r f x
        ++ (contributors s f x).map fun c => .part c.name (partVal c))) s
    | none => answer plus (er .undef) s) s

/-- BAL (R60): the limit is set, a value above 6000 held at 6000, or read. -/
def execBal (plus : Bool) (limit : Option Nat) (s : State) : Result :=
  command (.bal plus limit) plus (fun s =>
    let s := match limit with
      | some n => s.setSite { s.site with balLimit := min n 6000 }
      | none => s
    answer plus (ok [.bare (.word "BAL_LIMIT"), .bare (vnum s.site.balLimit)]) s) s

end Sys2Proof.Machine
end

