-- ==== Sys2Proof/Machine/Routes.lean ====
section
/-! DEFINITION. The Route Table's commands (chapter 4): explicit definition, search, deletion and reading. One
`exec…` per row of the opcode table. -/

namespace Sys2Proof.Machine

/-! ### Checks shared by ROUTE and FIND (R64, R68) -/

/-- Route `r` is in the applied set: APPLIED or RETIRING (R62). -/
def routeHeld (s : State) (r : Nat) : Bool :=
  routeState s r == some .applied || routeState s r == some .retiring

/-- Route `r` is pending (R63). -/
def routePending (s : State) (r : Nat) : Bool :=
  match routeAt s r with
  | some x => x.pending
  | none => false

/-- The first undefined port of the two, as a refusal's detail (R64, R68). -/
def undefPort (s : State) (src dst : Nat) : Option Val :=
  if (portAt s src).isNone then some (.port src)
  else if (portAt s dst).isNone then some (.port dst)
  else none

/-- The first undefined item in the order source, destination, hops (R64). -/
def undefItem (s : State) (src dst : Nat) (hops : List (Nat × Nat)) : Option Val :=
  (undefPort s src dst).orElse fun _ =>
    firstSome (fun h : Nat × Nat => if (elemAt s h.1).isNone then some (.elem h.1) else none) hops

/-- The number, from `i`, of the first hop whose position is above its element's n (R64). -/
def highHop (s : State) : Nat → List (Nat × Nat) → Option Nat
  | _, [] => none
  | i, h :: l =>
    match elemAt s h.1 with
    | some x => if x.n < h.2 then some i else highHop s (i + 1) l
    | none => highHop s (i + 1) l

/-! ### The walk (R65) -/

/-- The hop entered at terminal `a` for element `e` at position `k`, with its exit terminal (R65 steps 2 to 4). -/
def enterHop (a : Terminal) (e k : Nat) : Option (Hop × Terminal) :=
  match a with
  | .port _ => none
  | .common e' => if e' = e then some ({ elem := e, pos := k, entersCommon := true }, .throw e k) else none
  | .throw e' k' =>
    if e' = e ∧ k' = k then some ({ elem := e, pos := k, entersCommon := false }, .common e) else none

/-- The walk from exit terminal `a` through the hops numbered from `i`: the hops with their entry sides, or the
failing hop number (R65). -/
def walk (s : State) (dst : Nat) : Nat → Terminal → List (Nat × Nat) → Except Nat (List Hop)
  | i, a, [] => if partner s a = some (.port dst) then .ok [] else .error i
  | i, a, h :: l =>
    match (partner s a).bind fun b => enterHop b h.1 h.2 with
    | none => .error i
    | some (x, b) =>
      match walk s dst (i + 1) b l with
      | .ok xs => .ok (x :: xs)
      | .error j => .error j

/-! ### Writing a record (R66, R67, R72) -/

/-- The class of a port. -/
def portClass (s : State) (p : Nat) : Option PortClass := (portAt s p).map fun q => q.cls

/-- A class that carries a source (R29). -/
def classCarries (c : Option PortClass) : Bool := c == some .source || c == some .duplex

/-- The record of a route just defined, with its derived properties (R66, R67). -/
def newRoute (s : State) (src dst : Nat) (hops : List Hop) (found : Bool) : Route :=
  let a := portClass s src
  let b := portClass s dst
  { state := .ready, src := src, dst := dst, hops := hops, found := found,
    carries := classCarries a || classCarries b,
    radiates := (a == some .probe && classCarries b) || (b == some .probe && classCarries a),
    needsGuard := hops.any fun h => match elemAt s h.elem with | some x => x.guarded | none => false,
    torn := none, last := none, pending := false }

/-- Route `r` with record `x`. -/
def setRoute (r : Nat) (x : Route) (s : State) : State := s.setRoutes (tput s.routes r x)

/-! ### ROUTE (R64 to R66) -/

/-- The first refusal of ROUTE's checks 1 to 6 (R64). Which element is the first repeated one when two repeat is the
model's choice (log entry 43). -/
def routeRefusal (s : State) (r src dst : Nat) (hops : List (Nat × Nat)) : Option Reply :=
  if routeHeld s r then some (er .inuse)
  else if routePending s r then some (er .busy)
  else match undefItem s src dst hops with
    | some v => some (erWith .undef v)
    | none => match highHop s 1 hops with
      | some i => some (erWith .range (vnum i))
      | none =>
        if src = dst then some (erWith .conflict (.word "SAME"))
        else (firstRepeat [] (hops.map fun h => h.1)).map fun e => erWith .conflict (.elem e)

/-- ROUTE (R64 to R66). -/
def execRoute (plus : Bool) (r src dst : Nat) (hops : List (Nat × Nat)) (s : State) : Result :=
  command (.route plus r src dst hops) plus (fun s => match routeRefusal s r src dst hops with
    | some x => answer plus x s
    | none => match walk s dst 1 (.port src) hops with
      | .error i => answer plus (erWith .broken (vnum i)) s
      | .ok l =>
        answer plus (ok [.bare (vnum r), .bare (vnum l.length)]) (setRoute r (newRoute s src dst l false) s)) s

/-! ### FIND (R68 to R73) -/

/-- An entry of the search: an arrival terminal and the hops that led to it (R69). -/
abbrev Entry := Terminal × List Hop

/-- Where the search stands while it expands a level: the marked terminals and the next level's entries (R69). -/
structure Search where
  marks : List Terminal
  next : List Entry
  deriving DecidableEq, Repr

/-- An extension of an entry: its hop and its exit terminal (R70). -/
def extensions (e : Nat) (x : Elem) : Terminal → List (Hop × Terminal)
  | .port _ => []
  | .throw _ k => [({ elem := e, pos := k, entersCommon := false }, .common e)]
  | .common _ => (List.range x.n).map fun k =>
      ({ elem := e, pos := k + 1, entersCommon := true }, .throw e (k + 1))

/-- An extension followed from its exit terminal (R71). -/
def followExit (s : State) (hops : List Hop) (x : Hop × Terminal) (q : Search) : Search :=
  match partner s x.2 with
  | none => q
  | some b =>
    if q.marks.contains b then q else { marks := b :: q.marks, next := q.next ++ [(b, hops ++ [x.1])] }

/-- The extensions of an entry, none at a dead end (R70). `last` says that the entry lies in level 12. -/
def expansions (s : State) (guarded last : Bool) (t : Entry) : List (Hop × Terminal) :=
  match terminalElem t.1 with
  | none => []
  | some e => match elemAt s e with
    | none => []
    | some x => if (t.2.any fun h => h.elem == e) || (x.guarded && !guarded) || last then []
      else extensions e x t.1

/-- An entry at the destination with at least one hop (R70). -/
def arrives (dst : Nat) (t : Entry) : Bool := t.1 == .port dst && !t.2.isEmpty

/-- A level expanded entry by entry: the route found, or the search with the next level formed (R69, R70). -/
def expandLevel (s : State) (dst : Nat) (guarded last : Bool) : List Entry → Search → Except (List Hop) Search
  | [], q => .ok q
  | t :: l, q =>
    if arrives dst t then .error t.2
    else expandLevel s dst guarded last l
      ((expansions s guarded last t).foldl (fun q x => followExit s t.2 x q) q)

/-- The levels from `entries` on; `left` counts the levels after this one (R69, R72). -/
def searchLevels (s : State) (dst : Nat) (guarded : Bool) : Nat → List Entry → List Terminal → Option (List Hop)
  | left, entries, marks =>
    match expandLevel s dst guarded (left == 0) entries { marks := marks, next := [] } with
    | .error hops => some hops
    | .ok q => match left with
      | 0 => none
      | m + 1 => if q.next.isEmpty then none else searchLevels s dst guarded m q.next q.marks

/-- The search from `src` to `dst` (R69 to R72). -/
def search (s : State) (src dst : Nat) (guarded : Bool) : Option (List Hop) :=
  match partner s (.port src) with
  | none => none
  | some b => searchLevels s dst guarded Config.hops [(b, [])] [b, .port src]

/-- The first refusal of FIND's checks (R68). -/
def findRefusal (s : State) (r src dst : Nat) : Option Reply :=
  if routeHeld s r then some (er .inuse)
  else if routePending s r then some (er .busy)
  else match undefPort s src dst with
    | some v => some (erWith .undef v)
    | none => if src = dst then some (erWith .conflict (.word "SAME")) else none

/-- FIND (R68 to R73). -/
def execFind (plus : Bool) (r src dst : Nat) (guarded : Bool) (s : State) : Result :=
  command (.find plus r src dst guarded) plus (fun s => match findRefusal s r src dst with
    | some x => answer plus x s
    | none => match search s src dst guarded with
      | none => answer plus (er .nopath) s
      | some l =>
        answer plus (ok (([vnum r, vnum l.length] ++ l.map fun h => Val.hop h.elem h.pos).map .bare))
          (setRoute r (newRoute s src dst l true) s)) s

/-! ### ROUTEDEL (R77) -/

/-- The reply and effect of ROUTEDEL by the route's state (R77). -/
def deleteRoute (r : Nat) (s : State) : Reply × State :=
  match routeAt s r with
  | none => (er .undef, s)
  | some x =>
    let gone : Reply × State := (ok [.bare (vnum r), .bare (.word "FREE")], s.setRoutes (tdel s.routes r))
    match x.state with
    | .ready => if x.pending then (er .busy, s) else gone
    | .stale => gone
    | .applied => (ok [.bare (vnum r), .bare (.word "RETIRING")], setRoute r { x with state := .retiring } s)
    | .retiring => (ok [.bare (vnum r), .bare (.word "RETIRING")], s)

/-- ROUTEDEL (R77). -/
def execRoutedel (plus : Bool) (r : Nat) (s : State) : Result :=
  command (.routedel plus r) plus (fun s => answer plus (deleteRoute r s).1 (deleteRoute r s).2) s

/-! ### Reading routes (R81, R82) -/

/-- The fields of ROUTE? (R81). -/
def routeFields (r : Nat) : Option Route → List Val
  | none => [vnum r, .word "FREE"]
  | some x =>
    [vnum r, .word (routeStateName x.state), vnum x.src, vnum x.dst, .word (if x.found then "FOUND" else "EXPLICIT"),
     bit x.carries, bit x.radiates, bit x.needsGuard,
     match x.torn with | some c => .word (tearName c) | none => .dash, optNum x.last, vnum x.hops.length]
    ++ x.hops.map fun h => .hopSide h.elem h.pos h.entersCommon

/-- ROUTE? (R81). -/
def execRouteQuery (plus : Bool) (r : Nat) (s : State) : Result :=
  command (.routeQuery plus r) plus (fun s => answer plus (ok ((routeFields r (routeAt s r)).map .bare)) s) s

/-- The ids of the routes in a state, in ascending order (R82). -/
def routesIn (s : State) (q : RouteStateName) : List Nat :=
  match q with
  | .free => (List.range Config.routes).filter fun r => (routeAt s r).isNone
  | .ready => tkeys (fun _ x => x.state == .ready) s.routes
  | .applied => tkeys (fun _ x => x.state == .applied) s.routes
  | .retiring => tkeys (fun _ x => x.state == .retiring) s.routes
  | .stale => tkeys (fun _ x => x.state == .stale) s.routes

/-- The fields of ROUTES? (R82). -/
def routesFields (s : State) : Option RouteStateName → List Field
  | none => [RouteStateName.free, .ready, .applied, .retiring, .stale].map fun q =>
      .keyed (namedState q) (vnum (routesIn s q).length)
  | some q => .bare (.word (namedState q)) :: .bare (vnum (routesIn s q).length)
      :: (routesIn s q).map fun r => .bare (vnum r)

/-- ROUTES? (R82). -/
def execRoutesQuery (plus : Bool) (state : Option RouteStateName) (s : State) : Result :=
  command (.routesQuery plus state) plus (fun s => answer plus (ok (routesFields s state)) s) s

end Sys2Proof.Machine
end

