-- ==== Sys2Proof/Machine/Throw.lean ====
section
/-! DEFINITION. The Throw Engine's commands and events (chapter 5). Planning, phases and ends stand in Engine.lean, what
it puts on the bus in CardBus.lean. One `exec…` per row of the opcode table. -/

namespace Sys2Proof.Machine

/-! ### GO (R86, R87) -/

/-- The refusal of GO's checks 1 to 3 (R87). Which id is the repeated one when two repeat is the model's choice (log entry
43). -/
def goRefusal (s : State) (ids : List Nat) : Option Reply :=
  if engineEngaged s || s.engine.mode == .survey then some (er .busy)
  else if ringRuns s then some (erWith .busy (.word "RING"))
  else (firstRepeat [] ids).map fun r => erWith .conflict (vnum r)

/-- A COMMAND request made, with its reply formed just after CHECK, or held through the wait in CHECK (R86, R87). -/
def requestGo (plus : Bool) (ids : List Nat) (s : State) : State :=
  let r := takeRequest { origin := .command, target := ids, plus := plus } s
  match r.2 with
  | .waiting => r.1.setLink { r.1.link with hold := some (.goWait plus) }
  | .refused f => answer plus (erWith f.1 f.2) r.1
  | .accepted => followUp rounds (proceed (answer plus (ok []) r.1))

/-- GO (R87). -/
def execGo (plus : Bool) (ids : List Nat) (s : State) : Result :=
  command (.go plus ids) plus (fun s => match goRefusal s ids with
    | some r => answer plus r s
    | none => requestGo plus ids s) s

/-! ### MUTE_ACK and MUTE_WAIT (R91 to R93) -/

/-- MUTE_ACK_ASSERTED (R91): in MUTING the timer stops and BREAK begins. -/
def execMuteAckAsserted (s : State) : Result :=
  event .muteAckAsserted (fun s =>
    let s := s.setMuteAck true
    if s.engine.mode = .muting then followUp rounds (startBreak s) else s) s

/-- Element `e` is electromechanical (R23). -/
def emElem (s : State) (e : Nat) : Bool :=
  match elemAt s e with
  | some x => isEm x.kind
  | none => false

/-- An EM drive of the transition is still to be issued, or its pulse is in progress (R93). After a readback failure
in BREAK the drives of MAKE are not to be issued (R97). -/
def emDriveLeft (s : State) (t : Trans) : Bool :=
  t.brkTodo.any (emElem s)
  || ((s.engine.mode == .making || t.faultedElems.isEmpty) && t.makTodo.any fun p => emElem s p.1)
  || s.engine.active.any fun d => emElem s d.elem && pulsing d

/-- A hot event: the fault, the stop, the latch (R93). -/
def hotEvent (t : Trans) (s : State) : State :=
  let torn := sortNat (t.target.filter fun r => !t.old.contains r)
  let s := recordFault { plainFault .hot with elem := t.lastEm, number := flightNumber s, torn := torn } s
  advanceAll (setTheLatch (stopTransition .hot s))

/-- MUTE_ACK seen deasserted by the engine (R93). -/
def muteAckLost (s : State) : State :=
  match s.engine.trans with
  | some t =>
    if s.engine.mute && (s.engine.mode == .breaking || s.engine.mode == .making) && t.stop.isNone && emDriveLeft s t
    then hotEvent t s else s
  | none => s

/-- MUTE_ACK_DEASSERTED (R93). -/
def execMuteAckDeasserted (s : State) : Result :=
  event .muteAckDeasserted (fun s => muteAckLost (s.setMuteAck false)) s

/-- The MUTE_WAIT timer has run out in MUTING (R92). -/
def muteTimeout (s : State) : State :=
  let s := recordFault { plainFault .muteTimeout with number := flightNumber s } s
  followUp rounds (endTransition false (updTrans (noteFirst .muteTimeout) s))

/-- MUTE_WAIT_EXPIRY (R92). -/
def execMuteWaitExpiry (s : State) : Result :=
  event .muteWaitExpiry (fun s =>
    if s.engine.mode == .muting && s.engine.muteTimer.isSome then muteTimeout s else s) s

/-! ### Drives and senses (R95, R96, R143) -/

/-- DRIVE_ACKNOWLEDGED (R95, R142): the bus is free. -/
def execDriveAcknowledged (s : State) : Result :=
  event .driveAcknowledged (fun s => match s.bus.tx with
    | some (.drive _ _ _ _ _) => setTx none s
    | _ => s) s

/-- CARD_NO_ANSWER (R143). -/
def execCardNoAnswer (s : State) : Result := event .cardNoAnswer noAnswer s

/-- The coil pulse of element `e` has ended: its budget is freed and its settle begins (R95, R145). -/
def pulseEnds (e : Nat) (s : State) : State :=
  match driveOf s e, elemAt s e with
  | some d, some x => match d.stage with
    | .pulsing _ => setPulses x.card (fun p => p - 1) (setStage e (.settling d.settle) s)
    | _ => s
  | _, _ => s

/-- PULSE_END (R95). -/
def execPulseEnd (e : Nat) (s : State) : Result := event (.pulseEnd e) (pulseEnds e) s

/-- Element `e`'s next SENSE falls due (R94, R96). -/
def senseFallsDue (e : Nat) (retry : Bool) (s : State) : State :=
  let s := setStage e (.senseDue retry) s
  s.setEngine { s.engine with due := s.engine.due ++ [e] }

/-- The settle time of element `e` has ended (R95, R96). -/
def settleEnds (e : Nat) (s : State) : State :=
  match driveOf s e, elemAt s e with
  | some d, some x => match d.stage with
    | .settling _ => match x.kind with
      | .latch => senseFallsDue e false s
      | .failsafe => advanceAll (driveReached d s)
      | .solid => advanceAll (driveReached d s)
    | _ => s
  | _, _ => s

/-- SETTLE_END (R95, R96). -/
def execSettleEnd (e : Nat) (s : State) : Result := event (.settleEnd e) (settleEnds e) s

/-- A SENSE answered: a survey's, or a readback's (R96, R112). A sense whose element has left use is passed over. -/
def senseReturns (got : Option Nat) (s : State) : State :=
  match s.bus.tx with
  | some (.sense _ _ e survey) =>
    let s := setTx none s
    match elemAt s e with
    | none => s
    | some x =>
      if survey then
        if s.engine.survey.current = some e then surveyed e (bounded x got) s else s
      else match driveOf s e with
        | some d => match d.stage with
          | .sensing retry => readback d retry (bounded x got) s
          | _ => s
        | none => s
  | _ => s

/-- SENSE_RESULT (R96, R112). -/
def execSenseResult (indicated : Option Nat) (s : State) : Result :=
  event (.senseResult indicated) (senseReturns indicated) s

/-- The retry delay of element `e` has run out (R96). -/
def retryEnds (e : Nat) (s : State) : State :=
  match driveOf s e with
  | some d => match d.stage with
    | .retryWait _ => senseFallsDue e true s
    | _ => s
  | none => s

/-- RETRY_DELAY_EXPIRY (R96). -/
def execRetryDelayExpiry (e : Nat) (s : State) : Result := event (.retryDelayExpiry e) (retryEnds e) s

/-! ### HALT and SURVEY (R100, R112) -/

/-- HALT (R100). -/
def execHalt (plus : Bool) (s : State) : Result :=
  command (.halt plus) plus (fun s => answer plus (ok []) (haltEngine s)) s

/-- An element the survey lists (R112). -/
def surveyable (s : State) (x : Elem) : Bool := x.kind == .latch && x.pos.isNone && elemUsable s x

/-- The survey begun with the list `l`, unless it is empty (R112). -/
def beginSurvey (l : List Nat) (s : State) : State :=
  if l.isEmpty then s
  else s.setEngine { s.engine with
    mode := .survey, survey := { total := l.length, returned := 0, todo := l, current := none } }

/-- SURVEY (R112). -/
def execSurvey (plus : Bool) (s : State) : Result :=
  command (.survey plus) plus (fun s =>
    if s.engine.mode != .idle || ringRuns s then answer plus (er .busy) s
    else
      let l := tkeys (fun _ x => surveyable s x) s.net.elems
      answer plus (ok [.bare (vnum l.length)]) (beginSurvey l s)) s

/-! ### Reading the engine (R114, R115) -/

/-- Drives of the break list that have ended (R114; log entry 29). -/
def brkEnded (s : State) (t : Trans) : Nat :=
  t.brk.length - t.brkTodo.length - (if s.engine.mode = .breaking then s.engine.active.length else 0)

/-- Drives of the make list that have ended (R114; log entry 29). -/
def makEnded (s : State) (t : Trans) : Nat :=
  t.mak.length - t.makTodo.length - (if s.engine.mode = .making then s.engine.active.length else 0)

/-- The `STG=` field (R114; log entry 29). -/
def stgVal (s : State) : Val :=
  match s.engine.mode with
  | .staging =>
    let g := s.engine.staging
    .over (g.total - g.cut - g.todo.length - s.engine.active.length) g.total
  | .survey => .over s.engine.survey.returned s.engine.survey.total
  | _ => .dash

/-- The fields of ENGINE? that read the transition record (R114). -/
def transFields (s : State) : Option Trans → List Field
  | none => [.keyed "ORG" .dash, .keyed "MUTE" .dash, .keyed "BRK" .dash, .keyed "MAK" .dash, .keyed "STOP" .dash,
             .keyed "OUT" .dash, .keyed "CAUSE" .dash]
  | some t =>
    [.keyed "ORG" (.word (originName t.origin)), .keyed "MUTE" (bit t.muteNeeded),
     .keyed "BRK" (.over (brkEnded s t) t.brk.length), .keyed "MAK" (.over (makEnded s t) t.mak.length),
     .keyed "STOP" (match t.stop with | some c => .word (stopName c) | none => .dash),
     .keyed "OUT" (match t.outcome with | some o => .word (outcomeName o.1) | none => .dash),
     .keyed "CAUSE" (match t.outcome with | some (_, some c) => .word (endCauseName c) | _ => .dash)]

/-- ENGINE? (R114). -/
def execEngineQuery (plus : Bool) (s : State) : Result :=
  command (.engineQuery plus) plus (fun s => answer plus (ok
    ([.keyed "T" (.word (modeName s.engine.mode)), .keyed "TN" (vnum s.engine.number)]
      ++ transFields s s.engine.trans ++ [.keyed "STG" (stgVal s)])) s) s

/-- A sensed position, or INDETERMINATE. -/
def indicatedVal : Option Nat → Val
  | some k => vnum k
  | none => .word "INDETERMINATE"

/-- The fields of AHEAD? (R115). -/
def aheadFields : Option Ahead → List Field
  | some a => [.bare (vnum a.elem), .bare (vnum a.commanded), .bare (indicatedVal a.indicated)]
  | none => [.bare .dash]

/-- AHEAD? (R115). -/
def execAheadQuery (plus : Bool) (s : State) : Result :=
  command (.aheadQuery plus) plus (fun s => answer plus (ok (aheadFields s.engine.holder)) s) s

end Sys2Proof.Machine
end

