-- ==== Sys2Proof/Machine/StepRing.lean ====
section
/-! DEFINITION. The Step Ring's commands and events (chapter 6). Entries, outcomes and halts stand in RingCore.lean and
Engine.lean. One `exec…` per row of the opcode table. -/

namespace Sys2Proof.Machine

/-! ### Step records (R117 to R119) -/

/-- The step at the pointer of a running ring cannot be edited (R117, R118). -/
def stepInUse (s : State) (i : Nat) : Bool := ringRuns s && s.ring.ptr == i

/-- The further effects of a successful edit of step `i` (R119). -/
def afterStepEdit (i : Nat) (s : State) : State :=
  match s.ring.state with
  | .dwelling => if i = nextStep s ∧ i ≠ s.ring.ptr then endStaging true s else s
  | .held => if i = nextStep s ∧ i ≠ s.ring.ptr then endStaging true s else s
  | .idle => if i = s.ring.ptr then s.setRing { s.ring with visit := 1 } else s
  | .halted => if i = s.ring.ptr then s.setRing { s.ring with visit := 1 } else s
  | .entering => s

/-- The step table replaced. -/
def setSteps (t : Table StepRec) (s : State) : State := s.setRing { s.ring with steps := t }

/-- STEP (R117). Which id is the repeated one when two repeat is the model's choice (log entry 43). -/
def execStep (plus : Bool) (i dwell rep freq : Nat) (flags : List StepFlag) (ids : List Nat) (s : State) : Result :=
  command (.step plus i dwell rep freq flags ids) plus (fun s =>
    if stepInUse s i then answer plus (er .inuse) s
    else match firstRepeat [] ids with
      | some r => answer plus (erWith .conflict (vnum r)) s
      | none =>
        let x : StepRec :=
          { dwell := dwell, rep := rep, freq := freq, ahead := flags.contains .ahead, mark := flags.contains .mark,
            notice := flags.contains .notice, group := ids }
        answer plus (ok [.bare (vnum i), .bare (vnum ids.length)])
          (afterStepEdit i (setSteps (tput s.ring.steps i x) s))) s

/-- STEPDEL (R118). -/
def execStepdel (plus : Bool) (i : Nat) (s : State) : Result :=
  command (.stepdel plus i) plus (fun s =>
    if stepInUse s i then answer plus (er .inuse) s
    else if (stepAt s i).isNone then answer plus (er .undef) s
    else answer plus (ok [.bare (vnum i)]) (afterStepEdit i (setSteps (tdel s.ring.steps i) s))) s

/-- The flags of a step as STEP? writes them (R118). -/
def stepFlags (st : StepRec) : List String :=
  (if st.ahead then ["AHEAD"] else []) ++ (if st.mark then ["MARK"] else [])
    ++ (if st.notice then ["NOTICE"] else [])

/-- The fields of STEP? (R118). -/
def stepFields (i : Nat) (st : StepRec) : List Val :=
  [vnum i, vnum st.dwell, vnum st.rep, vnum st.freq, match stepFlags st with | [] => .dash | l => .commaWords l,
   vnum st.group.length] ++ st.group.map vnum

/-- STEP? (R118). -/
def execStepQuery (plus : Bool) (i : Nat) (s : State) : Result :=
  command (.stepQuery plus i) plus (fun s => match stepAt s i with
    | some st => answer plus (ok ((stepFields i st).map .bare)) s
    | none => answer plus (er .undef) s) s

/-! ### RING and RUN (R120, R122) -/

/-- RING (R120). -/
def execRing (plus : Bool) (len : Nat) (s : State) : Result :=
  command (.ring plus len) plus (fun s =>
    if ringRuns s then answer plus (er .busy) s
    else answer plus (ok [.bare (vnum len)])
      (s.setRing { s.ring with len := len, ptr := 0, visit := 1 })) s

/-- The ring made ready to enter step `i` (R122 steps 1 to 4). -/
def aimRing (i : Nat) (s : State) : State :=
  endStaging true (s.setRing { s.ring with
    pass := 0, ptr := i, visit := 1, pendingTrig := false, overrun := false, holdPending := false, halt := none })

/-- RUN with its checks passed: the entry is begun, the reply formed, and the entry goes on (R122). -/
def startRun (plus : Bool) (i : Nat) (s : State) : State :=
  let r := beginEntry (aimRing i s)
  followUp rounds (continueEntry (answer plus (ok [.bare (vnum i)]) r.1, r.2))

/-- RUN (R122). -/
def execRun (plus : Bool) (i : Nat) (s : State) : Result :=
  command (.run plus i) plus (fun s =>
    if s.ring.len ≤ i then answer plus (er .range) s
    else if ringRuns s then answer plus (er .busy) s
    else if engineEngaged s || s.engine.mode == .survey then answer plus (erWith .busy (.word "ENGINE")) s
    else startRun plus i s) s

/-! ### Timers (R126, R128) -/

/-- MARK_TIMER_EXPIRY (R126). -/
def execMarkTimerExpiry (s : State) : Result :=
  event .markTimerExpiry (fun s => s.setRing { s.ring with markTimer := false }) s

/-- A visit of step `st` ends (R128). The Boolean says that an entry has just passed CHECK. -/
def visitEnds (st : StepRec) (s : State) : State × Bool :=
  if s.ring.visit < st.rep then
    (s.setRing { s.ring with
      visit := s.ring.visit + 1, dwellTimer := if st.dwell = 0 then none else some st.dwell }, false)
  else beginEntry (leaveStep s)

/-- The dwell timer runs out (R128). -/
def dwellEnds (s : State) : State × Bool :=
  match stepAt s s.ring.ptr with
  | some st => if s.ring.state == .dwelling && s.ring.dwellTimer.isSome then visitEnds st s else (s, false)
  | none => (s, false)

/-- DWELL_EXPIRY (R128). -/
def execDwellExpiry (s : State) : Result :=
  event .dwellExpiry (fun s => followUp rounds (continueEntry (dwellEnds s))) s

/-! ### Triggers (R129, R130) -/

/-- What a trigger did (R129). -/
inductive Trigger where
  | taken | ignored | pending | overrun
  deriving DecidableEq, Repr

/-- The word TRIG replies with (R129). -/
def triggerName : Trigger → String
  | .taken => "TAKEN" | .ignored => "IGNORED" | .pending => "PENDING" | .overrun => "OVERRUN"

/-- A trigger taken by the ring (R129). -/
def takeTrigger (s : State) : (State × Bool) × Trigger :=
  match s.ring.state with
  | .dwelling => match stepAt s s.ring.ptr with
    | some st => if st.dwell = 0 then (visitEnds st s, .taken) else ((s, false), .ignored)
    | none => ((s, false), .ignored)
  | .entering =>
    if s.ring.pendingTrig then ((s.setRing { s.ring with overrun := true }, false), .overrun)
    else ((s.setRing { s.ring with pendingTrig := true }, false), .pending)
  | .idle => ((s, false), .ignored)
  | .held => ((s, false), .ignored)
  | .halted => ((s, false), .ignored)

/-- TRIG_IN (R129). -/
def execTrigIn (s : State) : Result :=
  event .trigIn (fun s => followUp rounds (continueEntry (takeTrigger s).1)) s

/-- TRIG with its reply, formed once an entry it leads to has begun (R129). -/
def trigTaken (plus : Bool) (s : State) : State :=
  let r := takeTrigger s
  followUp rounds (continueEntry (answer plus (ok [.bare (.word (triggerName r.2))]) r.1.1, r.1.2))

/-- TRIG (R129). -/
def execTrig (plus : Bool) (s : State) : Result := command (.trig plus) plus (trigTaken plus) s

/-! ### HOLD, RESUME and STOP (R131, R132) -/

/-- The time still to run of the dwell timer: a free value, at most the length it was started with (log entry 3). -/
def dwellToRun (s : State) : Option Nat := s.ring.dwellTimer.map fun d => min (Config.dwellLeft s.free) d

/-- One more free value read, when a dwell timer runs. -/
def dwellRead (s : State) : State := if s.ring.dwellTimer.isSome then s.setFree (s.free + 1) else s

/-- HOLD's effect (R131). -/
def holdRing (s : State) : State :=
  match s.ring.state with
  | .dwelling =>
    endStaging false ((dwellRead s).setRing { s.ring with
      state := .held, keptDwell := dwellToRun s, dwellTimer := none })
  | .entering => s.setRing { s.ring with holdPending := true }
  | _ => s

/-- RESUME in HELD (R132). -/
def resumeHeld (s : State) : State :=
  let s := s.setRing { s.ring with pendingTrig := false }
  match stepAt s s.ring.ptr with
  | some st =>
    let s := beginDwell st (s.ring.keptDwell.getD st.dwell) s
    if st.ahead then stageNext s else s
  | none => s.setRing { s.ring with state := .dwelling, keptDwell := none }

/-- RESUME's effect (R131). -/
def resumeRing (s : State) : State :=
  match s.ring.state with
  | .held => resumeHeld s
  | .entering => s.setRing { s.ring with holdPending := false }
  | _ => s

/-- STOP's effect (R131). -/
def stopRing (s : State) : State :=
  match s.ring.state with
  | .idle => s
  | .halted => s.setRing { s.ring with state := .idle, halt := none }
  | _ =>
    endStaging true (s.setRing { s.ring with
      state := .idle, dwellTimer := none, keptDwell := none, pendingTrig := false, overrun := false,
      holdPending := false })

/-- The reply of HOLD, RESUME and STOP: the ring state after the command (R131). -/
def answerRing (plus : Bool) (s : State) : State := answer plus (ok [.bare (.word (ringName s.ring.state))]) s

/-- HOLD (R131). -/
def execHold (plus : Bool) (s : State) : Result :=
  command (.hold plus) plus (fun s => answerRing plus (holdRing s)) s

/-- RESUME (R131, R132). -/
def execResume (plus : Bool) (s : State) : Result :=
  command (.resume plus) plus (fun s => answerRing plus (resumeRing s)) s

/-- STOP (R131). -/
def execStop (plus : Bool) (s : State) : Result :=
  command (.stop plus) plus (fun s => answerRing plus (stopRing s)) s

/-! ### Reading the ring (R137, R139) -/

/-- A result as REPORT? writes it (R137). -/
def reportVal : Option LossResult → Val
  | none => .dash
  | some .openPath => .word "OPEN"
  | some (.value v nocal edge sat) => .loss v (flagWords nocal edge sat)

/-- The fields of REPORT? (R137). -/
def reportFields : Option Report → List Field
  | none => [.bare .dash]
  | some p =>
    [.keyed "STEP" (vnum p.step), .keyed "PASS" (vnum p.pass), .keyed "TN" (vnum p.number), .keyed "F" (vnum p.freq),
     .keyed "SPREAD" (vnum p.spread), .keyed "BAL" (bit p.balance), .keyed "N" (vnum p.results.length)]
    ++ p.results.map fun x => .part (vnum x.1) (reportVal x.2)

/-- REPORT? (R137). -/
def execReportQuery (plus : Bool) (s : State) : Result :=
  command (.reportQuery plus) plus (fun s => answer plus (ok (reportFields s.ring.report)) s) s

/-- The `DWELL=` field of RING? (R139). -/
def dwellVal (s : State) : Val :=
  match s.ring.state with
  | .dwelling => optNum (dwellToRun s)
  | .held => optNum s.ring.keptDwell
  | _ => .dash

/-- The fields of RING? (R139). -/
def ringFields (s : State) : List Field :=
  let g := s.ring
  [.keyed "S" (.word (ringName g.state)), .keyed "L" (vnum g.len), .keyed "I" (vnum g.ptr), .keyed "V" (vnum g.visit),
   .keyed "PASS" (vnum g.pass), .keyed "DWELL" (dwellVal s), .keyed "TRIG" (bit g.pendingTrig),
   .keyed "OVR" (bit g.overrun), .keyed "HOLD" (bit g.holdPending),
   .keyed "CAUSE" (match g.halt with | some h => .word (haltName h.1) | none => .dash),
   .keyed "DETAIL" (match g.halt with | some h => h.2 | none => .dash)]

/-- RING? (R139). -/
def execRingQuery (plus : Bool) (s : State) : Result :=
  command (.ringQuery plus) plus (fun s => answer plus (ok (ringFields s))
    (if s.ring.state = .dwelling then dwellRead s else s)) s

end Sys2Proof.Machine
end

