-- ==== Sys2Proof/Machine/Cards.lean ====
section
/-! DEFINITION. The card commands and events (chapter 7). Card states and the bus stand in CardBus.lean. One `exec…` per
row of the opcode table. -/

namespace Sys2Proof.Machine

/-! ### Poll rounds and discovery (R146, R149, R150) -/

/-- POLL_GAP_EXPIRY (R149): a round begins. -/
def execPollGapExpiry (s : State) : Result :=
  event .pollGapExpiry (fun s =>
    if s.bus.pollTimer.isSome then roundAt 0 (s.setBus { s.bus with pollTimer := none }) else s) s

/-- POLL_ANSWER: of a poll round (R150), or of discovery (R146; log entry 8). -/
def execPollAnswer (supplyGood overcurrent : Bool) (s : State) : Result :=
  event (.pollAnswer supplyGood overcurrent) (pollDone (pollClass supplyGood overcurrent)) s

/-! ### Restarts (R147, R148) -/

/-- The refusal of CARD n RESTART (R148). -/
def restartRefusal (s : State) (n : Nat) : Option Reply :=
  if (cardAt s n).state = .absent then some (er .absent)
  else if (cardAt s n).state = .restarting then some (er .busy)
  else if s.engine.mode ≠ .idle then some (erWith .busy (.word "ENGINE"))
  else (appliedWhere s fun r => claimsAny r (elemsOnCard s n)).map fun r => erWith .inuse (vnum r)

/-- CARD n RESTART (R148). -/
def execCardRestart (plus : Bool) (n : Nat) (s : State) : Result :=
  command (.cardRestart plus n) plus (fun s => match restartRefusal s n with
    | some r => answer plus r s
    | none => answer plus (ok [.bare (vnum n), .bare (.word "RESTARTING")]) (beginRestart n s)) s

/-- The restart stage of card `n` replaced (R147). -/
def setRestart (n : Nat) (g : RestartStage) (s : State) : State := setCard n { cardAt s n with restart := some g } s

/-- RESTART_ACK (R147 step 3): the 10 ms wait begins. -/
def execRestartAck (s : State) : Result :=
  event .restartAck (fun s => match s.bus.tx with
    | some (.restart n) => setRestart n .waiting (setTx none s)
    | _ => s) s

/-- RESTART_WAIT_EXPIRY (R147 step 4): the restart's POLL waits for the bus. -/
def execRestartWaitExpiry (n : Nat) (s : State) : Result :=
  event (.restartWaitExpiry n) (fun s =>
    if (cardAt s n).restart = some .waiting then setRestart n .wantPoll s else s) s

/-- RESTART_POLL_ANSWER (R147 step 5). -/
def execRestartPollAnswer (supplyGood overcurrent : Bool) (s : State) : Result :=
  event (.restartPollAnswer supplyGood overcurrent) (fun s => match s.bus.tx with
    | some (.pollRestart n) => restartPolled n (pollClass supplyGood overcurrent) (setTx none s)
    | _ => s) s

/-! ### CACK and queries (R154, R155) -/

/-- A card record with both change flags clear (R154). -/
def ackCard (c : Card) : Card := { c with presenceChg := false, stateChg := false }

/-- The number a CACK or FACK names, or ALL. -/
def numOrAll : Option Nat → Val
  | some n => vnum n
  | none => .word "ALL"

/-- CACK (R154). -/
def execCack (plus : Bool) (n : Option Nat) (s : State) : Result :=
  command (.cack plus n) plus (fun s => answer plus (ok [.bare (numOrAll n)]) (match n with
    | some n => setCard n (ackCard (cardAt s n)) s
    | none => s.setCards (bmap cardReset ackCard s.cards))) s

/-- The fields of CARD? (R155). -/
def cardFields (s : State) (n : Nat) : List Field :=
  let c := cardAt s n
  [.bare (vnum n), .bare (.word (cardName c.state)), .keyed "PCHG" (bit c.presenceChg), .keyed "SCHG" (bit c.stateChg),
   .keyed "CSF" (bit c.coilFault), .keyed "LAST" (match c.last with | some p => .word (pollName p) | none => .dash),
   .keyed "PULSES" (vnum c.pulses), .keyed "ELEMS" (vnum (elemsOnCard s n).length)]

/-- CARD? (R155). -/
def execCardQuery (plus : Bool) (n : Nat) (s : State) : Result :=
  command (.cardQuery plus n) plus (fun s => answer plus (ok (cardFields s n)) s) s

/-- One field of CARDS? (R155). -/
def cardItem (s : State) (n : Nat) : Field :=
  let c := cardAt s n
  .item n (.word (cardName c.state)) (c.presenceChg || c.stateChg)

/-- CARDS? (R155). -/
def execCardsQuery (plus : Bool) (s : State) : Result :=
  command (.cardsQuery plus) plus (fun s =>
    answer plus (ok ((List.range Config.cards).map (cardItem s))) s) s

end Sys2Proof.Machine
end

