-- ==== Sys2Proof/Machine/Fixtures.lean ====
section
/-! DEFINITION. Fixture Ports (chapter 8): presence, admission, supply faults, owners and queries. One `exec…` per row
of the opcode table. -/

namespace Sys2Proof.Machine

/-! ### Changes of a record (R158, R169, R170) -/

/-- Fixture `n` takes record `f`: the flags of R170 and `!FIXT` when its state or owner changes. -/
def changeFixture (n : Nat) (f : Fixture) (s : State) : State :=
  let old := fixtureAt s n
  let moved := old.state != f.state
  let presence := moved && (old.state == .empty || f.state == .empty)
  let other := (moved && !presence) || old.owner != f.owner
  let s := setFixture n { f with
    presenceChg := f.presenceChg || presence, stateChg := f.stateChg || other } s
  if moved || old.owner != f.owner then notify (.fixt n f.state f.owner) s else s

/-- The fixture is in use: a route of the applied set, or of a transition in flight, ends on it (R158). -/
def fixtureInUse (s : State) (n : Nat) : Bool :=
  (appliedWhere s fun r => endsOnFixture s r n).isSome
  || (inFlight s && match s.engine.trans with | some t => t.fixtures.contains n | none => false)

/-- Fixture `n` leaves ADMITTED for record `f`; `judged` says that its being in use is a fault (R158). -/
def leaveAdmitted (n : Nat) (f : Fixture) (judged : Bool) (s : State) : State :=
  let s := changeFixture n { f with identity := none } s
  let s := if judged && fixtureInUse s n then
      recordFault { plainFault .fixturePulled with
        number := flightNumber s,
        torn := routesWhere s s.engine.applied fun r => endsOnFixture s r n } s
    else s
  fixtureLeft n s

/-! ### Presence (R159 to R161) -/

/-- FPRES of fixture `n` is at a level: the filter's count runs while it is away from the filtered presence (R159).
The filter is stopped in a reset (R156). -/
def fpresAt (n : Nat) (present : Bool) (s : State) : State :=
  let f := fixtureAt s n
  setFixture n { f with fpres := present, counting := s.phase != .inReset && present != f.present } s

/-- FPRES_CHANGE (R159). -/
def execFpresChange (n : Nat) (present : Bool) (s : State) : Result :=
  event (.fpresChange n present) (fpresAt n present) s

/-- The presence filter finds fixture `n` present (R160). -/
def foundPresent (n : Nat) (s : State) : State :=
  let f := fixtureAt s n
  if f.counting && f.fpres && !f.present then
    changeFixture n { f with
      present := true, counting := false, state := if f.state = .empty then .present else f.state } s
  else s

/-- FIXTURE_PRESENT (R160). -/
def execFixturePresent (n : Nat) (s : State) : Result := event (.fixturePresent n) (foundPresent n) s

/-- The record of a fixture found absent (R161). -/
def absentRecord (f : Fixture) : Fixture :=
  { f with present := false, counting := false, state := .empty, stage := none }

/-- The presence filter finds fixture `n` absent (R161). -/
def foundAbsent (n : Nat) (s : State) : State :=
  let f := fixtureAt s n
  if f.counting && !f.fpres && f.present then
    match f.state with
    | .admitted => leaveAdmitted n (absentRecord f) true s
    | .admitting => opEnded (.admission n) (changeFixture n (absentRecord f) s)
    | _ => changeFixture n (absentRecord f) s
  else s

/-- FIXTURE_ABSENT (R161). -/
def execFixtureAbsent (n : Nat) (s : State) : Result := event (.fixtureAbsent n) (foundAbsent n) s

/-! ### Admission (R162 to R166) -/

/-- The lowest applied route that ends on fixture `n` (R162, R167). -/
def appliedOnFixture (s : State) (n : Nat) : Option Nat := appliedWhere s fun r => endsOnFixture s r n

/-- The refusal of ADMIT (R162). -/
def admitRefusal (s : State) (n : Nat) : Option Reply :=
  let f := fixtureAt s n
  if f.state = .empty then some (er .absent)
  else if f.owner = .bench then some (er .unavail)
  else if f.state = .admitting then some (er .busy)
  else (appliedOnFixture s n).map fun r => erWith .inuse (vnum r)

/-- An admission begun (R163 step 1); from ADMITTED it is a leaving of ADMITTED (R158). -/
def beginAdmission (n : Nat) (s : State) : State :=
  let f := fixtureAt s n
  let f' := { f with state := .admitting, stage := some (.wait s.site.admitWait), identity := none }
  if f.state = .admitted then leaveAdmitted n f' false s else changeFixture n f' s

/-- ADMIT (R162). -/
def execAdmitFixture (plus : Bool) (n : Nat) (s : State) : Result :=
  command (.admitFixture plus n) plus (fun s => match admitRefusal s n with
    | some r => answer plus r s
    | none => answer plus (ok [.bare (vnum n), .bare (.word "ADMITTING")]) (beginAdmission n s)) s

/-- An admission that fails with result `r` (R163). -/
def failAdmission (n : Nat) (r : AdmitResult) (s : State) : State :=
  opEnded (.admission n) (changeFixture n { fixtureAt s n with
    state := .faulted, stage := none, identity := none, last := some r } s)

/-- The ADMIT_WAIT timer of fixture `n` runs out (R163 steps 3 and 4). -/
def admitWaitEnds (n : Nat) (s : State) : State :=
  let f := fixtureAt s n
  match f.stage with
  | some (.wait _) =>
    if f.fflt then failAdmission n .supply s else setFixture n { f with stage := some .reading } s
  | _ => s

/-- ADMIT_WAIT_EXPIRY (R163). -/
def execAdmitWaitExpiry (n : Nat) (s : State) : Result := event (.admitWaitExpiry n) (admitWaitEnds n) s

/-- A supply fault of an admitted fixture (R166). -/
def supplyFault (n : Nat) (s : State) : State :=
  leaveAdmitted n { fixtureAt s n with state := .faulted, last := some .supply } true s

/-- FFLT watched as a level: an ADMITTED fixture whose FFLT is asserted leaves ADMITTED (R166). -/
def watchSupply (n : Nat) (s : State) : State :=
  let f := fixtureAt s n
  if f.state = .admitted ∧ f.fflt = true then supplyFault n s else s

/-- The coupler loss in an identity record (R164). -/
def couplerOf (b1 b2 : Byte) : Nat := b1.toNat * 256 + b2.toNat

/-- The check byte computed from bytes 0 to 2 (R164). -/
def checkByte (b0 b1 b2 : Byte) : Byte := 0 - (b0 + b1 + b2)

/-- The judgement of an identity record (R164). -/
def judgeIdentity (b0 b1 b2 b3 : Byte) : AdmitResult :=
  if b3 ≠ checkByte b0 b1 b2 then .check
  else if b0 = 0 then .kind
  else if couplerOf b1 b2 > 6000 then .range
  else .ok

/-- An identity record accepted (R163). -/
def acceptIdentity (n : Nat) (b0 b1 b2 : Byte) (s : State) : State :=
  opEnded (.admission n) (changeFixture n { fixtureAt s n with
    state := .admitted, stage := none, identity := some (b0.toNat, couplerOf b1 b2), last := some .ok } s)

/-- The four bytes of an identity record have arrived (R163 step 5, R164, R166). -/
def identityRead (n : Nat) (b0 b1 b2 b3 : Byte) (s : State) : State :=
  if (fixtureAt s n).stage = some .reading then
    match judgeIdentity b0 b1 b2 b3 with
    | .ok => watchSupply n (acceptIdentity n b0 b1 b2 s)
    | r => failAdmission n r s
  else s

/-- IDENTITY_RECORD (R163, R164). -/
def execIdentityRecord (n : Nat) (b0 b1 b2 b3 : Byte) (s : State) : Result :=
  event (.identityRecord n b0 b1 b2 b3) (identityRead n b0 b1 b2 b3) s

/-- IDENTITY_READ_TIMEOUT (R163 step 4). -/
def execIdentityReadTimeout (n : Nat) (s : State) : Result :=
  event (.identityReadTimeout n) (fun s =>
    if (fixtureAt s n).stage = some .reading then failAdmission n .noid s else s) s

/-- FFLT_ASSERTED (R166). -/
def execFfltAsserted (n : Nat) (s : State) : Result :=
  event (.ffltAsserted n) (fun s => watchSupply n (setFixture n { fixtureAt s n with fflt := true } s)) s

/-- FFLT_DEASSERTED (R166): the level alone changes. -/
def execFfltDeasserted (n : Nat) (s : State) : Result :=
  event (.ffltDeasserted n) (fun s => setFixture n { fixtureAt s n with fflt := false } s) s

/-! ### Owners (R167, R168) -/

/-- Fixture `n` handed to the bench panel (R167). -/
def toBench (n : Nat) (s : State) : State :=
  let f := fixtureAt s n
  let f' := { f with owner := .bench, state := .present, stage := none }
  match f.state with
  | .empty => changeFixture n { f with owner := .bench } s
  | .present => changeFixture n f' s
  | .admitting => opEnded (.admission n) (changeFixture n f' s)
  | .admitted => leaveAdmitted n f' false s
  | .faulted => changeFixture n f' s

/-- OWNER n BENCH (R167). -/
def execOwnerBench (plus : Bool) (n : Nat) (s : State) : Result :=
  command (.ownerBench plus n) plus (fun s => match appliedOnFixture s n with
    | some r => answer plus (erWith .inuse (vnum r)) s
    | none => answer plus (ok [.bare (vnum n), .bare (.word "BENCH")])
        (if (fixtureAt s n).owner = .bench then s else toBench n s)) s

/-- OWNER n LOCAL (R168); a fixture that is LOCAL already stays as it is. -/
def execOwnerLocal (plus : Bool) (n : Nat) (s : State) : Result :=
  command (.ownerLocal plus n) plus (fun s => answer plus (ok [.bare (vnum n), .bare (.word "LOCAL")])
    (if (fixtureAt s n).owner = .localOwner then s
     else changeFixture n { fixtureAt s n with owner := .localOwner } s)) s

/-! ### FACK and queries (R171, R172) -/

/-- A fixture record with both change flags clear (R171). -/
def ackFixture (f : Fixture) : Fixture := { f with presenceChg := false, stateChg := false }

/-- FACK (R171). -/
def execFack (plus : Bool) (n : Option Nat) (s : State) : Result :=
  command (.fack plus n) plus (fun s => answer plus (ok [.bare (numOrAll n)]) (match n with
    | some n => setFixture n (ackFixture (fixtureAt s n)) s
    | none => s.setFixtures (bmap fixtureReset ackFixture s.fixtures))) s

/-- The port bound to fixture index `n` (R29, R172). -/
def boundPort (s : State) (n : Nat) : Val :=
  match tkeys (fun _ q => q.fixture == some n) s.net.ports with
  | p :: _ => .port p
  | [] => .dash

/-- The fields of FIX? (R172). -/
def fixFields (s : State) (n : Nat) : List Field :=
  let f := fixtureAt s n
  [.bare (vnum n), .bare (.word (fixName f.state)), .keyed "OWNER" (.word (ownerName f.owner)),
   .keyed "PRES" (bit f.present), .keyed "POWER" (bit (fixturePower s n)),
   .keyed "KIND" (match f.identity with | some i => vnum i.1 | none => .dash),
   .keyed "COUPLER" (match f.identity with | some i => vnum i.2 | none => .dash),
   .keyed "LAST" (match f.last with | some r => .word (admitName r) | none => .dash),
   .keyed "PCHG" (bit f.presenceChg), .keyed "SCHG" (bit f.stateChg), .keyed "PORT" (boundPort s n)]

/-- FIX? (R172). -/
def execFixQuery (plus : Bool) (n : Nat) (s : State) : Result :=
  command (.fixQuery plus n) plus (fun s => answer plus (ok (fixFields s n)) s) s

/-- One field of FIXES? (R172). -/
def fixItem (s : State) (n : Nat) : Field :=
  let f := fixtureAt s n
  .item n (.slash (fixName f.state) (ownerName f.owner)) (f.presenceChg || f.stateChg)

/-- FIXES? (R172). -/
def execFixesQuery (plus : Bool) (s : State) : Result :=
  command (.fixesQuery plus) plus (fun s =>
    answer plus (ok ((List.range Config.fixtures).map (fixItem s))) s) s

end Sys2Proof.Machine
end

