-- ==== Sys2Proof/Machine/Interlock.lean ====
section
/-! DEFINITION. Interlocks and RF mute (chapter 9). The permit and MUTE_REQ stand in Flags.lean, what a permit loss does
to the engine in Engine.lean. One `exec…` per row of the opcode table. -/

namespace Sys2Proof.Machine

/-! ### Loops (R173, R174) -/

/-- The input of loop `n` is at a level: the filter's count runs while it is away from the filtered state (R173). The
filters are stopped in a reset. -/
def loopInputAt (n : Nat) (closed : Bool) (s : State) : State :=
  let l := loopAt s n
  setLoop n { l with input := closed, counting := s.phase != .inReset && closed != l.closed } s

/-- LOOP_INPUT_CHANGE (R173). -/
def execLoopInputChange (n : Nat) (closed : Bool) (s : State) : Result :=
  event (.loopInputChange n closed) (loopInputAt n closed) s

/-- `!PERM` (R176). -/
def permNotice (s : State) : Notice :=
  .perm (permit s) (loopReport (loopAt s 1)) (loopReport (loopAt s 2)) (loopReport (loopAt s 3))
    (loopReport (loopAt s 4))

/-- The confirmed flag of every loop cleared (R174, R175). -/
def clearConfirmed (s : State) : State := s.setLoops (bmap loopReset (fun l => { l with confirmed := false }) s.loops)

/-- The filter finds loop `n` OPEN (R174, R177). -/
def loopOpens (n : Nat) (s : State) : State :=
  let l := loopAt s n
  if l.counting && !l.input && l.closed then
    let had := permit s
    let s := clearConfirmed (setLoop n { l with closed := false, counting := false } s)
    let s := notify (permNotice s) s
    if had then permitLost s else s
  else s

/-- LOOP_OPENED (R174). -/
def execLoopOpened (n : Nat) (s : State) : Result := event (.loopOpened n) (loopOpens n) s

/-- The filter finds loop `n` CLOSED (R174). -/
def loopCloses (n : Nat) (s : State) : State :=
  let l := loopAt s n
  if l.counting && l.input && !l.closed then
    let s := setLoop n { l with closed := true, confirmed := false, counting := false } s
    notify (permNotice s) s
  else s

/-- LOOP_CLOSED (R174). -/
def execLoopClosed (n : Nat) (s : State) : Result := event (.loopClosed n) (loopCloses n) s

/-! ### CONFIRM (R175, R176) -/

/-- Some loop is confirmed. -/
def anyConfirmed (s : State) : Bool := [1, 2, 3, 4].any fun n => (loopAt s n).confirmed

/-- CONFIRM's effect, its reply formed before the notice it causes (R175, R176). Which of the two is sent first while an
earlier reply fills the reply slot is the model's choice (log entry 47). -/
def confirmLoop (plus : Bool) (n : Nat) (s : State) : State :=
  let l := loopAt s n
  if l.closed then
    let t := setLoop n { l with confirmed := true } s
    let u := answer plus (ok [.bare (vnum n), .keyed "P" (bit (permit t))]) t
    if l.confirmed then u else notify (permNotice t) u
  else
    let t := clearConfirmed s
    let u := answer plus (erWith .openLoop (.loop n)) t
    if anyConfirmed s then notify (permNotice t) u else u

/-- CONFIRM (R175). -/
def execConfirm (plus : Bool) (n : Nat) (s : State) : Result :=
  command (.confirm plus n) plus (confirmLoop plus n) s

/-! ### Queries (R178, R183) -/

/-- The report of loop `n` as a value. -/
def loopVal (s : State) (n : Nat) : Val := .word (loopName (loopReport (loopAt s n)))

/-- ILK? (R178). -/
def execIlkQuery (plus : Bool) (s : State) : Result :=
  command (.ilkQuery plus) plus (fun s => answer plus (ok
    [.keyed "P" (bit (permit s)), .keyed "L1" (loopVal s 1), .keyed "L2" (loopVal s 2), .keyed "L3" (loopVal s 3),
     .keyed "L4" (loopVal s 4)]) s) s

/-- MUTE? (R183). -/
def execMuteQuery (plus : Bool) (s : State) : Result :=
  command (.muteQuery plus) plus (fun s => answer plus (ok
    [.keyed "M" (bit (muteReq s)), .keyed "ENG" (bit s.engine.mute), .keyed "EXP" (bit (exposure s)),
     .keyed "LATCH" (bit s.latch)]) s) s

end Sys2Proof.Machine
end

