-- ==== Sys2Proof/Machine/Records.lean ====
section
/-! DEFINITION. Element condition, fault records and wear (chapter 10). Recording a fault, counting a drive and late
events stand in Ops.lean. One `exec…` per row of the opcode table. -/

namespace Sys2Proof.Machine

/-! ### ECLR (R184) -/

/-- The refusal of ECLR (R184). -/
def eclrRefusal (s : State) (e : Nat) : Option Reply :=
  if (elemAt s e).isNone then some (er .undef)
  else if engineEngaged s then some (er .busy)
  else (appliedWhere s fun r => claimsElem r e).map fun r => erWith .inuse (vnum r)

/-- ECLR's effect (R184). -/
def clearElem (e : Nat) (s : State) : State :=
  let s := updElem e (fun x => if x.faulted then { x with faulted := false, pos := none } else x) s
  match s.engine.holder with
  | some a => if a.elem = e then s.setEngine { s.engine with holder := none } else s
  | none => s

/-- ECLR (R184). -/
def execEclr (plus : Bool) (e : Nat) (s : State) : Result :=
  command (.eclr plus e) plus (fun s => match eclrRefusal s e with
    | some r => answer plus r s
    | none => answer plus (ok [.bare (vnum e)]) (clearElem e s)) s

/-! ### The fault record (R187) -/

/-- Route ids joined by commas, or `-`. -/
def idList : List Nat → Val
  | [] => .dash
  | l => .commaNums l

/-- The fields of FAULT? (R187). -/
def faultFields (more : Nat) : Option FaultRec → List Field
  | none => [.bare .dash]
  | some f =>
    [.keyed "CAUSE" (.word (faultName f.cause)), .keyed "E" (optNum f.elem), .keyed "CMD" (optNum f.commanded),
     .keyed "IND" (match f.indicated with | some k => indicatedVal k | none => .dash),
     .keyed "TN" (optNum f.number), .keyed "STEP" (optNum f.step), .keyed "TORN" (idList f.torn),
     .keyed "MORE" (vnum more)]

/-- FAULT? (R187). -/
def execFaultQuery (plus : Bool) (s : State) : Result :=
  command (.faultQuery plus) plus (fun s => answer plus (ok (faultFields s.records.more s.records.fault)) s) s

/-- FCLEAR (R187). -/
def execFclear (plus : Bool) (s : State) : Result :=
  command (.fclear plus) plus (fun s =>
    answer plus (ok []) (s.setRecords { s.records with fault := none, more := 0 })) s

/-! ### Late readbacks (R189) -/

/-- LATE? (R189). -/
def execLateQuery (plus : Bool) (s : State) : Result :=
  command (.lateQuery plus) plus (fun s => answer plus (ok
    [.keyed "LATE" (vnum s.records.late), .keyed "LIMIT" (vnum s.site.lateLimit)]) s) s

/-- LATECLR (R189). -/
def execLateclr (plus : Bool) (s : State) : Result :=
  command (.lateclr plus) plus (fun s => answer plus (ok [])
    (s.setRecords { s.records with
      late := 0, wear := bmap wearZero (fun w => { w with late := 0 }) s.records.wear })) s

/-! ### Wear (R191, R192) -/

/-- WEARSET (R191). -/
def execWearset (plus : Bool) (e count : Nat) (s : State) : Result :=
  command (.wearset plus e count) plus (fun s => answer plus (ok [.bare (vnum e), .bare (vnum count)])
    (s.setRecords { s.records with
      wear := bput wearZero s.records.wear e { wearAt s e with count := count, noticed := false } })) s

/-- WEAR? (R191). -/
def execWearQuery (plus : Bool) (e : Nat) (s : State) : Result :=
  command (.wearQuery plus e) plus (fun s =>
    let w := wearAt s e
    answer plus (ok
      [.bare (vnum e), .keyed "COUNT" (vnum w.count),
       .keyed "LIMIT" (match elemAt s e with | some x => vnum x.life | none => .dash),
       .keyed "NOTICED" (bit w.noticed), .keyed "LATE" (vnum w.late)]) s) s

/-- WEARSAVE (R192): a store write of the counts held now. -/
def execWearsave (plus : Bool) (s : State) : Result :=
  command (.wearsave plus) plus (fun s => beginWrite plus (.wear (wearCounts s)) s) s

end Sys2Proof.Machine
end

