-- ==== Sys2Proof/Machine/Dispatch.lean ====
section
/-! DEFINITION. The meaning of every command: one arm per row of the opcode table. -/

namespace Sys2Proof.Machine

def exec (i : Instr) (s : State) : Host.Outcome State Fault Refusal :=
  match i with
  | .powerOn => Sys2Proof.Machine.execPowerOn s
  | .resetNAsserted => Sys2Proof.Machine.execResetNAsserted s
  | .reset plus => Sys2Proof.Machine.execReset plus s
  | .resetEnd => Sys2Proof.Machine.execResetEnd s
  | .discoveryEnd => Sys2Proof.Machine.execDiscoveryEnd s
  | .lineReceived chars framingError => Sys2Proof.Machine.execLineReceived chars framingError s
  | .syntaxRefusal => Sys2Proof.Machine.execSyntaxRefusal s
  | .lineSent => Sys2Proof.Machine.execLineSent s
  | .noteGapExpiry => Sys2Proof.Machine.execNoteGapExpiry s
  | .note plus change => Sys2Proof.Machine.execNote plus change s
  | .stat plus => Sys2Proof.Machine.execStat plus s
  | .sync plus => Sys2Proof.Machine.execSync plus s
  | .site plus name value => Sys2Proof.Machine.execSite plus name value s
  | .sitesave plus => Sys2Proof.Machine.execSitesave plus s
  | .wipe plus => Sys2Proof.Machine.execWipe plus s
  | .storeWriteEnd result => Sys2Proof.Machine.execStoreWriteEnd result s
  | .elem plus e kind n card slot pulse settle guard life => Sys2Proof.Machine.execElem plus e kind n card slot pulse settle guard life s
  | .elemdel plus e => Sys2Proof.Machine.execElemdel plus e s
  | .port plus p cls fixture => Sys2Proof.Machine.execPort plus p cls fixture s
  | .portdel plus p => Sys2Proof.Machine.execPortdel plus p s
  | .leg plus a b => Sys2Proof.Machine.execLeg plus a b s
  | .legCut plus a => Sys2Proof.Machine.execLegCut plus a s
  | .elemQuery plus e => Sys2Proof.Machine.execElemQuery plus e s
  | .portQuery plus p => Sys2Proof.Machine.execPortQuery plus p s
  | .legQuery plus a => Sys2Proof.Machine.execLegQuery plus a s
  | .netQuery plus => Sys2Proof.Machine.execNetQuery plus s
  | .ecal plus e k slot => Sys2Proof.Machine.execEcal plus e k slot s
  | .pcal plus p slot => Sys2Proof.Machine.execPcal plus p slot s
  | .rel plus e => Sys2Proof.Machine.execRel plus e s
  | .unrel plus e => Sys2Proof.Machine.execUnrel plus e s
  | .relQuery plus => Sys2Proof.Machine.execRelQuery plus s
  | .lock plus => Sys2Proof.Machine.execLock plus s
  | .unlock plus => Sys2Proof.Machine.execUnlock plus s
  | .curve plus c points => Sys2Proof.Machine.execCurve plus c points s
  | .curvedel plus c => Sys2Proof.Machine.execCurvedel plus c s
  | .curveQuery plus c => Sys2Proof.Machine.execCurveQuery plus c s
  | .loss plus r f => Sys2Proof.Machine.execLoss plus r f s
  | .lossParts plus r f => Sys2Proof.Machine.execLossParts plus r f s
  | .bal plus limit => Sys2Proof.Machine.execBal plus limit s
  | .route plus r src dst hops => Sys2Proof.Machine.execRoute plus r src dst hops s
  | .find plus r src dst guarded => Sys2Proof.Machine.execFind plus r src dst guarded s
  | .routedel plus r => Sys2Proof.Machine.execRoutedel plus r s
  | .routeQuery plus r => Sys2Proof.Machine.execRouteQuery plus r s
  | .routesQuery plus state => Sys2Proof.Machine.execRoutesQuery plus state s
  | .go plus ids => Sys2Proof.Machine.execGo plus ids s
  | .muteAckAsserted => Sys2Proof.Machine.execMuteAckAsserted s
  | .muteAckDeasserted => Sys2Proof.Machine.execMuteAckDeasserted s
  | .muteWaitExpiry => Sys2Proof.Machine.execMuteWaitExpiry s
  | .driveAcknowledged => Sys2Proof.Machine.execDriveAcknowledged s
  | .cardNoAnswer => Sys2Proof.Machine.execCardNoAnswer s
  | .pulseEnd e => Sys2Proof.Machine.execPulseEnd e s
  | .settleEnd e => Sys2Proof.Machine.execSettleEnd e s
  | .senseResult indicated => Sys2Proof.Machine.execSenseResult indicated s
  | .retryDelayExpiry e => Sys2Proof.Machine.execRetryDelayExpiry e s
  | .halt plus => Sys2Proof.Machine.execHalt plus s
  | .survey plus => Sys2Proof.Machine.execSurvey plus s
  | .engineQuery plus => Sys2Proof.Machine.execEngineQuery plus s
  | .aheadQuery plus => Sys2Proof.Machine.execAheadQuery plus s
  | .step plus n dwell rep freq flags ids => Sys2Proof.Machine.execStep plus n dwell rep freq flags ids s
  | .stepdel plus n => Sys2Proof.Machine.execStepdel plus n s
  | .stepQuery plus n => Sys2Proof.Machine.execStepQuery plus n s
  | .ring plus len => Sys2Proof.Machine.execRing plus len s
  | .run plus n => Sys2Proof.Machine.execRun plus n s
  | .markTimerExpiry => Sys2Proof.Machine.execMarkTimerExpiry s
  | .dwellExpiry => Sys2Proof.Machine.execDwellExpiry s
  | .trigIn => Sys2Proof.Machine.execTrigIn s
  | .trig plus => Sys2Proof.Machine.execTrig plus s
  | .hold plus => Sys2Proof.Machine.execHold plus s
  | .resume plus => Sys2Proof.Machine.execResume plus s
  | .stop plus => Sys2Proof.Machine.execStop plus s
  | .reportQuery plus => Sys2Proof.Machine.execReportQuery plus s
  | .ringQuery plus => Sys2Proof.Machine.execRingQuery plus s
  | .pollGapExpiry => Sys2Proof.Machine.execPollGapExpiry s
  | .pollAnswer supplyGood overcurrent => Sys2Proof.Machine.execPollAnswer supplyGood overcurrent s
  | .cardRestart plus n => Sys2Proof.Machine.execCardRestart plus n s
  | .restartAck => Sys2Proof.Machine.execRestartAck s
  | .restartWaitExpiry n => Sys2Proof.Machine.execRestartWaitExpiry n s
  | .restartPollAnswer supplyGood overcurrent => Sys2Proof.Machine.execRestartPollAnswer supplyGood overcurrent s
  | .cack plus n => Sys2Proof.Machine.execCack plus n s
  | .cardQuery plus n => Sys2Proof.Machine.execCardQuery plus n s
  | .cardsQuery plus => Sys2Proof.Machine.execCardsQuery plus s
  | .fpresChange n present => Sys2Proof.Machine.execFpresChange n present s
  | .fixturePresent n => Sys2Proof.Machine.execFixturePresent n s
  | .fixtureAbsent n => Sys2Proof.Machine.execFixtureAbsent n s
  | .admitFixture plus n => Sys2Proof.Machine.execAdmitFixture plus n s
  | .admitWaitExpiry n => Sys2Proof.Machine.execAdmitWaitExpiry n s
  | .identityRecord n b0 b1 b2 b3 => Sys2Proof.Machine.execIdentityRecord n b0 b1 b2 b3 s
  | .identityReadTimeout n => Sys2Proof.Machine.execIdentityReadTimeout n s
  | .ffltAsserted n => Sys2Proof.Machine.execFfltAsserted n s
  | .ownerBench plus n => Sys2Proof.Machine.execOwnerBench plus n s
  | .ownerLocal plus n => Sys2Proof.Machine.execOwnerLocal plus n s
  | .fack plus n => Sys2Proof.Machine.execFack plus n s
  | .fixQuery plus n => Sys2Proof.Machine.execFixQuery plus n s
  | .fixesQuery plus => Sys2Proof.Machine.execFixesQuery plus s
  | .loopInputChange n closed => Sys2Proof.Machine.execLoopInputChange n closed s
  | .loopOpened n => Sys2Proof.Machine.execLoopOpened n s
  | .loopClosed n => Sys2Proof.Machine.execLoopClosed n s
  | .confirm plus n => Sys2Proof.Machine.execConfirm plus n s
  | .ilkQuery plus => Sys2Proof.Machine.execIlkQuery plus s
  | .muteQuery plus => Sys2Proof.Machine.execMuteQuery plus s
  | .eclr plus e => Sys2Proof.Machine.execEclr plus e s
  | .faultQuery plus => Sys2Proof.Machine.execFaultQuery plus s
  | .fclear plus => Sys2Proof.Machine.execFclear plus s
  | .lateQuery plus => Sys2Proof.Machine.execLateQuery plus s
  | .lateclr plus => Sys2Proof.Machine.execLateclr plus s
  | .wearset plus e count => Sys2Proof.Machine.execWearset plus e count s
  | .wearQuery plus e => Sys2Proof.Machine.execWearQuery plus e s
  | .wearsave plus => Sys2Proof.Machine.execWearsave plus s
  | .ffltDeasserted n => Sys2Proof.Machine.execFfltDeasserted n s

end Sys2Proof.Machine
end

