-- ==== Sys2Proof/Safety.lean ====
section
/-! DEFINITION. What counts as a safe state and a safe run, in the terms the claims use. -/

namespace Sys2Proof.Machine

/-- Nothing waits for a free bus: handing it on changes nothing (R144). -/
def Quiet (s : State) : Prop := grantBus s = s

/-- The state after a command that left `u` is answered with reply `r`, and all that follows at once has followed. -/
def replied (plus : Bool) (r : Reply) (u : State) : State := settle (answer plus r u)

/-- The repeat count that bounds the visit counter: that of the step at the pointer, 1 when it is undefined (R120). -/
def visitLimit (s : State) : Nat :=
  match stepAt s s.ring.ptr with
  | some st => st.rep
  | none => 1

/-- The ring's four numbers stand in their ranges, and every defined step has a repeat of 1 to 16 (R116, R120). -/
def RingSafe (s : State) : Prop :=
  (1 ≤ s.ring.len ∧ s.ring.len ≤ 512) ∧ s.ring.ptr < s.ring.len ∧ (1 ≤ s.ring.visit ∧ s.ring.visit ≤ visitLimit s)
  ∧ s.ring.pass ≤ 65535 ∧ ∀ p ∈ s.ring.steps, 1 ≤ p.2.rep ∧ p.2.rep ≤ 16

/-- The line queue holds at most 8 lines and the notice queue at most 32 notices (R2, R8). -/
def LinkSafe (s : State) : Prop := s.link.lines.length ≤ 8 ∧ s.link.notices.length ≤ 32

/-- No card has more than 2 coil pulses in progress (R145); the count is that of `DrivesSafe`. -/
def BudgetSafe (s : State) : Prop := ∀ n, (cardAt s n).pulses ≤ 2

/-- Every table stands in its canonical form: its record numbers strictly rise. -/
def TablesSafe (s : State) : Prop :=
  tableWf s.net.elems = true ∧ tableWf s.net.ports = true ∧ tableWf s.routes = true ∧ tableWf s.ring.steps = true
  ∧ tableWf s.cards = true ∧ tableWf s.fixtures = true ∧ tableWf s.loops = true ∧ tableWf s.records.wear = true
  ∧ tableWf s.images = true ∧ tableWf s.store.curves = true

/-- The applied set holds each route once, in ascending order, and while a transition is in flight only routes of its old
set: routes leave it then, and enter at the end (R85, R98). The order is the model's own (log entry 27). -/
def AppliedSafe (s : State) : Prop :=
  s.engine.applied.Pairwise (fun a b => a < b)
  ∧ ∀ t, inFlight s = true → s.engine.trans = some t → ∀ r ∈ s.engine.applied, r ∈ t.old

/-- The mute law (R91, R93, R101): a transition in MUTING has the contribution raised; in BREAK and MAKE a transition
that needs mute keeps it raised, a stopped transition has no drive left to issue, and one that is not stopped has
MUTE_ACK asserted or no EM drive left to issue or in progress. -/
def MuteSafe (s : State) : Prop :=
  ∀ t, s.engine.trans = some t →
    (s.engine.mode = .muting → s.engine.mute = true ∧ t.muteNeeded = true ∧ t.stop = none)
    ∧ (s.engine.mode = .breaking ∨ s.engine.mode = .making → t.muteNeeded = true →
        s.engine.mute = true
        ∧ (t.stop ≠ none → t.brkTodo = [] ∧ t.makTodo = [])
        ∧ (t.stop = none → s.muteAck = true ∨ emDriveLeft s t = false))

/-- Each terminal has at most one leg, and no leg joins a terminal to itself (R32). -/
def LegsSafe (s : State) : Prop :=
  (∀ l ∈ s.net.legs, l.1 ≠ l.2)
  ∧ s.net.legs.Pairwise fun l m => l.1 ≠ m.1 ∧ l.1 ≠ m.2 ∧ l.2 ≠ m.1 ∧ l.2 ≠ m.2

/-- The terminal at which a hop is entered (R65). -/
def entryOf (h : Hop) : Terminal := if h.entersCommon then .common h.elem else .throw h.elem h.pos

/-- The terminal at which a hop is left (R65). -/
def exitOf (h : Hop) : Terminal := if h.entersCommon then .throw h.elem h.pos else .common h.elem

/-- The hops form a continuous path from exit terminal `a` to port `dst` over the legs (R65). -/
def Continuous (s : State) (dst : Nat) : Terminal → List Hop → Prop
  | a, [] => partner s a = some (.port dst)
  | a, h :: l => partner s a = some (entryOf h) ∧ Continuous s dst (exitOf h) l

/-- The hops connect from exit terminal `a`, and the last of them is left at terminal `b` (R65). -/
def Connects (s : State) : Terminal → List Hop → Terminal → Prop
  | a, [], b => a = b
  | a, h :: l, b => partner s a = some (entryOf h) ∧ Connects s (exitOf h) l b

/-- Entry `x` of a route search extends entry `t` by one hop (R70, R71): through the element at whose terminal `t`
arrives, which the path has not used yet and which is no guarded element the search may not use, to the far end of the
leg at the hop's exit. An entry of 12 hops is not extended. -/
def Extends (s : State) (guarded : Bool) (t x : Entry) : Prop :=
  ∃ h e, entryOf h = t.1 ∧ elemAt s h.elem = some e ∧ (h.entersCommon = true → 1 ≤ h.pos ∧ h.pos ≤ e.n)
    ∧ (∀ k ∈ t.2, k.elem ≠ h.elem) ∧ (e.guarded = true → guarded = true) ∧ t.2.length < 12
    ∧ partner s (exitOf h) = some x.1 ∧ x.2 = t.2 ++ [h]

/-- The position of an entry's last hop, by which the extensions of one entry are ordered (R70). -/
def lastThrow (x : Entry) : Nat :=
  match x.2.getLast? with
  | some h => h.pos
  | none => 0

/-- `a` is the first member of `l` with property `p`. -/
def FirstWith {α : Type} (p : α → Prop) (l : List α) (a : α) : Prop :=
  ∃ before after, l = before ++ a :: after ∧ (∀ b ∈ before, ¬p b) ∧ p a

/-- The coil pulses of drives in progress on card `n` (R145). -/
def pulsesOn (s : State) (n : Nat) : Nat :=
  (s.engine.active.filter fun d => pulsing d && (elemAt s d.elem).any fun x => x.card == n).length

/-- The drives in progress are of defined elements, one each, and none of them waits to be issued again; no element
stands twice in a list of drives; none is in progress in IDLE, MUTING and SURVEY; an element waits for its readback once,
while its drive's readback is due; and each card's count of coil pulses is the number of its drives whose pulse is in
progress (R94, R96, R145). -/
def DrivesSafe (s : State) : Prop :=
  (∀ n, (cardAt s n).pulses = pulsesOn s n)
  ∧ (s.engine.active.map fun d => d.elem).Nodup
  ∧ (∀ d ∈ s.engine.active, elemAt s d.elem ≠ none)
  ∧ (∀ p ∈ waitingDrives s, ∀ d ∈ s.engine.active, p.1 ≠ d.elem)
  ∧ (s.engine.staging.todo.map fun p => p.1).Nodup
  ∧ (∀ t, s.engine.trans = some t → t.brkTodo.Nodup ∧ (t.makTodo.map fun p => p.1).Nodup)
  ∧ (s.engine.mode = .idle ∨ s.engine.mode = .muting ∨ s.engine.mode = .survey → s.engine.active = [])
  ∧ s.engine.due.Nodup
  ∧ (∀ e ∈ s.engine.due, ∃ d ∈ s.engine.active, d.elem = e ∧ ∃ retry, d.stage = .senseDue retry)

/-- Two routes conflict: they claim one element, or a port is an end of both (R80). -/
def Conflicting (x y : Route) : Prop :=
  (∃ h ∈ x.hops, ∃ k ∈ y.hops, h.elem = k.elem) ∨ x.src = y.src ∨ x.src = y.dst ∨ x.dst = y.src ∨ x.dst = y.dst

/-- No two routes of the list conflict (R80, R85). -/
def Compatible (s : State) (l : List Nat) : Prop :=
  l.Pairwise fun a b => ∀ x, routeAt s a = some x → ∀ y, routeAt s b = some y → ¬Conflicting x y

/-- The element of a hop stands at the hop's position, its card ENABLED and its condition OK (R85). -/
def InPlace (s : State) (h : Hop) : Prop :=
  ∃ e, elemAt s h.elem = some e ∧ e.pos = some h.pos ∧ cardEnabled s e.card = true ∧ e.faulted = false

/-- The three laws of the applied set (R85): no two of its routes conflict; it holds at most 8, each APPLIED or RETIRING;
and with no transition in flight every element they claim stands at its route's position, usable. R85 states the third
for IDLE and STAGING; it holds in CHECK and SURVEY too. -/
def AppliedLaws (s : State) : Prop :=
  Compatible s s.engine.applied
  ∧ (s.engine.applied.length ≤ 8
    ∧ ∀ r ∈ s.engine.applied, ∃ x, routeAt s r = some x ∧ (x.state = .applied ∨ x.state = .retiring))
  ∧ (inFlight s = false → ∀ r ∈ s.engine.applied, ∀ x, routeAt s r = some x → ∀ h ∈ x.hops, InPlace s h)

/-- While the ring is DWELLING or HELD the applied set is the current group, and the engine is IDLE or STAGING; while it
is ENTERING, a STEP request for the current group waits in CHECK or its transition is in flight (R121, R123). -/
def GroupLaw (s : State) : Prop :=
  (s.ring.state = .dwelling ∨ s.ring.state = .held →
    (s.engine.mode = .idle ∨ s.engine.mode = .staging)
    ∧ (∀ r ∈ s.engine.applied, r ∈ currentGroup s) ∧ ∀ r ∈ currentGroup s, r ∈ s.engine.applied)
  ∧ (s.ring.state = .entering →
    (∃ q, s.engine.waiting = some q ∧ q.origin = .step ∧ q.target = currentGroup s)
    ∨ (inFlight s = true ∧ ∃ t, s.engine.trans = some t ∧ t.origin = .step ∧ t.target = currentGroup s))

/-- No element of the list is claimed by an applied route. -/
def Unclaimed (s : State) (l : List Nat) : Prop := ∀ e ∈ l, appliedClaims s e = false

/-- What the laws rest on outside a transition: groups and requests name at most 8 routes, a route claims an element once,
a DROP's target set is part of the applied set, no GO waits while the ring runs, a DROP is held only where one can be
(R103), staging and survey touch no element of an applied route (R107, R112), the ahead-fault holder names none when a
STEP request may act on it (R111), and a card that is being restarted is RESTARTING (R147). -/
def RequestsSafe (s : State) : Prop :=
  (∀ p ∈ s.ring.steps, p.2.group.length ≤ 8)
  ∧ (∀ p ∈ s.routes, (p.2.hops.map fun h => h.elem).Nodup)
  ∧ (∀ q, s.engine.waiting = some q → s.engine.mode = .check ∧ s.engine.dropHeld = false ∧ q.target.length ≤ 8
      ∧ (q.origin = .drop → ∀ r ∈ q.target, r ∈ s.engine.applied) ∧ (q.origin = .command → ringRuns s = false))
  ∧ (s.engine.dropHeld = true → s.engine.mode ≠ .idle ∧ s.engine.mode ≠ .staging)
  ∧ (s.engine.mode = .staging ∨ s.engine.mode = .check →
      Unclaimed s (s.engine.active.map fun d => d.elem) ∧ Unclaimed s (s.engine.staging.todo.map fun p => p.1))
  ∧ (if s.engine.mode = .survey then Unclaimed s (s.engine.survey.current.toList ++ s.engine.survey.todo)
      else s.engine.survey.current = none)
  ∧ (ringRuns s = true ∨ (∃ q, s.engine.waiting = some q ∧ q.origin = .step) →
      inFlight s = false → ∀ a, s.engine.holder = some a → appliedClaims s a.elem = false)
  ∧ (∀ n, (cardAt s n).restart ≠ none ∨ s.bus.tx = some (.restart n) ∨ s.bus.tx = some (.pollRestart n) →
      (cardAt s n).state = .restarting)

/-- The element of a hop of the target set stands at the hop's position with no drive to come, or has its last drive still
to be issued or in progress (R89, R90, R95); it is defined and usable. -/
def OnItsWay (s : State) (t : Trans) (h : Hop) : Prop :=
  ∃ e, elemAt s h.elem = some e ∧ cardEnabled s e.card = true ∧ e.faulted = false
    ∧ ((h.elem, h.pos) ∈ t.makTodo ∨ (h.elem ∈ t.brkTodo ∧ h.pos = restOf e.kind)
      ∨ (∃ d ∈ s.engine.active, d.elem = h.elem ∧ d.target = h.pos)
      ∨ (e.pos = some h.pos ∧ h.elem ∉ t.brkTodo ∧ h.elem ∉ t.makTodo.map (fun p => p.1)
        ∧ h.elem ∉ s.engine.active.map fun d => d.elem))

/-- The target set of the transition in flight was admitted by CHECK (R88) and is kept: at most 8 defined routes, no two in
conflict, each pending or not to be redefined (R63, R64); and the applied set is A in MUTING, the routes of A and B after
it (R94). -/
def TargetKept (s : State) (t : Trans) : Prop :=
  t.target.length ≤ 8 ∧ Compatible s t.target
  ∧ (∀ r ∈ t.target, ∃ x, routeAt s r = some x
      ∧ ((x.state = .ready ∧ x.pending = true) ∨ x.state = .applied ∨ x.state = .retiring))
  ∧ s.engine.applied = (if s.engine.mode = .muting then t.old else t.old.filter fun r => t.target.contains r)

/-- The record of the transition in flight: what its routes claim, end on and radiate (log entry 18); that a note or fault
of one of them is a first fault (R99); that the ahead-fault holder is empty in a STEP transition (R111), a held DROP goes
with a stop (R102), and BREAK is over in MAKE (R97). -/
def RecordKept (s : State) (t : Trans) : Prop :=
  (∀ r ∈ s.engine.applied ++ t.target, ∀ x, routeAt s r = some x →
    (∀ h ∈ x.hops, h.elem ∈ t.claimed) ∧ (x.radiates = true → t.radiating = true)
    ∧ ∀ n ∈ (portFixture s x.src).toList ++ (portFixture s x.dst).toList, n ∈ t.fixtures)
  ∧ (t.firstFault = none → t.faultedElems = [] ∧ (∀ e ∈ t.notedElems, e ∉ t.claimed)
      ∧ ∀ n ∈ t.notedFixtures, n ∉ t.fixtures)
  ∧ (t.origin = .step → s.engine.holder = none)
  ∧ (s.engine.dropHeld = true → t.stop ≠ none)
  ∧ (s.engine.mode = .making → t.brkTodo = [])

/-- In a transition in flight the elements of an applied route stand in place or are noted (R105), with no drive to come
unless the route leaves at the start of BREAK (R94); and the elements of a target route come to their positions, unless
the transition was stopped (R101) or they have faulted or been noted. -/
def ElementsKept (s : State) (t : Trans) : Prop :=
  (∀ r ∈ s.engine.applied, ∀ x, routeAt s r = some x → ∀ h ∈ x.hops,
    (InPlace s h ∨ h.elem ∈ t.notedElems)
    ∧ (s.engine.mode ≠ .muting ∨ r ∈ t.target → h.elem ∉ t.brkTodo ∧ h.elem ∉ t.makTodo.map (fun p => p.1)
      ∧ h.elem ∉ s.engine.active.map fun d => d.elem))
  ∧ (t.stop = none → ∀ r ∈ t.target, ∀ x, routeAt s r = some x → ∀ h ∈ x.hops,
      h.elem ∈ t.faultedElems ∨ h.elem ∈ t.notedElems ∨ OnItsWay s t h)

/-- What the laws rest on while a transition is in flight. -/
def FlightSafe (s : State) : Prop :=
  inFlight s = true → ∃ t, s.engine.trans = some t ∧ TargetKept s t ∧ RecordKept s t ∧ ElementsKept s t

/-- The laws of the applied set (R85) and of the current group (R121), with what they rest on. -/
def EngineSafe (s : State) : Prop := AppliedLaws s ∧ GroupLaw s ∧ RequestsSafe s ∧ FlightSafe s

/-- The status suffix asked for by a command line (R6); an event is no command line. -/
def plusOf (i : Instr) : Option Bool :=
  match i with
  | .powerOn => none
  | .resetNAsserted => none
  | .reset plus => some plus
  | .resetEnd => none
  | .discoveryEnd => none
  | .lineReceived _ _ => none
  | .syntaxRefusal => none
  | .lineSent => none
  | .noteGapExpiry => none
  | .note plus _ => some plus
  | .stat plus => some plus
  | .sync plus => some plus
  | .site plus _ _ => some plus
  | .sitesave plus => some plus
  | .wipe plus => some plus
  | .storeWriteEnd _ => none
  | .elem plus _ _ _ _ _ _ _ _ _ => some plus
  | .elemdel plus _ => some plus
  | .port plus _ _ _ => some plus
  | .portdel plus _ => some plus
  | .leg plus _ _ => some plus
  | .legCut plus _ => some plus
  | .elemQuery plus _ => some plus
  | .portQuery plus _ => some plus
  | .legQuery plus _ => some plus
  | .netQuery plus => some plus
  | .ecal plus _ _ _ => some plus
  | .pcal plus _ _ => some plus
  | .rel plus _ => some plus
  | .unrel plus _ => some plus
  | .relQuery plus => some plus
  | .lock plus => some plus
  | .unlock plus => some plus
  | .curve plus _ _ => some plus
  | .curvedel plus _ => some plus
  | .curveQuery plus _ => some plus
  | .loss plus _ _ => some plus
  | .lossParts plus _ _ => some plus
  | .bal plus _ => some plus
  | .route plus _ _ _ _ => some plus
  | .find plus _ _ _ _ => some plus
  | .routedel plus _ => some plus
  | .routeQuery plus _ => some plus
  | .routesQuery plus _ => some plus
  | .go plus _ => some plus
  | .muteAckAsserted => none
  | .muteAckDeasserted => none
  | .muteWaitExpiry => none
  | .driveAcknowledged => none
  | .cardNoAnswer => none
  | .pulseEnd _ => none
  | .settleEnd _ => none
  | .senseResult _ => none
  | .retryDelayExpiry _ => none
  | .halt plus => some plus
  | .survey plus => some plus
  | .engineQuery plus => some plus
  | .aheadQuery plus => some plus
  | .step plus _ _ _ _ _ _ => some plus
  | .stepdel plus _ => some plus
  | .stepQuery plus _ => some plus
  | .ring plus _ => some plus
  | .run plus _ => some plus
  | .markTimerExpiry => none
  | .dwellExpiry => none
  | .trigIn => none
  | .trig plus => some plus
  | .hold plus => some plus
  | .resume plus => some plus
  | .stop plus => some plus
  | .reportQuery plus => some plus
  | .ringQuery plus => some plus
  | .pollGapExpiry => none
  | .pollAnswer _ _ => none
  | .cardRestart plus _ => some plus
  | .restartAck => none
  | .restartWaitExpiry _ => none
  | .restartPollAnswer _ _ => none
  | .cack plus _ => some plus
  | .cardQuery plus _ => some plus
  | .cardsQuery plus => some plus
  | .fpresChange _ _ => none
  | .fixturePresent _ => none
  | .fixtureAbsent _ => none
  | .admitFixture plus _ => some plus
  | .admitWaitExpiry _ => none
  | .identityRecord _ _ _ _ _ => none
  | .identityReadTimeout _ => none
  | .ffltAsserted _ => none
  | .ownerBench plus _ => some plus
  | .ownerLocal plus _ => some plus
  | .fack plus _ => some plus
  | .fixQuery plus _ => some plus
  | .fixesQuery plus => some plus
  | .loopInputChange _ _ => none
  | .loopOpened _ => none
  | .loopClosed _ => none
  | .confirm plus _ => some plus
  | .ilkQuery plus => some plus
  | .muteQuery plus => some plus
  | .eclr plus _ => some plus
  | .faultQuery plus => some plus
  | .fclear plus => some plus
  | .lateQuery plus => some plus
  | .lateclr plus => some plus
  | .wearset plus _ _ => some plus
  | .wearQuery plus _ => some plus
  | .wearsave plus => some plus
  | .ffltDeasserted _ => none

/-- The decoder takes the line of command `i` (R2, R3), which leaves `u`; the line is no long line (R1), and its checks of
count and range pass. -/
def Takes (i : Instr) (s u : State) : Prop := lineFor i s = some u ∧ fitsLine i = true ∧ operandCheck i = none

/-- The topology edits (section 2.2), with the status suffix asked for. -/
def editPlus : Instr → Option Bool
  | .elem plus _ _ _ _ _ _ _ _ _ => some plus
  | .elemdel plus _ => some plus
  | .port plus _ _ _ => some plus
  | .portdel plus _ => some plus
  | .leg plus _ _ => some plus
  | .legCut plus _ => some plus
  | _ => none

/-- A reset begins or goes on in this step: power, RESET_N, start-up, or the reply to RESET leaving (R20, R21). -/
def resets (i : Instr) (s : State) : Bool :=
  match i with
  | .powerOn => true
  | .resetNAsserted => true
  | .resetEnd => true
  | .lineSent => match s.link.slot with | some o => o.thenReset | none => false
  | _ => false

/-- A run of `n` steps from `s` that no fault or refusal stops, through states that satisfy `P`. -/
def SafeRun (P : State → Prop) : Nat → State → Prop
  | 0, s => P s
  | n + 1, s => P s ∧ ∃ t, step s = .next t ∧ SafeRun P n t

end Sys2Proof.Machine
end

