-- ==== Sys2Proof/Certificates/Slice0/Obligations.lean ====
section
/-! DEFINITION. The statements about the machine, for the provers. -/

open Sys2Proof Sys2Proof.Machine

/-! ### The queue of commands, the decoder and the replies (R2 to R9) -/

/-- The command at the front of the queue is taken with the rest of the queue left, and an empty queue idles (the
model's interface; log entry 9). -/
def Obligations.StepTakesTheFrontCommand : Prop :=
  ∀ (c : Instr) (rest : List Instr) (s : State),
    (s.pending = c :: rest → step s = exec c (s.setPending rest)) ∧ (s.pending = [] → step s = .next s)

/-- Which lines the decoder takes, and when (R2, R3, R5, R7, R9; log entry 6). A command that no line of 200 characters
spells is answered as the long line it is, without a suffix (R1; log entry 12); a command line whose operands fail the
decoder's checks is answered by the decoder and reaches no owner (R3, R4); and a command whose line the decoder does
not take changes nothing (log entry 7). A defined curve always fits in a line for slots K0 to K99, and for K100 to K255
unless it has 16 points of the longest form (section 3.3). -/
def Obligations.CommandsAreTakenInOrder : Prop :=
  (∀ (i : Instr) (s u : State),
     (lineFor i s = some u ↔
       (s.phase = .running ∧ s.link.hold = none ∧ s.link.held = none)
       ∧ ((s.link.lines = [] ∧ u = s)
         ∨ ∃ l rest, s.link.lines = l :: rest ∧ decodeLine l = .command i
             ∧ u = s.setLink { s.link with lines := rest })))
  ∧ (∀ (i : Instr) (plus : Bool) (s u : State) (e : ErrCode), plusOf i = some plus →
       (lineFor i s = some u → fitsLine i = false →
         exec i s = .next (replied false (erWith .syntaxErr (.word "LONG")) u))
       ∧ (lineFor i s = some u → fitsLine i = true → operandCheck i = some e →
         exec i s = .next (replied plus (er e) u))
       ∧ (lineFor i s = none → exec i s = .next s))
  ∧ (∀ (c : Nat) (points : Curve), curveOk points = true →
       (c ≤ 99 → fitsLine (.curve false c points) = true)
       ∧ (100 ≤ c → c ≤ 255 → (fitsLine (.curve false c points) = false ↔
           points.length = 16 ∧ ∀ q ∈ points, 10000 ≤ q.1 ∧ (q.2 ≤ -1000 ∨ 10000 ≤ q.2))))

/-- The reply just formed stands in the reply slot, or is held while the slot is full, and with `+` carries the six
fields of the status summary read from the state the command leaves (R6, R9). The last character of a line leaves
(LINE_SENT), and the transmitter's choice of the next line: the notices owed since the last reply, then the reply,
then the notice queue (R9). The model's choices here: a notice leaves the queue when its sending starts (log entry 13),
`!LOST` is queued as soon as there is room (log entry 24), LINE_SENT with nothing in transmission changes nothing (log
entry 7), and with the reply slot full a notice goes before the reply of the CONFIRM that caused it (log entry 47). -/
def Obligations.RepliesAndNoticesTakeTurns : Prop :=
  (∀ (plus : Bool) (r : Reply) (s : State),
     let summary : List Field :=
       [.keyed "S" (.word (ringName s.ring.state)), .keyed "I" (vnum s.ring.ptr),
        .keyed "T" (.word (modeName s.engine.mode)), .keyed "P" (bit (permit s)), .keyed "M" (bit (muteReq s)),
        .keyed "F" (bit s.records.fault.isSome)]
     let o : OutReply :=
       { reply := { refused := r.refused, fields := r.fields, suffix := if plus then some summary else none },
         thenReset := false }
     (s.link.slot = none → answer plus r s = s.setLink { s.link with slot := some o })
     ∧ (s.link.slot ≠ none → answer plus r s = s.setLink { s.link with held := some o }))
  ∧ (∀ s : State,
       (∀ n, s.link.tx = .notice n → exec .lineSent s = .next (settle (s.setLink { s.link with tx := .idle })))
       ∧ (∀ o, s.link.tx = .reply → s.link.slot = some o → o.thenReset = false →
           exec .lineSent s = .next (settle (s.setLink { s.link with
             tx := .idle, slot := s.link.held, held := none, owed := s.link.notices.length })))
       ∧ (s.link.tx = .idle → exec .lineSent s = .next (settle s))
       ∧ (s.phase = .running → s.link.tx = .idle →
           (s.link.slot ≠ none → s.link.owed = 0 → startLine s = s.setLink { s.link with tx := .reply })
           ∧ (∀ n l, s.link.notices = n :: l → s.link.owed ≠ 0 ∨ s.link.slot = none →
               startLine s = s.setLink { s.link with tx := .notice n, notices := l, owed := s.link.owed - 1 })
           ∧ (s.link.slot ≠ none → s.link.notices = [] →
               startLine s = s.setLink { s.link with tx := .reply, owed := 0 }))
       ∧ (s.phase ≠ .running ∨ s.link.tx ≠ .idle → startLine s = s)
       ∧ (s.link.lost = true → s.link.notices.length < 32 →
           queueLost s = s.setLink { s.link with notices := s.link.notices ++ [.lost], lost := false })
       ∧ (s.link.lost = false ∨ 32 ≤ s.link.notices.length → queueLost s = s))

/-- What follows at once after every event issues at most one transaction and sends lines, and touches nothing else: a
frame for every command (log entry 32). `driven` is the element to which a DRIVE is issued, if one is: its position
becomes UNKNOWN, its card may count a pulse, its wear entry the throw, and it alone joins the drives in progress. While
nothing waits for a free bus, the link alone changes. Which transaction a free bus is given (R94, R144): the SENSE that
fell due first, then the first waiting drive in list order that may be issued, the survey's next sense, the restart of the
lowest card that waits, then discovery or the poll round, whose card is tested once more, the round ending there when no
card is left to poll (the model's choices, log entries 42 and 46). -/
def Obligations.SettlingMovesBusAndLinkOnly : Prop :=
  ∀ s : State,
    let t := settle s
    (t.pending = s.pending ∧ t.phase = s.phase ∧ t.cause = s.cause ∧ t.free = s.free ∧ t.site = s.site
      ∧ t.rate = s.rate ∧ t.lock = s.lock ∧ t.store = s.store ∧ t.failed = s.failed ∧ t.images = s.images
      ∧ t.routes = s.routes ∧ t.ring = s.ring ∧ t.fixtures = s.fixtures ∧ t.loops = s.loops ∧ t.latch = s.latch
      ∧ t.muteAck = s.muteAck)
    ∧ (t.net.ports = s.net.ports ∧ t.net.legs = s.net.legs ∧ t.net.released = s.net.released
      ∧ t.net.locked = s.net.locked)
    ∧ (∃ driven : Option Nat,
        (∀ e x, elemAt s e = some x → elemAt t e = some { x with pos := if driven = some e then none else x.pos })
        ∧ (∀ e, elemAt s e = none → elemAt t e = none)
        ∧ (∀ n, cardAt t n = { cardAt s n with pulses := (cardAt t n).pulses, restart := (cardAt t n).restart })
        ∧ (∀ e x, driven = some e → elemAt s e = some x → isEm x.kind = true →
            (cardAt t x.card).pulses = (cardAt s x.card).pulses + 1)
        ∧ (∀ n, (∀ e x, driven = some e → elemAt s e = some x → isEm x.kind = true → x.card ≠ n) →
            (cardAt t n).pulses = (cardAt s n).pulses)
        ∧ (∀ e, driven ≠ some e → wearAt t e = wearAt s e)
        ∧ t.engine.active.map (fun d => d.elem) = s.engine.active.map (fun d => d.elem) ++ driven.toList)
    ∧ (t.engine = { s.engine with
          trans := t.engine.trans, active := t.engine.active, due := t.engine.due, staging := t.engine.staging,
          survey := t.engine.survey }
      ∧ (s.engine.trans = none → t.engine.trans = none)
      ∧ (∀ r, s.engine.trans = some r → ∃ b m l,
          t.engine.trans = some { r with brkTodo := b, makTodo := m, lastEm := l } ∧ b.Sublist r.brkTodo
          ∧ m.Sublist r.makTodo)
      ∧ t.engine.due.Sublist s.engine.due
      ∧ t.engine.staging = { s.engine.staging with todo := t.engine.staging.todo }
      ∧ t.engine.staging.todo.Sublist s.engine.staging.todo
      ∧ t.engine.survey = { s.engine.survey with todo := t.engine.survey.todo, current := t.engine.survey.current }
      ∧ t.engine.survey.todo.Sublist s.engine.survey.todo)
    ∧ (t.records.fault = s.records.fault ∧ t.records.more = s.records.more ∧ t.records.late = s.records.late)
    ∧ (t.link.lines = s.link.lines ∧ t.link.enabled = s.link.enabled ∧ t.link.gap = s.link.gap)
    ∧ (Quiet s → t = s.setLink t.link)
    ∧ (let asks (n : Nat) : Prop :=
         (cardAt s n).restart = some .wantRestart ∨ (cardAt s n).restart = some .wantPoll
       let free := s.bus.tx = none ∧ s.phase ≠ .inReset
       let driveless := s.engine.due = [] ∧ ∀ p ∈ waitingDrives s, mayIssue s p.1 = false
       let engineless := driveless
         ∧ ¬(s.engine.mode = .survey ∧ s.engine.survey.current = none ∧ s.engine.survey.todo ≠ [])
       let restartless := engineless ∧ ∀ n, n ≤ 11 → ¬asks n
       (¬free → grantBus s = s)
       ∧ (∀ e l, free → s.engine.due = e :: l → grantBus s = issueSense e l s)
       ∧ (∀ p x, free → s.engine.due = [] → FirstWith (fun p => mayIssue s p.1 = true) (waitingDrives s) p →
           elemAt s p.1 = some x → grantBus s = issueDrive p.1 p.2 x (takeWaiting p.1 s))
       ∧ (∀ e l x, free → driveless → s.engine.mode = .survey → s.engine.survey.current = none →
           s.engine.survey.todo = e :: l → elemAt s e = some x → grantBus s = issueSurveySense e l x s)
       ∧ (∀ n, free → engineless → n ≤ 11 → asks n → (∀ m, m < n → ¬asks m) →
           ((cardAt s n).restart = some .wantRestart → grantBus s
             = setTx (some (.restart n)) (setCard n { cardAt s n with restart := some .restartSent } s))
           ∧ ((cardAt s n).restart = some .wantPoll → grantBus s
             = setTx (some (.pollRestart n)) (setCard n { cardAt s n with restart := some .pollSent } s)))
       ∧ (∀ k, free → restartless → s.bus.discovery = some k → grantBus s = setTx (some (.pollDiscovery k)) s)
       ∧ (∀ k, free → restartless → s.bus.discovery = none → s.bus.round = some k →
           (∀ j, (roundAt k s).bus.round = some j → grantBus s = setTx (some (.pollRound j)) (roundAt k s))
           ∧ ((roundAt k s).bus.round = none → grantBus s = roundAt k s))
       ∧ (free → restartless → s.bus.discovery = none → s.bus.round = none → grantBus s = s))
    ∧ (let rest (e : Nat) : Nat := match elemAt s e with | some x => restOf x.kind | none => 0
       (∀ r, s.engine.mode = .breaking → s.engine.trans = some r →
         waitingDrives s = r.brkTodo.map (fun e => (e, rest e))
         ∧ ∀ e, takeWaiting e s = s.setEngine { s.engine with trans := some { r with brkTodo := r.brkTodo.erase e } })
       ∧ (∀ r, s.engine.mode = .making → s.engine.trans = some r → waitingDrives s = r.makTodo
         ∧ ∀ e, takeWaiting e s = s.setEngine { s.engine with
             trans := some { r with makTodo := r.makTodo.filter fun p => p.1 != e } })
       ∧ (s.engine.mode = .staging → waitingDrives s = s.engine.staging.todo
         ∧ ∀ e, takeWaiting e s = s.setEngine { s.engine with staging := { s.engine.staging with
             todo := s.engine.staging.todo.filter fun p => p.1 != e } })
       ∧ (s.engine.mode ≠ .breaking → s.engine.mode ≠ .making → s.engine.mode ≠ .staging → waitingDrives s = []))

/-- A completed line enters the line queue, a ninth one is lost, an empty one is ignored, and CTS follows the count
(R1, R2). The line text given is what arrives before its LF. Three corners are the model's choice (log entry 11): a line both
long and damaged is kept as a long one, a damaged line of blanks is damaged, and a long line of blanks is long. -/
def Obligations.CompletedLinesJoinTheQueue : Prop :=
  (∀ (chars : List Byte) (bad : Bool) (s : State), chars.contains 10 = false → s.phase ≠ .inReset →
    let l := dropCr chars
    let joins : Option Line :=
      if 200 < l.length then some .long else if bad then some .damaged else if blankLine l then none
      else some (.text l)
    exec (.lineReceived chars bad) s = .next (settle (match joins with
      | none => s
      | some x =>
        if s.link.lines.length < 8 then s.setLink { s.link with lines := s.link.lines ++ [x] }
        else s.setLink { s.link with lost := true })))
  ∧ (∀ (chars : List Byte), dropCr (chars ++ [13]) = chars)
  ∧ (∀ (chars : List Byte) (b : Byte), b ≠ 13 → dropCr (chars ++ [b]) = chars ++ [b])
  ∧ ∀ s : State, (cts s = true ↔ s.phase ≠ .inReset ∧ s.link.lines.length < 6)

/-- A line at the head of the queue that fails the decoder's checks is taken and answered with the first failure; the
receiver's placeholders are answered with their detail (R1, R3). Step: SYNTAX_REFUSAL. That LONG and FRAME carry no
suffix, and that a refused line carries one when its verb token ends in `+`, is the model's reading (log entry 12).
Lines of the worked session of section 1.4.1 and of other sections, character by character, and the commands they are
(R3, scope 5.2). -/
def Obligations.RefusedLinesAreAnswered : Prop :=
  ((∀ (s : State) (l : Line) (rest : List Line) (plus : Bool) (c : ErrCode) (d : Option String),
     canTake s = true → s.link.lines = l :: rest → decodeLine l = .refused plus c d →
     exec .syntaxRefusal s = .next (replied plus
       { refused := some c, fields := d.toList.map fun w => .bare (.word w), suffix := none }
       (s.setLink { s.link with lines := rest })))
   ∧ decodeLine .long = .refused false .syntaxErr (some "LONG")
   ∧ decodeLine .damaged = .refused false .syntaxErr (some "FRAME")
   ∧ ∀ chars : List Byte, chars.all printable = false →
       ∃ plus, decodeLine (.text chars) = .refused plus .syntaxErr none)
  ∧ (-- SITE POLL_GAP 40
     decodeText [83, 73, 84, 69, 32, 80, 79, 76, 76, 95, 71, 65, 80, 32, 52, 48]
       = .command (.site false .pollGap (some (.num 40)))
     -- go+ 3 7
     ∧ decodeText [103, 111, 43, 32, 51, 32, 55] = .command (.go true [3, 7])
     -- SYNC
     ∧ decodeText [83, 89, 78, 67] = .command (.sync false)
     -- LEG E0.1 E2.C
     ∧ decodeText [76, 69, 71, 32, 69, 48, 46, 49, 32, 69, 50, 46, 67] = .command (.leg false (.throw 0 1) (.common 2))
     -- ECAL 4 1 -
     ∧ decodeText [69, 67, 65, 76, 32, 52, 32, 49, 32, 45] = .command (.ecal false 4 1 none)
     -- ROUTE 7 P1 11 1:2 3:2
     ∧ decodeText [82, 79, 85, 84, 69, 32, 55, 32, 80, 49, 32, 49, 49, 32, 49, 58, 50, 32, 51, 58, 50]
       = .command (.route false 7 1 11 [(1, 2), (3, 2)])
     -- CURVE 9 100 -5 200 30
     ∧ decodeText [67, 85, 82, 86, 69, 32, 57, 32, 49, 48, 48, 32, 45, 53, 32, 50, 48, 48, 32, 51, 48]
       = .command (.curve false 9 [(100, -5), (200, 30)])
     -- GO 256: an id outside its range
     ∧ decodeText [71, 79, 32, 50, 53, 54] = .refused false .range none)

/-- STEP entries are coalesced by the gap timer, and NOTE_GAP_EXPIRY sends what was held (R11); with no gap timer
running it changes nothing (log entry 7). A notice is dropped
when its kind is masked, queued when there is room, and otherwise lost (R8). NOTE with a kind changes the mask and
NOTE alone reads it; BOOT and LOST stay enabled (R10). -/
def Obligations.NoticesAreMaskedAndCoalesced : Prop :=
  (∀ (s : State) (i p : Nat),
     (s.link.enabled.contains .step = false → stepEntry i p s = s)
     ∧ (s.link.enabled.contains .step = true → s.link.gap.timer = none →
         stepEntry i p s =
           let t := enqueue (.step i p 1) s
           if s.site.noteGap = 0 then t
           else t.setLink { t.link with gap := { t.link.gap with timer := some s.site.noteGap } })
     ∧ (∀ d, s.link.enabled.contains .step = true → s.link.gap.timer = some d →
         stepEntry i p s = s.setLink { s.link with
           gap := { timer := some d, count := s.link.gap.count + 1, index := i, pass := p } })
     ∧ (∀ d, s.link.gap.timer = some d → s.link.gap.count = 0 →
         exec .noteGapExpiry s = .next (settle (s.setLink { s.link with gap := { s.link.gap with timer := none } })))
     ∧ (∀ d, s.link.gap.timer = some d → s.link.gap.count ≠ 0 →
         exec .noteGapExpiry s = .next (settle (
           let t := enqueue (.step s.link.gap.index s.link.gap.pass s.link.gap.count) s
           t.setLink { t.link with gap := { t.link.gap with
             count := 0, timer := if s.site.noteGap = 0 then none else some s.site.noteGap } })))
     ∧ (s.link.gap.timer = none → exec .noteGapExpiry s = .next (settle s)))
  ∧ ((∀ (n : Notice) (s : State),
       (s.link.enabled.contains (noticeKind n) = false → notify n s = s)
       ∧ (s.link.enabled.contains (noticeKind n) = true → s.link.notices.length < 32 →
           notify n s = s.setLink { s.link with notices := s.link.notices ++ [n] })
       ∧ (s.link.enabled.contains (noticeKind n) = true → 32 ≤ s.link.notices.length →
           notify n s = s.setLink { s.link with lost := true }))
     ∧ (∀ (plus : Bool) (s u : State), Takes (.note plus none) s u →
       exec (.note plus none) s
         = .next (replied plus (ok (u.link.enabled.map fun k => .bare (.word (noticeName k)))) u))
     ∧ (∀ (plus : Bool) (sel : NoteSel) (v : Nat) (s u : State), Takes (.note plus (some (sel, v))) s u →
       exec (.note plus (some (sel, v))) s
         = .next (replied plus (ok []) (u.setLink { u.link with enabled := maskSet sel (v == 1) u.link.enabled })))
     ∧ ∀ (k j : NoticeKind) (on : Bool) (enabled : List NoticeKind),
         (.boot ∈ maskSet (.kind j) on enabled ∧ .lost ∈ maskSet (.kind j) on enabled
           ∧ .boot ∈ maskSet .all on enabled ∧ .lost ∈ maskSet .all on enabled)
         ∧ (k ≠ .boot → k ≠ .lost → (k ∈ maskSet .all on enabled ↔ on = true)
           ∧ (k ∈ maskSet (.kind j) on enabled ↔ if k = j then on = true else k ∈ enabled)))

/-- SYNC holds the decoder for the operations in flight, an operation that ends is waited for no more, and with
nothing left the reply OK is formed (R7). That staging cut short is in flight until its last drive in progress has ended
is the model's choice (log entry 45). -/
def Obligations.SyncWaitsForOperations : Prop :=
  (∀ (plus : Bool) (s u : State), Takes (.sync plus) s u →
    exec (.sync plus) s = .next (settle (u.setLink { u.link with hold := some (.sync plus (opsInFlight u)) })))
  ∧ (∀ (plus : Bool) (ops : List Op) (o : Op) (s : State), s.link.hold = some (.sync plus ops) →
    opEnded o s = s.setLink { s.link with hold := some (.sync plus (ops.erase o)) })
  ∧ (∀ (plus : Bool) (s : State), s.link.hold = some (.sync plus []) →
    releaseSync s = answer plus (ok []) (s.setLink { s.link with hold := none }))
  ∧ (∀ (plus : Bool) (o : Op) (ops : List Op) (s : State), s.link.hold = some (.sync plus (o :: ops)) →
    releaseSync s = s ∧ ∀ i, lineFor i s = none)
  ∧ ∀ (s : State) (o : Op), o ∈ opsInFlight s ↔ match o with
      | .transition => inFlight s = true ∨ s.engine.waiting ≠ none
      | .staging => s.engine.mode = .staging ∨ s.engine.mode = .check
      | .survey => s.engine.mode = .survey
      | .restart n => ∃ c, (n, c) ∈ s.cards ∧ c.restart ≠ none
      | .admission n => ∃ f, (n, f) ∈ s.fixtures ∧ f.state = .admitting

/-- SITE reads a setting, writes it, and while the lock value is set refuses PROT for the five locked settings (R16,
R17). SITESAVE, WIPE, CURVE, CURVEDEL and WEARSAVE begin a store write, which holds the decoder, or are refused by
their owner (R5, R15, R18, R19, R46, R47, R192). The protected slots are those of the window PROT_EDGE and PROT_DIR
give while PROT_ON is 1 (R45). -/
def Obligations.SettingsAndStoreWrites : Prop :=
  (∀ (v : Site) (c : Nat), slotProtected v c = true ↔
     v.protOn = 1 ∧ (v.protDir = .low ∧ c ≤ v.protEdge ∨ v.protDir = .high ∧ v.protEdge ≤ c))
  ∧ (∀ (plus : Bool) (name : Setting) (s u : State),
     (Takes (.site plus name none) s u →
       exec (.site plus name none) s
         = .next (replied plus (ok [.bare (.word (settingName name)), .bare (settingRead u.site name)]) u))
     ∧ ∀ x, Takes (.site plus name (some x)) s u →
         (u.lock = true →
           name = .protOn ∨ name = .protEdge ∨ name = .protDir ∨ name = .topoOneway ∨ name = .siteLock →
           exec (.site plus name (some x)) s = .next (replied plus (er .prot) u))
         ∧ (¬(u.lock = true ∧
             (name = .protOn ∨ name = .protEdge ∨ name = .protDir ∨ name = .topoOneway ∨ name = .siteLock)) →
           exec (.site plus name (some x)) s
               = .next (replied plus (ok []) (u.setSite (settingWrite name x u.site)))
           ∧ (∀ n, x = .num n → settingRead (settingWrite name x u.site) name = vnum n)
           ∧ (∀ d, x = .dir d → name = .protDir ∧ (settingWrite name x u.site).protDir = d
             ∧ settingRead (settingWrite name x u.site) name = .word (match d with | .low => "LOW" | .high => "HIGH"))
           ∧ (∀ other, other ≠ name →
               settingRead (settingWrite name x u.site) other = settingRead u.site other)))
  ∧ (∀ (plus : Bool) (s u : State),
       let writes (w : StoreWrite) : Host.Outcome State Fault Refusal :=
         .next (settle (u.setLink { u.link with hold := some (.store plus w) }))
       (Takes (.sitesave plus) s u → exec (.sitesave plus) s = writes (.settings u.site))
       ∧ (Takes (.wearsave plus) s u → exec (.wearsave plus) s = writes (.wear (wearCounts u)))
       ∧ (Takes (.wipe plus) s u →
           (u.engine.mode = .idle → exec (.wipe plus) s = writes (.wipe 0))
           ∧ (u.engine.mode ≠ .idle → exec (.wipe plus) s = .next (replied plus (er .busy) u)))
       ∧ (∀ c, Takes (.curvedel plus c) s u →
           (slotProtected u.site c = false → exec (.curvedel plus c) s = writes (.curveDel c))
           ∧ (slotProtected u.site c = true → exec (.curvedel plus c) s = .next (replied plus (er .prot) u)))
       ∧ (∀ c p, Takes (.curve plus c p) s u →
           (slotProtected u.site c = true → exec (.curve plus c p) s = .next (replied plus (er .prot) u))
           ∧ (slotProtected u.site c = false → ¬(2 ≤ p.length ∧ p.length ≤ 16) →
               exec (.curve plus c p) s = .next (replied plus (erWith .range (.word "COUNT")) u))
           ∧ (slotProtected u.site c = false → 2 ≤ p.length ∧ p.length ≤ 16 → pointsRise p = false →
               exec (.curve plus c p) s = .next (replied plus (erWith .range (.word "ORDER")) u))
           ∧ (slotProtected u.site c = false → 2 ≤ p.length ∧ p.length ≤ 16 → pointsRise p = true →
               exec (.curve plus c p) s = writes (.curve c p)))
       ∧ (∀ w i, s.link.hold = some (.store plus w) → lineFor i s = none))

/-! ### The store, reset and start-up (R13 to R22) -/

/-- STORE_WRITE_END: what each write leaves when it succeeds, with its reply, and what a write that fails leaves, with
ER STORE (R15, R18, R19, R46 to R48, R192). The condition `left` of the record a failed write was writing is an operand
of the event (log entry 23), and how far a WIPE had come before is a free value read earlier, `reach` (log entry 4); a
failure at a record the write cannot have been at changes nothing (log entry 7). The records of a WIPE and their
images, in its order: the settings, K0 to K255, the wear bases (R19, R48). -/
def Obligations.StoreWriteEndAnswers : Prop :=
  (∀ (plus : Bool) (w : StoreWrite) (s : State), s.link.hold = some (.store plus w) →
    let u := s.setLink { s.link with hold := none }
    let settingsLeft (x : Residue) (v : State) : State := v.setStore { v.store with
      settings := match x with | .erased => .erased | .valid (.settings z) => .valid z | _ => .failed }
    let curveLeft (c : Nat) (x : Residue) (v : State) : State := v.setStore { v.store with
      curves := match x with
        | .erased => tdel v.store.curves c
        | .valid (.curve p) => tput v.store.curves c (.valid p)
        | _ => tput v.store.curves c .failed }
    let wearLeft (x : Residue) (v : State) : State := v.setStore { v.store with
      wear := match x with | .erased => .erased | .valid (.wear z) => .valid z | _ => .failed }
    exec (.storeWriteEnd .ok) s = .next (match w with
      | .settings v => replied plus (ok []) (u.setStore { u.store with settings := .valid v })
      | .curve c p => replied plus (ok [.bare (vnum c), .bare (vnum p.length)])
          ((u.setStore { u.store with curves := tput u.store.curves c (.valid p) }).setImages (tput u.images c p))
      | .curveDel c => replied plus (ok [.bare (vnum c)])
          ((u.setStore { u.store with curves := tdel u.store.curves c }).setImages (tdel u.images c))
      | .wear counts => replied plus (ok []) (u.setStore { u.store with wear := .valid counts })
      | .wipe reach => replied plus (ok [])
          (((eraseRange reach wipeRecords u).setSite siteDefault).setLock false))
    ∧ (∀ i left, eventCheck (.storeWriteEnd (.fail i left)) = none →
        (failPossible w i = true ↔ match w with | .wipe reach => reach ≤ i ∧ i < 258 | _ => i = 0)
        ∧ (failPossible w i = false → exec (.storeWriteEnd (.fail i left)) s = .next (settle s))
        ∧ (failPossible w i = true → exec (.storeWriteEnd (.fail i left)) s = .next (replied plus (er .store)
            (match w with
              | .settings _ => settingsLeft left u
              | .curve c _ => curveLeft c left u
              | .curveDel c => curveLeft c left u
              | .wear _ => wearLeft left u
              | .wipe reach =>
                let v := eraseRange reach i u
                if i = 0 then settingsLeft left v else if i ≤ 256 then curveLeft (i - 1) left v else wearLeft left v)))))
  ∧ ∀ (u : State) (lo hi : Nat), hi ≤ 258 → tableWf u.store.curves = true → tableWf u.images = true →
      let v := eraseRange lo hi u
      (v.store.settings = if lo = 0 ∧ 0 < hi then .erased else u.store.settings)
      ∧ (v.store.wear = if lo ≤ 257 ∧ 257 < hi then .erased else u.store.wear)
      ∧ (∀ c, c ≤ 255 → lo ≤ c + 1 → c + 1 < hi → tget v.store.curves c = none ∧ tget v.images c = none)
      ∧ (∀ c, 255 < c ∨ c + 1 < lo ∨ hi ≤ c + 1 →
          tget v.store.curves c = tget u.store.curves c ∧ tget v.images c = tget u.images c)
      ∧ v = (u.setStore v.store).setImages v.images

/-- A reset begins when power comes on, when RESET_N is asserted, and when the reply to RESET has left; RESET itself is
answered OK in every state. During the reset the outputs stand as R20 gives them. What a reset leaves in the store: all of
it when no store write is held, and otherwise the record being written found failed at start-up (R15, R48); of a WIPE the
record it has come to, with those before it erased, how far being a free value (log entries 4 and 23). -/
def Obligations.ResetsBegin : Prop :=
  (∀ s : State,
    let begun (c : ResetCause) (t : State) : Prop :=
      t = beginReset c s ∧ t.phase = .inReset ∧ t.cause = c ∧ muteReq t = true ∧ cts t = false ∧ ready t = false
      ∧ markOut t = false ∧ (∀ n, fixturePower t n = false) ∧ t.bus.tx = none ∧ t.link.tx = .idle
      ∧ t.link.lines = [] ∧ t.link.notices = [] ∧ t.link.hold = none ∧ t.engine = engineReset
    (∃ t, exec .powerOn s = .next t ∧ begun .power t)
    ∧ (∃ t, exec .resetNAsserted s = .next t ∧ begun .line t)
    ∧ (∀ o, s.link.tx = .reply → s.link.slot = some o → o.thenReset = true →
        ∃ t, exec .lineSent s = .next t ∧ begun .command t))
  ∧ (∀ (c : ResetCause) (s : State),
    let left := (beginReset c s).store
    ((∀ plus w, s.link.hold ≠ some (.store plus w)) → left = s.store)
    ∧ (∀ plus v, s.link.hold = some (.store plus (.settings v)) → left = { s.store with settings := .failed })
    ∧ (∀ plus v, s.link.hold = some (.store plus (.wear v)) → left = { s.store with wear := .failed })
    ∧ (∀ plus k p, s.link.hold = some (.store plus (.curve k p)) →
        left = { s.store with curves := tput s.store.curves k .failed })
    ∧ (∀ plus k, s.link.hold = some (.store plus (.curveDel k)) →
        left = { s.store with curves := tput s.store.curves k .failed })
    ∧ (∀ plus reach, s.link.hold = some (.store plus (.wipe reach)) →
        ∃ now, reach ≤ now ∧ (reach ≤ 257 → now ≤ 257)
          ∧ (let v := (eraseRange reach now s).store
             left = if now = 0 then { v with settings := .failed }
               else if now ≤ 256 then { v with curves := tput v.curves (now - 1) .failed }
               else { v with wear := .failed })))
  ∧ ∀ (plus : Bool) (s u : State), Takes (.reset plus) s u →
      exec (.reset plus) s = .next (settle (placeReply
        { reply := { ok [] with suffix := if plus then some (statusSummary u) else none }, thenReset := true } u))

/-- RESET_END: start-up loads the store, clears every block's volatile state, starts the receiver and calls for
discovery's first POLL (R21 stages 1 to 3, R44), with the throw counts of the wear-base record, every other wear field
0 (R190). The count of failed records is kept for `!BOOT`. DISCOVERY_END:
`!BOOT` goes to the head of the notice queue, the decoder begins to take lines and the start-up contribution to
MUTE_REQ is withdrawn (R21 stages 4 and 5, R149). Each fixture record stands EMPTY, owned LOCAL, with no identity, result,
flag or admission, and each loop record OPEN and not confirmed, the levels of their inputs kept (log entry 5). The filters
begin here: an input away from the filtered level is counted from now (R156, R173; log entry 28). -/
def Obligations.StartUpLoadsAndBoots : Prop :=
  (∀ s : State, s.phase = .inReset → ∃ t, exec .resetEnd s = .next t
     ∧ (t.phase = .discovery ∧ t.bus.tx = some (.pollDiscovery 0) ∧ cts t = true ∧ muteReq t = true)
     ∧ t.site = (match s.store.settings with | .valid v => v | _ => siteDefault)
     ∧ (t.rate = t.site.linkRate ∧ t.lock = (t.site.siteLock == 1) ∧ t.store = s.store)
     ∧ t.images = s.store.curves.filterMap (fun p => match p.2 with | .valid c => some (p.1, c) | _ => none)
     ∧ t.failed = failedOne s.store.settings + (s.store.curves.map fun p => failedOne p.2).sum
         + failedOne s.store.wear
     ∧ (t.net = netReset ∧ t.routes = [] ∧ t.engine = engineReset ∧ t.ring = ringReset ∧ t.cards = []
       ∧ t.latch = false ∧ t.link = linkReset)
     ∧ (t.records.fault = none ∧ t.records.more = 0 ∧ t.records.late = 0)
     ∧ (∀ w, s.store.wear = .valid w → tableWf w = true → ∀ e,
         wearAt t e = { count := (tget w e).getD 0, noticed := false, late := 0 })
     ∧ ((∀ w, s.store.wear ≠ .valid w) → ∀ e, wearAt t e = { count := 0, noticed := false, late := 0 })
     ∧ (∀ n, (fixtureAt t n).state = .empty ∧ (fixtureAt t n).owner = .localOwner
         ∧ (fixtureAt t n).present = false ∧ (loopAt t n).closed = false ∧ (loopAt t n).confirmed = false)
     ∧ (tableWf s.fixtures = true → ∀ n, fixtureAt t n =
         { state := .empty, owner := .localOwner, present := false, identity := none, last := none, presenceChg := false,
           stateChg := false, stage := none, fpres := (fixtureAt s n).fpres, counting := (fixtureAt s n).fpres,
           fflt := (fixtureAt s n).fflt })
     ∧ (tableWf s.loops = true → ∀ n, loopAt t n =
         { closed := false, confirmed := false, input := (loopAt s n).input, counting := (loopAt s n).input }))
  ∧ (∀ s : State, discoveryDone s = true →
       let room := s.link.notices.length < 32
       let u := ((s.setLink { s.link with
           notices := .boot s.cause s.failed :: (if room then s.link.notices else s.link.notices.dropLast),
           lost := s.link.lost || !decide room }).setPhase .running).setBus
             { s.bus with pollTimer := some s.site.pollGap }
       exec .discoveryEnd s = .next (settle u)
       ∧ (settle u).phase = .running
       ∧ (muteReq (settle u) = (s.engine.mute || exposure s || s.latch)))

/-! ### The Net Table (R26 to R42) -/

/-- The first two checks of every topology edit: the topology lock, then the engine's state, and for ELEM and ELEMDEL
the element's drive or sense in progress (R26). A refused edit changes nothing. -/
def Obligations.TopologyEditsAreGuarded : Prop :=
  ∀ (i : Instr) (plus : Bool) (s u : State), editPlus i = some plus → Takes i s u →
    (u.net.locked = true → exec i s = .next (replied plus (er .locked) u))
    ∧ (u.net.locked = false → engineEngaged u = true → exec i s = .next (replied plus (er .busy) u))
    ∧ (∀ e, u.net.locked = false → elemBusy u e = true →
        (i = .elemdel plus e ∨ ∃ k n c sl pu st g li, i = .elem plus e k n c sl pu st g li) →
        exec i s = .next (replied plus (er .busy) u))

/-- ELEM with its checks passed defines its element, cuts its former legs, takes it from the release set, and makes
stale the routes the edit reaches (R27). ELEMDEL with its checks passed undefines its element and does the same (R28).
Both take the element out of the ahead-fault holder and the staging and survey lists; the state left is given whole, so
that every other record, leg and engine field stays, the wear entry too. The model's choices here: the staging drives taken
off count neither as ended nor as left, and the number staging listed stays (log entry 29); the number the survey listed stays
(log entry 44); a staging or survey left with nothing to do ends in the same command (log entries 36 and 38). Stated with no
DROP held. -/
def Obligations.ElemEditsDefineAndRemove : Prop :=
  ∀ (plus : Bool) (e : Nat) (s u : State), u.net.locked = false → engineEngaged u = false → elemBusy u e = false →
    let gone : List Terminal := match elemAt u e with | some x => elemTerminals e x.n | none => []
    let legs := u.net.legs.filter fun l => !gone.contains l.1 && !gone.contains l.2
    let released := if elemAt u e = none then u.net.released else u.net.released.erase e
    let routes := if elemAt u e = none then u.routes
      else (noticeOfEdit { elems := [e], ports := [], terms := legEnds u gone } u).routes
    let g := u.engine.staging
    let todo := g.todo.filter fun p => p.1 != e
    let list := u.engine.survey.todo.filter fun f => f != e
    let sensible := passOver u list
    let stagingEnds : Bool := u.engine.mode == .staging && u.engine.active.isEmpty && todo.isEmpty
    let surveyEnds : Bool := u.engine.mode == .survey && u.engine.survey.current.isNone && sensible.isEmpty
    let engine : Engine := { u.engine with
      mode := if stagingEnds || surveyEnds then .idle else u.engine.mode
      holder := match u.engine.holder with
        | some a => if a.elem = e then none else some a
        | none => none
      staging := if stagingEnds then stagingReset
        else { g with todo := todo, cut := g.cut + (g.todo.filter fun p => p.1 == e).length }
      survey := if surveyEnds then surveyReset else { u.engine.survey with
        todo := if u.engine.mode = .survey ∧ u.engine.survey.current = none then sensible else list } }
    let link := if stagingEnds then (opEnded .staging u).link
      else if surveyEnds then (opEnded .survey u).link else u.link
    let edited (elems : Table Elem) : State :=
      (((u.setNet { u.net with elems := elems, legs := legs, released := released }).setRoutes routes).setEngine
        engine).setLink link
    (∀ (kind : ElemKind) (n card slot pulse st guard life : Nat),
      let i := Instr.elem plus e kind n card slot pulse st guard life
      Takes i s u →
      (kindMismatch kind n pulse = true → exec i s = .next (replied plus (erWith .range (.word "KIND")) u))
      ∧ (kindMismatch kind n pulse = false → slotHeld u e card slot = true →
          exec i s = .next (replied plus (erWith .conflict (.word "SLOT")) u))
      ∧ (kindMismatch kind n pulse = false → slotHeld u e card slot = false → appliedClaims u e = true →
          exec i s = .next (replied plus (er .inuse) u))
      ∧ (kindMismatch kind n pulse = false → slotHeld u e card slot = false → appliedClaims u e = false →
          u.engine.dropHeld = false → exec i s = .next (replied plus (ok []) (edited (tput u.net.elems e
            { kind := kind, n := n, card := card, slot := slot, pulse := if kind = .solid then none else some pulse,
              settle := st, guarded := guard == 1, life := life, refs := [],
              pos := match kind with | .latch => none | .failsafe => some 1 | .solid => some 0,
              faulted := false })))))
    ∧ (Takes (.elemdel plus e) s u →
      (elemAt u e = none → exec (.elemdel plus e) s = .next (replied plus (er .undef) u))
      ∧ (elemAt u e ≠ none → appliedClaims u e = true →
          exec (.elemdel plus e) s = .next (replied plus (er .inuse) u))
      ∧ (elemAt u e ≠ none → appliedClaims u e = false → u.engine.dropHeld = false →
          exec (.elemdel plus e) s = .next (replied plus (ok []) (edited (tdel u.net.elems e)))))

/-- PORT and PORTDEL with R26's first checks passed: their own refusals, and the port record, its leg and the other
records after each (R30, R31). -/
def Obligations.PortEditsWriteOnePort : Prop :=
  ∀ (plus : Bool) (p : Nat) (s u : State), u.net.locked = false → engineEngaged u = false →
    (∀ cls fx, Takes (.port plus p cls fx) s u →
      (fixtureBound u p fx = true →
        exec (.port plus p cls fx) s = .next (replied plus (erWith .conflict (.word "FIXTURE")) u))
      ∧ (fixtureBound u p fx = false → portInUse u p = true →
        exec (.port plus p cls fx) s = .next (replied plus (er .inuse) u))
      ∧ (fixtureBound u p fx = false → portInUse u p = false → ∃ t,
        exec (.port plus p cls fx) s = .next (replied plus (ok []) t)
        ∧ portAt t p = some { cls := cls, fixture := fx, cable := (portAt u p).bind fun q => q.cable }
        ∧ (∀ q, q ≠ p → portAt t q = portAt u q)
        ∧ (portAt u p = none → t.routes = u.routes)
        ∧ (portAt u p ≠ none →
            t.routes = (noticeOfEdit { elems := [], ports := [p], terms := [] } u).routes)
        ∧ t = (u.setNet { u.net with ports := t.net.ports }).setRoutes t.routes))
    ∧ (Takes (.portdel plus p) s u →
      (portAt u p = none → exec (.portdel plus p) s = .next (replied plus (er .undef) u))
      ∧ (portAt u p ≠ none → portInUse u p = true →
        exec (.portdel plus p) s = .next (replied plus (er .inuse) u))
      ∧ (portAt u p ≠ none → portInUse u p = false → tableWf u.net.ports = true → LegsSafe u → ∃ t,
        exec (.portdel plus p) s = .next (replied plus (ok []) t)
        ∧ portAt t p = none ∧ (∀ q, q ≠ p → portAt t q = portAt u q)
        ∧ partner t (.port p) = none ∧ (∀ b, partner u (.port p) = some b → partner t b = none)
        ∧ (∀ a, a ≠ .port p → partner u a ≠ some (.port p) → partner t a = partner u a)
        ∧ t.routes = (noticeOfEdit
            { elems := [], ports := [p], terms := legEnds u [.port p] } u).routes
        ∧ t = (u.setNet { u.net with ports := t.net.ports, legs := t.net.legs }).setRoutes t.routes))

/-- LEG and LEG with `-`, with R26's first checks passed: their own refusals, and the legs after each (R32, R34, R35). -/
def Obligations.LegEditsJoinAndCut : Prop :=
  ∀ (plus : Bool) (a b : Terminal) (s u : State), u.net.locked = false → engineEngaged u = false →
    (Takes (.leg plus a b) s u →
      let undef := terminalUndef u a || terminalUndef u b
      let above := throwAbove u a || throwAbove u b
      let used := terminalInUse u a || terminalInUse u b
      (undef = true → exec (.leg plus a b) s = .next (replied plus (er .undef) u))
      ∧ (undef = false → above = true → exec (.leg plus a b) s = .next (replied plus (er .range) u))
      ∧ (undef = false → above = false → sameTerminal a b = true →
        exec (.leg plus a b) s = .next (replied plus (erWith .conflict (.word "SAME")) u))
      ∧ (undef = false → above = false → sameTerminal a b = false → used = true →
        exec (.leg plus a b) s = .next (replied plus (er .inuse) u))
      ∧ (undef = false → above = false → sameTerminal a b = false → used = false → ∃ t,
        exec (.leg plus a b) s = .next (replied plus (ok []) t)
        ∧ partner t a = some b ∧ partner t b = some a
        ∧ (∀ c, c ≠ a → c ≠ b → partner u c ≠ some a → partner u c ≠ some b → partner t c = partner u c)
        ∧ (LegsSafe u → ∀ c, c ≠ a → c ≠ b → partner u c = some a ∨ partner u c = some b → partner t c = none)
        ∧ t.routes = (noticeOfEdit
            { elems := [], ports := [], terms := [a, b] ++ (partner u a).toList ++ (partner u b).toList } u).routes
        ∧ t = (u.setNet { u.net with legs := t.net.legs }).setRoutes t.routes))
    ∧ (Takes (.legCut plus a) s u →
      (terminalUndef u a = true → exec (.legCut plus a) s = .next (replied plus (er .undef) u))
      ∧ (terminalUndef u a = false → throwAbove u a = true →
        exec (.legCut plus a) s = .next (replied plus (er .range) u))
      ∧ (terminalUndef u a = false → throwAbove u a = false → terminalInUse u a = true →
        exec (.legCut plus a) s = .next (replied plus (er .inuse) u))
      ∧ (terminalUndef u a = false → throwAbove u a = false → terminalInUse u a = false →
        (partner u a = none → exec (.legCut plus a) s = .next (replied plus (ok []) u))
        ∧ ∀ c, partner u a = some c → ∃ t, exec (.legCut plus a) s = .next (replied plus (ok []) t)
          ∧ partner t a = none ∧ (LegsSafe u → partner t c = none)
          ∧ (∀ d, d ≠ a → partner u d ≠ some a → partner t d = partner u d)
          ∧ t.routes = (noticeOfEdit { elems := [], ports := [], terms := [a, c] } u).routes
          ∧ t = (u.setNet { u.net with legs := t.net.legs }).setRoutes t.routes))

/-- The notice of edit makes stale exactly the READY routes that claim an element in it, end at a port in it or
traverse a terminal in it, and changes nothing else (R42, R33). -/
def Obligations.EditsMakeReadyRoutesStale : Prop :=
  ∀ (n : Edit) (s : State) (r : Nat),
    let t := noticeOfEdit n s
    t = s.setRoutes t.routes
    ∧ (routeAt s r = none → routeAt t r = none)
    ∧ ∀ x, routeAt s r = some x →
        let reached := (∃ h ∈ x.hops, h.elem ∈ n.elems) ∨ x.src ∈ n.ports ∨ x.dst ∈ n.ports
          ∨ ∃ a ∈ n.terms, a = .port x.src ∨ a = .port x.dst
              ∨ ∃ h ∈ x.hops, a = .common h.elem ∨ a = .throw h.elem h.pos
        (x.state = .ready → reached → routeAt t r = some { x with state := .stale })
        ∧ (¬(x.state = .ready ∧ reached) → routeAt t r = some x)

/-- ECAL and PCAL write one curve reference; REL and UNREL change the release set by one element; LOCK and UNLOCK
change the topology lock. Each changes nothing else (R37 to R41). -/
def Obligations.NetCommandsChangeOneThing : Prop :=
  ∀ (plus : Bool) (e k : Nat) (slot : Option Nat) (s u : State),
    (Takes (.ecal plus e k slot) s u →
      (elemAt u e = none → exec (.ecal plus e k slot) s = .next (replied plus (er .undef) u))
      ∧ ∀ x, elemAt u e = some x →
        (x.n < k → exec (.ecal plus e k slot) s = .next (replied plus (er .range) u))
        ∧ (k ≤ x.n → exec (.ecal plus e k slot) s = .next (replied plus (ok []) (u.setNet { u.net with
            elems := tput u.net.elems e { x with refs := setRef k slot x.refs } }))))
    ∧ (Takes (.pcal plus e slot) s u →
      (portAt u e = none → exec (.pcal plus e slot) s = .next (replied plus (er .undef) u))
      ∧ ∀ q, portAt u e = some q → exec (.pcal plus e slot) s = .next (replied plus (ok [])
          (u.setNet { u.net with ports := tput u.net.ports e { q with cable := slot } })))
    ∧ (Takes (.rel plus e) s u →
      (elemAt u e = none → exec (.rel plus e) s = .next (replied plus (er .undef) u))
      ∧ ∀ x, elemAt u e = some x →
        (x.guarded = false → exec (.rel plus e) s = .next (replied plus (erWith .range (.word "GUARD")) u))
        ∧ (x.guarded = true → exec (.rel plus e) s = .next (replied plus (ok [])
            (u.setNet { u.net with released := insertNat e u.net.released }))))
    ∧ (Takes (.unrel plus e) s u →
      (elemAt u e = none → exec (.unrel plus e) s = .next (replied plus (er .undef) u))
      ∧ (elemAt u e ≠ none → (appliedClaims u e || targetClaims u e) = true →
        exec (.unrel plus e) s = .next (replied plus (er .inuse) u))
      ∧ (elemAt u e ≠ none → (appliedClaims u e || targetClaims u e) = false →
        exec (.unrel plus e) s = .next (replied plus (ok [])
          (u.setNet { u.net with released := u.net.released.erase e }))))
    ∧ (Takes (.lock plus) s u →
      exec (.lock plus) s = .next (replied plus (ok []) (u.setNet { u.net with locked := true })))
    ∧ (Takes (.unlock plus) s u →
      (u.net.locked = true → u.site.topoOneway = 1 →
        exec (.unlock plus) s = .next (replied plus (er .locked) u))
      ∧ (u.net.locked = false ∨ u.site.topoOneway ≠ 1 →
        exec (.unlock plus) s = .next (replied plus (ok []) (u.setNet { u.net with locked := false }))))

/-! ### Curves and loss (R43 to R60) -/

/-- The value between two adjacent points: the integer nearest to the exact interpolated loss, halves going upward,
inside the segment, and the same read from either end (R52). -/
def Obligations.InterpolationRoundsHalfUp : Prop :=
  ∀ (f f0 f1 : Nat) (v0 v1 : Int), f0 < f → f < f1 →
    let num : Int := (v1 - v0) * ((f : Int) - f0)
    let den : Int := (f1 : Int) - f0
    let q := interpolate f (f0, v0) (f1, v1) - v0
    q = (2 * num + den) / (2 * den)
    ∧ (2 * den * q ≤ 2 * num + den ∧ 2 * num + den < 2 * den * (q + 1))
    ∧ (min v0 v1 ≤ v0 + q ∧ v0 + q ≤ max v0 v1)
    ∧ (v0 + q = v1 + (2 * ((v0 - v1) * ((f1 : Int) - f)) + den) / (2 * den))
    ∧ (1 ≤ f0 → f1 ≤ 65000 → -2000 ≤ v0 → v0 ≤ 12000 → -2000 ≤ v1 → v1 ≤ 12000 →
        num.natAbs ≤ 14000 * 64999 ∧ 14000 * 64999 < 910000000)

/-- A curve contributor's value and EDGE flag, case by case, and its range; a slot that is none or undefined gives 0
with NOCAL (R51). -/
def Obligations.CurveValueByCase : Prop :=
  (∀ (c : Curve) (f : Nat), curveOk c = true →
    (∀ p, c.head? = some p → f < p.1 → curveValue f c = (p.2, true))
    ∧ (∀ p, c.getLast? = some p → p.1 < f → curveValue f c = (p.2, true))
    ∧ (∀ p ∈ c, f = p.1 → curveValue f c = (p.2, false))
    ∧ (∀ before after p q, c = before ++ p :: q :: after → p.1 < f → f < q.1 →
        curveValue f c = (interpolate f p q, false))
    ∧ (∃ p ∈ c, ∃ q ∈ c, p.2 ≤ (curveValue f c).1 ∧ (curveValue f c).1 ≤ q.2)
    ∧ (-2000 ≤ (curveValue f c).1 ∧ (curveValue f c).1 ≤ 12000))
  ∧ ∀ (s : State) (f : Nat) (name : Val) (slot : Option Nat),
      ((slot = none ∨ ∃ c, slot = some c ∧ tget s.images c = none) →
        curveContributor s f name slot = { name := name, value := 0, nocal := true, edge := false, isOpen := false })
      ∧ ∀ c points, slot = some c → tget s.images c = some points →
        curveContributor s f name slot = { name := name, value := (curveValue f points).1, nocal := false,
                                           edge := (curveValue f points).2, isOpen := false }

/-- Contributors combine into OPEN when one is OPEN, and otherwise into their exact sum held to −2000 to 12000 with its
flags (R54). -/
def Obligations.LossIsTheHeldSum : Prop :=
  ∀ l : List Contributor,
    ((∃ c ∈ l, c.isOpen = true) → combine l = .openPath)
    ∧ ((∀ c ∈ l, c.isOpen = false) →
        let sum : Int := (l.map fun c => c.value).sum
        combine l = .value (max (-2000) (min 12000 sum)) (l.any fun c => c.nocal) (l.any fun c => c.edge)
          (decide (sum < -2000 ∨ 12000 < sum)))

/-- The spread of a group is the greatest less the least of the values that are not OPEN, 0 with fewer than two, and at
most 14000 over the results of a step (R58). The report holds one result for each route of the group, in group order:
that of LOSS at the step's frequency (R57), OPEN or a value (R54), and none for a step of frequency 0; and its balance flag
compares the spread with BAL_LIMIT (R59). -/
def Obligations.SpreadIsGreatestLessLeast : Prop :=
  (∀ l : List (Nat × Option LossResult),
    ((numericValues l).length < 2 → spreadOf l = 0)
    ∧ (numericValues l ≠ [] → ∃ v ∈ numericValues l, ∃ w ∈ numericValues l,
        (spreadOf l : Int) = v - w ∧ ∀ x ∈ numericValues l, w ≤ x ∧ x ≤ v))
  ∧ (∀ (l : List (Nat × Option LossResult)) (v : Int),
      v ∈ numericValues l ↔ ∃ r nocal edge sat, (r, some (.value v nocal edge sat)) ∈ l)
  ∧ ∀ (s : State) (st : StepRec) (index pass number : Nat),
      let p := formReport s st index pass number
      p.spread = spreadOf p.results ∧ p.spread ≤ 14000
      ∧ (p.balance = true ↔ 0 < s.site.balLimit ∧ s.site.balLimit < p.spread)
      ∧ p.results.map (fun x => x.1) = st.group
      ∧ (st.freq = 0 → p.spread = 0 ∧ p.balance = false ∧ ∀ x ∈ p.results, x.2 = none)
      ∧ (st.freq ≠ 0 → p.results = st.group.map fun r => (r, (routeAt s r).map fun x => routeLoss s st.freq x))
      ∧ (p.step = index ∧ p.pass = pass ∧ p.number = number ∧ p.freq = st.freq)

/-- LOSS, LOSS with PARTS, BAL and CURVE? and their replies (R49, R55, R56, R60). The contributors of a route in their
order (R50): the source port's cable, the hops, the destination port's cable, then the coupler of each endpoint that is
a FIXTURE port, whose value is that of an admitted fixture's identity record and OPEN otherwise (R53). -/
def Obligations.LossCommandsAnswer : Prop :=
  (∀ (s : State) (f : Nat) (x : Route),
    let cable (p : Nat) : Contributor := curveContributor s f (.port p) ((portAt s p).bind fun q => q.cable)
    let hop (h : Hop) : Contributor := curveContributor s f (.hop h.elem h.pos)
      ((elemAt s h.elem).bind fun e => if h.pos ≤ e.n then tget e.refs h.pos else none)
    contributors s f x = [cable x.src] ++ x.hops.map hop ++ [cable x.dst]
        ++ couplerContributor s x.src ++ couplerContributor s x.dst
    ∧ routeLoss s f x = combine (contributors s f x)
    ∧ ∀ p, (portFixture s p = none → couplerContributor s p = [])
      ∧ ∀ n, portFixture s p = some n →
        (∀ k c, (fixtureAt s n).state = .admitted → (fixtureAt s n).identity = some (k, c) →
          couplerContributor s p
            = [{ name := .fixt n, value := (c : Int), nocal := false, edge := false, isOpen := false }])
        ∧ ((fixtureAt s n).state ≠ .admitted → couplerContributor s p
            = [{ name := .fixt n, value := 0, nocal := false, edge := false, isOpen := true }]))
  ∧ ∀ (plus : Bool) (r f : Nat) (s u : State),
    (∀ x, routeAt u r = some x → x.state ≠ .retiring →
      (Takes (.loss plus r f) s u →
        exec (.loss plus r f) s = .next (replied plus
          (ok (([vnum r, vnum f] ++ lossFields (routeLoss u f x)).map .bare)) u))
      ∧ (Takes (.lossParts plus r f) s u →
        exec (.lossParts plus r f) s = .next (replied plus
          (ok (([vnum r, vnum f] ++ lossFields (routeLoss u f x)).map .bare
            ++ (contributors u f x).map fun c => .part c.name (partVal c))) u)))
    ∧ ((∀ x, routeAt u r = some x → x.state = .retiring) →
      (Takes (.loss plus r f) s u → exec (.loss plus r f) s = .next (replied plus (er .undef) u))
      ∧ (Takes (.lossParts plus r f) s u → exec (.lossParts plus r f) s = .next (replied plus (er .undef) u)))
    ∧ (Takes (.bal plus none) s u →
      exec (.bal plus none) s = .next (replied plus
        (ok [.bare (.word "BAL_LIMIT"), .bare (vnum u.site.balLimit)]) u))
    ∧ (∀ n, Takes (.bal plus (some n)) s u →
      exec (.bal plus (some n)) s = .next (replied plus
        (ok [.bare (.word "BAL_LIMIT"), .bare (vnum (if n ≤ 6000 then n else 6000))])
        (u.setSite { u.site with balLimit := if n ≤ 6000 then n else 6000 })))
    ∧ (∀ c, Takes (.curveQuery plus c) s u →
      (tget u.images c = none → exec (.curveQuery plus c) s = .next (replied plus (er .undef) u))
      ∧ ∀ points, tget u.images c = some points →
        exec (.curveQuery plus c) s = .next (replied plus (ok
          (([vnum c, vnum points.length] ++ points.flatMap fun p => [vnum p.1, .num p.2]).map .bare)) u))

/-! ### Routes (R61 to R82) -/

/-- The walk of ROUTE accepts exactly the hop lists that are a continuous path over the legs, and finds their entry
sides. A failing walk names the first hop that the leg before it does not lead to: the hops before it connect and it does
not, or, past the last hop, the last leg does not end at the destination (R65). -/
def Obligations.TheWalkIsContinuity : Prop :=
  ∀ (s : State) (dst i : Nat) (a : Terminal) (hops : List (Nat × Nat)),
    (∀ l : List Hop, walk s dst i a hops = .ok l
      ↔ (l.map fun h => (h.elem, h.pos)) = hops ∧ Continuous s dst a l)
    ∧ ∀ j, walk s dst i a hops = .error j ↔ i ≤ j ∧ j ≤ i + hops.length
        ∧ ∃ (l : List Hop) (b : Terminal), (l.map fun h => (h.elem, h.pos)) = hops.take (j - i) ∧ Connects s a l b
          ∧ (∀ h : Hop, hops[j - i]? = some (h.elem, h.pos) → partner s b ≠ some (entryOf h))
          ∧ (j = i + hops.length → partner s b ≠ some (.port dst))

/-- A route that FIND finds is a continuous path from its source to its destination, of 1 to 12 hops, that repeats no
element and passes guarded elements only when asked to (R69 to R72). The search misses nothing its rules allow, and
finds the first in their order: there is one list of entries for each source, first in first out, that starts at the
far end of the source's leg, marks each terminal once, holds every extension of its entries but for those to a marked
terminal, orders them by the entry they extend and then by throw, with the number of hops never falling, and FIND
answers the first entry of it at the destination with a hop, or none when there is none. -/
def Obligations.FindFindsAContinuousPath : Prop :=
  (∀ (s : State) (src dst : Nat) (guarded : Bool) (l : List Hop), search s src dst guarded = some l →
    (1 ≤ l.length ∧ l.length ≤ 12) ∧ Continuous s dst (.port src) l ∧ (l.map fun h => h.elem).Nodup
    ∧ (∀ h ∈ l, ∃ x, elemAt s h.elem = some x ∧ (x.guarded = true → guarded = true))
    ∧ walk s dst 1 (.port src) (l.map fun h => (h.elem, h.pos)) = .ok l)
  ∧ ∀ (s : State) (src : Nat) (guarded : Bool), LegsSafe s →
      ∃ (entries : List Entry) (parent : Nat → Nat),
        entries.head? = (partner s (.port src)).map (fun b => (b, []))
        ∧ (entries.map fun t => t.1).Nodup ∧ (∀ t ∈ entries, t.1 ≠ .port src)
        ∧ entries.Pairwise (fun t x => t.2.length ≤ x.2.length)
        ∧ (∀ j x, 0 < j → entries[j]? = some x →
            parent j < j ∧ ∃ t, entries[parent j]? = some t ∧ Extends s guarded t x)
        ∧ (∀ i j x y, 0 < i → i < j → entries[i]? = some x → entries[j]? = some y →
            parent i < parent j ∨ (parent i = parent j ∧ lastThrow x < lastThrow y))
        ∧ (∀ i t x, entries[i]? = some t → Extends s guarded t x → x.1 = .port src
            ∨ ∃ j y, entries[j]? = some y ∧ y.1 = x.1
                ∧ (j = 0 ∨ parent j < i ∨ (parent j = i ∧ lastThrow y ≤ lastThrow x)))
        ∧ ∀ dst, search s src dst guarded
            = (entries.find? fun t => t.1 == .port dst && !t.2.isEmpty).map fun t => t.2

/-- ROUTE, FIND and ROUTEDEL: refusals, the record each writes, and the reply; no other record changes (R64, R66 to
R68, R72, R77). ROUTE's checks in order (R64): the id held or pending, the first undefined item of source, destination
and hops, the first position above its element's n, source and destination the same, the first element named again (the
model's choice of it when two repeat, log entry 43).
FIND's are those of the id and the ports (R68). The record a successful definition writes: READY, with the properties worked out from the port classes
and the guarded elements (R66, R67). -/
def Obligations.RouteCommandsWriteOneRecord : Prop :=
  (∀ (plus : Bool) (r src dst : Nat) (hops : List (Nat × Nat)) (g : Bool) (s u : State),
     let held := ∃ x, routeAt u r = some x ∧ (x.state = .applied ∨ x.state = .retiring)
     let pending := ∃ x, routeAt u r = some x ∧ x.pending = true
     let idFree := ¬held ∧ ¬pending
     let portsKnown := idFree ∧ portAt u src ≠ none ∧ portAt u dst ≠ none
     (Takes (.route plus r src dst hops) s u →
       let refused (x : Reply) : Prop := exec (.route plus r src dst hops) s = .next (replied plus x u)
       let high (h : Nat × Nat) : Prop := ∃ y, elemAt u h.1 = some y ∧ y.n < h.2
       let itemsKnown := portsKnown ∧ ∀ h ∈ hops, elemAt u h.1 ≠ none
       let inRange := itemsKnown ∧ ∀ h ∈ hops, ¬high h
       (held → refused (er .inuse))
       ∧ (¬held → pending → refused (er .busy))
       ∧ (idFree → portAt u src = none → refused (erWith .undef (.port src)))
       ∧ (idFree → portAt u src ≠ none → portAt u dst = none → refused (erWith .undef (.port dst)))
       ∧ (∀ h, portsKnown → FirstWith (fun h => elemAt u h.1 = none) hops h → refused (erWith .undef (.elem h.1)))
       ∧ (∀ before h after, itemsKnown → hops = before ++ h :: after → (∀ b ∈ before, ¬high b) → high h →
           refused (erWith .range (vnum (before.length + 1))))
       ∧ (inRange → src = dst → refused (erWith .conflict (.word "SAME")))
       ∧ (∀ before h after, inRange → src ≠ dst → hops = before ++ h :: after →
           (before.map fun b => b.1).Nodup → h.1 ∈ before.map (fun b => b.1) →
           refused (erWith .conflict (.elem h.1)))
       ∧ (inRange → src ≠ dst → (hops.map fun h => h.1).Nodup →
         (∀ i, walk u dst 1 (.port src) hops = .error i →
           exec (.route plus r src dst hops) s = .next (replied plus (erWith .broken (vnum i)) u))
         ∧ ∀ l, walk u dst 1 (.port src) hops = .ok l →
           exec (.route plus r src dst hops) s = .next (replied plus
             (ok [.bare (vnum r), .bare (vnum l.length)])
             (u.setRoutes (tput u.routes r (newRoute u src dst l false))))))
     ∧ (Takes (.find plus r src dst g) s u →
       let refused (x : Reply) : Prop := exec (.find plus r src dst g) s = .next (replied plus x u)
       (held → refused (er .inuse))
       ∧ (¬held → pending → refused (er .busy))
       ∧ (idFree → portAt u src = none → refused (erWith .undef (.port src)))
       ∧ (idFree → portAt u src ≠ none → portAt u dst = none → refused (erWith .undef (.port dst)))
       ∧ (portsKnown → src = dst → refused (erWith .conflict (.word "SAME")))
       ∧ (portsKnown → src ≠ dst →
         (search u src dst g = none →
           exec (.find plus r src dst g) s = .next (replied plus (er .nopath) u))
         ∧ ∀ l, search u src dst g = some l →
           exec (.find plus r src dst g) s = .next (replied plus
             (ok (([vnum r, vnum l.length] ++ l.map fun h => Val.hop h.elem h.pos).map .bare))
             (u.setRoutes (tput u.routes r (newRoute u src dst l true))))))
     ∧ (Takes (.routedel plus r) s u →
       (routeAt u r = none → exec (.routedel plus r) s = .next (replied plus (er .undef) u))
       ∧ ∀ x, routeAt u r = some x →
         (x.state = .ready → x.pending = true → exec (.routedel plus r) s = .next (replied plus (er .busy) u))
         ∧ (x.state = .ready ∧ x.pending = false ∨ x.state = .stale →
           exec (.routedel plus r) s = .next (replied plus (ok [.bare (vnum r), .bare (.word "FREE")])
             (u.setRoutes (tdel u.routes r))))
         ∧ (x.state = .applied →
           exec (.routedel plus r) s = .next (replied plus (ok [.bare (vnum r), .bare (.word "RETIRING")])
             (u.setRoutes (tput u.routes r { x with state := .retiring }))))
         ∧ (x.state = .retiring →
           exec (.routedel plus r) s
             = .next (replied plus (ok [.bare (vnum r), .bare (.word "RETIRING")]) u))))
  ∧ (∀ (s : State) (src dst : Nat) (hops : List Hop) (found : Bool),
       let x := newRoute s src dst hops found
       let transmits (p : Nat) : Prop := ∃ q, portAt s p = some q ∧ (q.cls = .source ∨ q.cls = .duplex)
       let probe (p : Nat) : Prop := ∃ q, portAt s p = some q ∧ q.cls = .probe
       (x.state = .ready ∧ x.src = src ∧ x.dst = dst ∧ x.hops = hops ∧ x.found = found ∧ x.torn = none
         ∧ x.last = none ∧ x.pending = false)
       ∧ (x.carries = true ↔ transmits src ∨ transmits dst)
       ∧ (x.radiates = true ↔ (probe src ∧ transmits dst) ∨ (probe dst ∧ transmits src))
       ∧ (x.needsGuard = true ↔ ∃ h ∈ hops, ∃ e, elemAt s h.elem = some e ∧ e.guarded = true)
       ∧ (x.radiates = true → x.carries = true))

/-! ### The Throw Engine (R83 to R115) -/

/-- GO is refused while the engine or the ring excludes it or an id is named twice; otherwise its request is checked at
once, or waits in CHECK for the staging drives in progress (R86, R87). The reply and its suffix are formed just after
the request has passed, before the transition goes on (the model's choice, log entry 20). The id named twice is the first
seen again (log entry 43). What the end of the engine's last drive leads to, `advanceAll`: in BREAK and MAKE the phase is
looked at (R97); STAGING ends (R110); a survey passes over what it cannot sense and ends with nothing left (R112); a
request waiting in CHECK is checked, after a STEP's ahead failure has become a fault (R111), and its requester told (R86,
R87, R124); CHECK with no request ends in IDLE (R100); and a held DROP is taken on entry to IDLE (R103).
That a SYNC waits for staging until its last drive has ended is the model's choice (log entry 45). What follows an entry into
IDLE (`followUp`): a held DROP is taken first, then what the ring asks is done, staging for its next step, or the entry of its
step, which goes on when its request has just passed CHECK; such an entry asks for no other (R98 step 8, R124, R127; log
entry 30).
The staging drives that a cut takes off the list count neither as ended nor as left, and the
number listed stays (the model's choice, log entry 29). -/
def Obligations.GoIsCheckedThenTaken : Prop :=
  (∀ (plus : Bool) (ids : List Nat) (s u : State), Takes (.go plus ids) s u →
    let q : Request := { origin := .command, target := ids, plus := plus }
    let g := u.engine.staging
    let quit := u.setEngine { u.engine with staging := { g with todo := [], cut := g.cut + g.todo.length } }
    (engineEngaged u = true ∨ u.engine.mode = .survey →
      exec (.go plus ids) s = .next (replied plus (er .busy) u))
    ∧ (engineEngaged u = false → u.engine.mode ≠ .survey → ringRuns u = true →
      exec (.go plus ids) s = .next (replied plus (erWith .busy (.word "RING")) u))
    ∧ (∀ r, engineEngaged u = false → u.engine.mode ≠ .survey → ringRuns u = false →
      firstRepeat [] ids = some r → exec (.go plus ids) s = .next (replied plus (erWith .conflict (vnum r)) u))
    ∧ (ringRuns u = false → firstRepeat [] ids = none →
      (u.engine.mode = .idle →
        (∀ c d, checkSet u q = some (c, d) → exec (.go plus ids) s = .next (replied plus (erWith c d) u))
        ∧ (checkSet u q = none →
          exec (.go plus ids) s
            = .next (settle (followUp rounds (proceed (answer plus (ok []) (accept q u)))))))
      ∧ (u.engine.mode = .staging → u.engine.active ≠ [] →
        exec (.go plus ids) s = .next (settle (((setMode .check
          (quit.setEngine { quit.engine with waiting := some q })).setLink
            { u.link with hold := some (.goWait plus) }))))
      ∧ (u.engine.mode = .staging → u.engine.active = [] →
        let ended := u.setEngine { u.engine with mode := .idle, staging := stagingReset }
        (∀ c d, checkSet ended q = some (c, d) → exec (.go plus ids) s = .next (replied plus (erWith c d) ended))
        ∧ (checkSet ended q = none → exec (.go plus ids) s
            = .next (settle (followUp rounds (proceed (answer plus (ok []) (accept q ended)))))))))
  ∧ ∀ s : State,
    let ended := opEnded .staging (s.setEngine { s.engine with mode := .idle, staging := stagingReset })
    (s.engine.mode = .idle ∨ s.engine.mode = .muting → advanceAll s = takeHeldDrop s)
    ∧ (s.engine.mode = .breaking ∨ s.engine.mode = .making → advanceAll s = followUp rounds (phaseAdvance s))
    ∧ (s.engine.mode = .survey →
        let todo := passOver s s.engine.survey.todo
        (s.engine.survey.current ≠ none → advanceAll s = s)
        ∧ (s.engine.survey.current = none → todo ≠ [] → advanceAll s
            = s.setEngine { s.engine with survey := { s.engine.survey with todo := todo } })
        ∧ (s.engine.survey.current = none → todo = [] → advanceAll s = takeHeldDrop
            (opEnded .survey (s.setEngine { s.engine with mode := .idle, survey := surveyReset }))))
    ∧ (s.engine.mode = .staging →
        (s.engine.active ≠ [] ∨ s.engine.staging.todo ≠ [] → advanceAll s = s)
        ∧ (s.engine.active = [] → s.engine.staging.todo = [] → advanceAll s = takeHeldDrop ended))
    ∧ (s.engine.mode = .check →
        (s.engine.active ≠ [] → advanceAll s = s)
        ∧ (s.engine.active = [] → s.engine.waiting = none → advanceAll s = takeHeldDrop ended)
        ∧ ∀ q, s.engine.active = [] → s.engine.waiting = some q →
          let idle := ended.setEngine { ended.engine with waiting := none }
          let u : State := if q.origin = .step then (match s.engine.holder with
            | none => idle
            | some a => recordFault { plainFault .ahead with
                  elem := some a.elem, commanded := some a.commanded, indicated := some a.indicated }
                ((match elemAt s a.elem with
                  | some x => setElem a.elem { x with faulted := true } idle
                  | none => idle).setEngine { idle.engine with holder := none })) else idle
          let told (r : Reply) (v : State) : State := match s.link.hold with
            | some (.goWait plus) => answer plus r (v.setLink { v.link with hold := none })
            | _ => v
          (∀ c d, checkSet u q = some (c, d) →
            let v := opEnded .transition u
            (q.origin = .command → advanceAll s = takeHeldDrop (told (erWith c d) v))
            ∧ (q.origin = .step → advanceAll s = takeHeldDrop (ringRefused (haltOfCode c) d v))
            ∧ (q.origin = .drop → advanceAll s = takeHeldDrop v))
          ∧ (checkSet u q = none →
            (q.origin = .command → advanceAll s = followUp rounds (proceed (told (ok []) (accept q u))))
            ∧ (q.origin ≠ .command → advanceAll s = followUp rounds (proceed (accept q u)))))
    ∧ (let u := takeHeldDrop s
       let entry := continueEntry (beginEntry u)
       followUp rounds (s, .nothing) = u
       ∧ followUp rounds (s, .stage) = stageNext u
       ∧ (entry.2 = .nothing → followUp rounds (s, .enter) = takeHeldDrop entry.1)
       ∧ (entry.2 = .stage → followUp rounds (s, .enter) = stageNext (takeHeldDrop entry.1))
       ∧ entry.2 ≠ .enter
       ∧ continueEntry (s, true) = proceed s ∧ continueEntry (s, false) = (s, .nothing))

/-- CHECK (R88): the first failure over its seven conditions in order, each over the routes in the order given and over
each route's hops in order, with its code and detail; and CHECK passes exactly when none fails. A RETIRING route of the
applied set passes for a DROP, and the permit is not asked of a DROP. Two routes conflict on a claimed element or an
end port (R80). Of a route's two endpoints the source port comes first (the model's choice, log entry 41). -/
def Obligations.CheckAdmitsUsableRoutes : Prop :=
  ∀ (s : State) (q : Request),
    let undef (r : Nat) : Prop := routeAt s r = none
      ∨ ∃ x, routeAt s r = some x ∧ x.state = .retiring ∧ ¬(q.origin = .drop ∧ r ∈ s.engine.applied)
    let stale (r : Nat) : Prop := ∃ x, routeAt s r = some x ∧ x.state = .stale
    let conflict (a b : Nat) : Prop := ∃ x y, routeAt s a = some x ∧ routeAt s b = some y
      ∧ ((∃ h ∈ x.hops, ∃ k ∈ y.hops, h.elem = k.elem)
        ∨ x.src = y.src ∨ x.src = y.dst ∨ x.dst = y.src ∨ x.dst = y.dst)
    let unusable (h : Hop) : Prop :=
      ¬∃ e, elemAt s h.elem = some e ∧ cardEnabled s e.card = true ∧ e.faulted = false
    let guarded (h : Hop) : Prop := ∃ e, elemAt s h.elem = some e ∧ e.guarded = true ∧ h.elem ∉ s.net.released
    let barred (p : Nat) : Prop := ∃ n, portFixture s p = some n
      ∧ ¬((fixtureAt s n).state = .admitted ∧ (fixtureAt s n).owner = .localOwner)
    let exposed (r : Nat) : Prop :=
      q.origin ≠ .drop ∧ permit s = false ∧ ∃ x, routeAt s r = some x ∧ x.radiates = true
    let someHop (p : Hop → Prop) (r : Nat) : Prop := ∃ x, routeAt s r = some x ∧ ∃ h ∈ x.hops, p h
    let someEnd (p : Nat → Prop) (r : Nat) : Prop := ∃ x, routeAt s r = some x ∧ (p x.src ∨ p x.dst)
    let pass1 := ∀ r ∈ q.target, ¬undef r
    let pass2 := pass1 ∧ ∀ r ∈ q.target, ¬stale r
    let pass3 := pass2 ∧ q.target.Pairwise fun a b => ¬conflict a b
    let pass4 := pass3 ∧ ∀ r ∈ q.target, ¬someHop unusable r
    let pass5 := pass4 ∧ ∀ r ∈ q.target, ¬someHop guarded r
    let pass6 := pass5 ∧ ∀ r ∈ q.target, ¬someEnd barred r
    (∀ r, FirstWith undef q.target r → checkSet s q = some (.undef, vnum r))
    ∧ (∀ r, pass1 → FirstWith stale q.target r → checkSet s q = some (.stale, vnum r))
    ∧ (∀ before r after, pass2 → q.target = before ++ r :: after → (before.Pairwise fun a b => ¬conflict a b) →
        (∃ b ∈ before, conflict b r) → checkSet s q = some (.conflict, vnum r))
    ∧ (∀ r x h, pass3 → FirstWith (someHop unusable) q.target r → routeAt s r = some x →
        FirstWith unusable x.hops h → checkSet s q = some (.unavail, .elem h.elem))
    ∧ (∀ r x h, pass4 → FirstWith (someHop guarded) q.target r → routeAt s r = some x →
        FirstWith guarded x.hops h → checkSet s q = some (.guard, .elem h.elem))
    ∧ (∀ r x p n, pass5 → FirstWith (someEnd barred) q.target r → routeAt s r = some x →
        FirstWith barred [x.src, x.dst] p → portFixture s p = some n →
        checkSet s q = some (.unavail, .fixt n))
    ∧ (∀ r, pass6 → FirstWith exposed q.target r → checkSet s q = some (.permit, vnum r))
    ∧ (checkSet s q = none ↔ pass6 ∧ ∀ r ∈ q.target, ¬exposed r)

/-- What passing CHECK writes: the next transition number, the record with its sets, the pending marks, and MUTING
with its timer or BREAK (R84, R88, R91). What the record keeps of the routes of A and B, as CHECK found them: the elements
they claim, the fixtures they end on, and whether one radiates (log entry 18). The plan: which elements are driven to rest in BREAK and to their targets in
MAKE, and when mute is needed (R89, R90). -/
def Obligations.AcceptedRequestsArePlanned : Prop :=
  (∀ (s : State) (q : Request),
     let t := newTrans s q
     let v := accept q s
     (t.number = if s.engine.number = 65535 then 1 else s.engine.number + 1)
     ∧ (t.origin = q.origin ∧ t.old = s.engine.applied ∧ t.target = q.target ∧ t.notedElems = []
       ∧ t.notedFixtures = [] ∧ t.faultedElems = [] ∧ t.stop = none ∧ t.firstFault = none ∧ t.outcome = none
       ∧ t.brkTodo = t.brk ∧ t.makTodo = t.mak)
     ∧ (let concerned (p : Route → Prop) : Prop := ∃ r ∈ s.engine.applied ++ q.target, ∃ y, routeAt s r = some y ∧ p y
        (∀ e, e ∈ t.claimed ↔ concerned fun y => ∃ h ∈ y.hops, h.elem = e)
        ∧ (∀ n, n ∈ t.fixtures ↔ concerned fun y => portFixture s y.src = some n ∨ portFixture s y.dst = some n)
        ∧ (t.radiating = true ↔ concerned fun y => y.radiates = true))
     ∧ v.engine = { s.engine with
         number := t.number, trans := some t, mode := if t.muteNeeded then .muting else .breaking,
         mute := t.muteNeeded, muteTimer := if t.muteNeeded then some s.site.muteWait else none }
     ∧ (∀ r x, routeAt s r = some x → routeAt v r = some { x with
         pending := x.pending || (q.target.contains r && x.state == .ready) })
     ∧ v = (s.setRoutes v.routes).setEngine v.engine)
  ∧ (∀ (s : State) (q : Request), tableWf s.net.elems = true →
       let t := newTrans s q
       (∀ e x, elemAt s e = some x →
         let claimed := requiredPos s q.target e
         let want := claimed.getD (restOf x.kind)
         let driven := (claimed ≠ none ∨ cardEnabled s x.card = true ∧ x.faulted = false) ∧ x.pos ≠ some want
         (e ∈ t.brk ↔ driven ∧ x.pos ≠ some (restOf x.kind))
         ∧ ∀ k, (e, k) ∈ t.mak ↔ driven ∧ k = want ∧ want ≠ restOf x.kind)
       ∧ (∀ e, elemAt s e = none → e ∉ t.brk ∧ ∀ k, (e, k) ∉ t.mak)
       ∧ (t.brk.Pairwise (fun a b => a < b) ∧ t.mak.Pairwise fun a b => a.1 < b.1)
       ∧ (t.muteNeeded = true ↔ ∃ e x, elemAt s e = some x ∧ isEm x.kind = true ∧ (e ∈ t.brk ∨ ∃ k, (e, k) ∈ t.mak)
           ∧ ∃ r ∈ s.engine.applied ++ q.target, ∃ y, routeAt s r = some y ∧ y.carries = true
               ∧ ∃ h ∈ y.hops, h.elem = e))

/-- MUTE_ACK_ASSERTED, MUTE_ACK_DEASSERTED and MUTE_WAIT_EXPIRY: BREAK begins, a hot event stops the transition and
sets the latch, a timeout is recorded and ends it with nothing moved, also after a CARD or FIXTURE note, and otherwise
nothing but the level changes (R91 to R94, R185). The start of BREAK: the routes of A that are not in B leave in A's order,
ascending (R85), an APPLIED one becoming READY and a RETIRING one FREE with `!RETIRE`, for a DROP as tears PERMIT of which
the ring is told (R94, R75, R76, R134), and nothing else changes; with an empty break list the phase ends there (R97). A
timeout with no timer running changes nothing (log entry 7), and which EM drives are left for a hot event after a fault
in BREAK is the model's reading (log entry 17). The ring that was entering halts on the timeout (R124). -/
def Obligations.MuteEventsActInTheirPhase : Prop :=
  (∀ (s : State) (t : Trans), tableWf s.routes = true → s.engine.applied.Nodup → t.old.Nodup → s.engine.mode ≠ .staging →
    let v := leaveOld t s
    let leaves (r : Nat) : Prop := r ∈ t.old ∧ r ∉ t.target
    let retired := t.old.filter fun r =>
      !t.target.contains r && (routeAt s r).any fun x => decide (x.state = .retiring)
    (∀ r, r ∈ v.engine.applied ↔ r ∈ s.engine.applied ∧ ¬leaves r)
    ∧ (∀ r x, leaves r → routeAt s r = some x →
        (x.state = .applied → routeAt v r = some { x with
          state := .ready, torn := if t.origin = .drop then some .permit else x.torn })
        ∧ (x.state = .retiring → routeAt v r = none))
    ∧ (∀ r, ¬leaves r → routeAt v r = routeAt s r)
    ∧ (t.origin ≠ .drop → v.ring = s.ring ∧ v.link = (retired.foldl (fun u r => notify (.retire r) u) s).link)
    ∧ (t.origin = .drop →
        let halts := (s.ring.state = .dwelling ∨ s.ring.state = .held)
        (∀ r, halts → FirstWith (fun r => r ∉ t.target ∧ r ∈ currentGroup s) t.old r →
          v.ring = ringHalted .permit (vnum r) s.ring)
        ∧ (¬halts ∨ (∀ r, leaves r → r ∉ currentGroup s) → v.ring = s.ring))
    ∧ v = (((s.setEngine { s.engine with applied := v.engine.applied }).setRoutes v.routes).setRing v.ring).setLink
        v.link)
  ∧ (∀ (s : State) (t : Trans), s.engine.trans = some t →
      (s.engine.mode = .breaking ∨ (s.engine.mode = .muting ∧ s.muteAck = true) →
        let v := leaveOld t s
        proceed s = phaseAdvance (v.setEngine { v.engine with mode := .breaking, muteTimer := none }))
      ∧ (s.engine.mode = .muting → s.muteAck = false → proceed s = (s, .nothing)))
  ∧ ∀ s : State,
    (s.engine.mode ≠ .muting → exec .muteAckAsserted s = .next (settle (s.setMuteAck true)))
    ∧ (∀ t, s.engine.mode = .muting → s.engine.trans = some t → t.brkTodo ≠ [] →
        let v := leaveOld t (s.setMuteAck true)
        exec .muteAckAsserted s
          = .next (settle (v.setEngine { v.engine with mode := .breaking, muteTimer := none })))
    ∧ (∀ t, s.engine.mode = .muting → s.engine.trans = some t →
        let v := leaveOld t (s.setMuteAck true)
        exec .muteAckAsserted s = .next (settle (followUp rounds (phaseAdvance
          (v.setEngine { v.engine with mode := .breaking, muteTimer := none })))))
    ∧ (s.engine.trans = none → exec .muteAckDeasserted s = .next (settle (s.setMuteAck false)))
    ∧ (∀ t, s.engine.trans = some t →
        let hot := s.engine.mute = true ∧ (s.engine.mode = .breaking ∨ s.engine.mode = .making)
          ∧ t.stop = none ∧ emDriveLeft s t = true
        (¬hot → exec .muteAckDeasserted s = .next (settle (s.setMuteAck false)))
        ∧ (hot → s.engine.active ≠ [] → ∃ v, exec .muteAckDeasserted s = .next (settle v)
          ∧ v.engine.trans = some { t with stop := some .hot, brkTodo := [], makTodo := [] }
          ∧ v.latch = true ∧ v.muteAck = false ∧ v.engine.applied = s.engine.applied
          ∧ v.engine.active = s.engine.active
          ∧ v.records.fault = (match s.records.fault with
              | some f => some f
              | none => some { plainFault .hot with
                  elem := t.lastEm, number := some s.engine.number,
                  step := if s.ring.state = .idle then none else some s.ring.ptr,
                  torn := sortNat (t.target.filter fun r => !t.old.contains r) }))
        ∧ (hot →
          let r := recordFault { plainFault .hot with
            elem := t.lastEm, number := some s.engine.number,
            torn := sortNat (t.target.filter fun r => !t.old.contains r) } (s.setMuteAck false)
          let v := (r.setEngine { s.engine with
            trans := some { t with stop := some .hot, brkTodo := [], makTodo := [] } }).setLatch true
          (s.engine.active ≠ [] → exec .muteAckDeasserted s = .next (settle v))
          ∧ (s.engine.active = [] → exec .muteAckDeasserted s
              = .next (settle (followUp rounds (endTransition (s.engine.mode == .making) v))))))
    ∧ (s.engine.mode ≠ .muting ∨ s.engine.muteTimer = none → exec .muteWaitExpiry s = .next (settle s))
    ∧ (∀ t, s.engine.mode = .muting → s.engine.muteTimer ≠ none → s.engine.trans = some t →
        t.stop = none → t.firstFault = none → t.notedElems = [] → t.notedFixtures = [] →
        t.faultedElems = [] → s.engine.dropHeld = false → ∃ v, exec .muteWaitExpiry s = .next (settle v)
          ∧ v.engine = { s.engine with
              mode := .idle
              mute := false
              muteTimer := none
              trans := some
                { t with firstFault := some .muteTimeout, outcome := some (.faulted, some .muteTimeout) } }
          ∧ v.latch = s.latch ∧ v.net = s.net
          ∧ v.ring = (if t.origin = .step ∧ s.ring.state = .entering
              then ringHalted .muteTimeout (vnum t.number) s.ring else s.ring)
          ∧ (let timed := recordFault { plainFault .muteTimeout with number := some s.engine.number } s
             v.records = timed.records
             ∧ (t.origin ≠ .step → v.link = (opEnded .transition
                 (notify (.done (some t.number) t.origin .faulted (some .muteTimeout)) timed)).link))
          ∧ ∀ r x, routeAt s r = some x → routeAt v r = some { x with pending := false })
    ∧ (∀ t, s.engine.mode = .muting → s.engine.muteTimer ≠ none → s.engine.trans = some t →
        let timed := recordFault { plainFault .muteTimeout with number := some s.engine.number } s
        exec .muteWaitExpiry s = .next (settle (followUp rounds (endTransition false (timed.setEngine { s.engine with
          trans := some { t with firstFault := some (t.firstFault.getD .muteTimeout) } })))))

/-- What the issue of a DRIVE does: the bus is taken, the position becomes UNKNOWN, an EM pulse counts against its
card, the throw is counted, and an element whose count has come to its life limit is noticed once with `!WEAR`; and no EM
drive is issued past two pulses of a card (R94, R95, R145, R190). An EM drive of a transition in flight becomes its record's
last EM element, which a hot event reports (R93, R185); any other issue leaves the record. A drive's own
events: DRIVE_ACKNOWLEDGED frees the bus, PULSE_END the card's budget, SETTLE_END ends a FAILSAFE or SOLID drive or
makes the readback due, and RETRY_DELAY_EXPIRY makes the retry due (R95, R96, R145). Each of the four changes nothing
when no drive is at its stage (log entry 7). A DRIVE names its element's card and slot, the position, and to an EM
element the pulse width; a SENSE the card and slot (R25, R95, R96). When a drive's end is the last of its phase, what
follows is `advanceAll` of the state it leaves (R97). -/
def Obligations.DrivesRunFromIssueToEnd : Prop :=
  (∀ (s : State) (e target : Nat) (x : Elem), elemAt s e = some x → tableWf s.cards = true →
     tableWf s.records.wear = true →
     let v := issueDrive e target x s
     (mayIssue s e = true ↔ isEm x.kind = false ∨ (cardAt s x.card).pulses < 2)
     ∧ v.bus.tx = some (.drive x.card x.slot e target x.pulse)
     ∧ elemAt v e = some { x with pos := none } ∧ (∀ f, f ≠ e → elemAt v f = elemAt s f)
     ∧ v.engine.active = s.engine.active ++ [
         { elem := e, target := target, settle := x.settle,
           stage := if isEm x.kind then .pulsing (x.pulse.getD 0) else .settling x.settle }]
     ∧ (cardAt v x.card).pulses = (cardAt s x.card).pulses + (if isEm x.kind then 1 else 0)
     ∧ (∀ n, n ≠ x.card → cardAt v n = cardAt s n)
     ∧ (wearAt v e).count = min ((wearAt s e).count + 1) 4294967295
     ∧ ((wearAt s e).count ≤ 4294967295 →
        let count := min ((wearAt s e).count + 1) 4294967295
        let due := 0 < x.life ∧ x.life ≤ count ∧ (wearAt s e).noticed = false
        (due → wearAt v e = { wearAt s e with count := count, noticed := true }
          ∧ v.link = (notify (.wear e count) s).link)
        ∧ (¬due → wearAt v e = { wearAt s e with count := count } ∧ v.link = s.link))
     ∧ (v.records = { s.records with wear := v.records.wear } ∧ v.site = s.site ∧ v.muteAck = s.muteAck)
     ∧ (isEm x.kind = true → inFlight s = true →
         v.engine.trans = s.engine.trans.map fun t => { t with lastEm := some e })
     ∧ (isEm x.kind = false ∨ inFlight s = false → v.engine.trans = s.engine.trans)
     ∧ (∀ f, f ≠ e → wearAt v f = wearAt s f)
     ∧ (v.routes = s.routes ∧ v.ring = s.ring ∧ v.fixtures = s.fixtures ∧ v.loops = s.loops ∧ v.latch = s.latch
       ∧ v.engine.applied = s.engine.applied ∧ v.engine.mode = s.engine.mode ∧ v.net.legs = s.net.legs))
  ∧ (∀ (s : State) (e : Nat) (x : Elem) (l : List Nat), elemAt s e = some x →
       (∀ d retry, driveOf s e = some d → d.stage = .senseDue retry →
         let v := setStage e (.sensing retry) s
         issueSense e l s = (v.setEngine { v.engine with due := l }).setBus
           { s.bus with tx := some (.sense x.card x.slot e false) })
       ∧ issueSurveySense e l x s = (s.setEngine { s.engine with
           survey := { s.engine.survey with todo := l, current := some e } }).setBus
             { s.bus with tx := some (.sense x.card x.slot e true) })
  ∧ (∀ (s : State) (e : Nat), e ≤ 95 →
       (∀ n c f p w, s.bus.tx = some (.drive n c f p w) →
         exec .driveAcknowledged s = .next (settle (setTx none s)))
       ∧ ((∀ n c f p w, s.bus.tx ≠ some (.drive n c f p w)) → exec .driveAcknowledged s = .next (settle s))
       ∧ (driveOf s e = none → exec (.pulseEnd e) s = .next (settle s) ∧ exec (.settleEnd e) s = .next (settle s)
           ∧ exec (.retryDelayExpiry e) s = .next (settle s))
       ∧ ∀ d x, driveOf s e = some d → elemAt s e = some x →
           (∀ ms, d.stage = .pulsing ms → exec (.pulseEnd e) s = .next (settle
             (setPulses x.card (fun p => p - 1) (setStage e (.settling d.settle) s))))
           ∧ (∀ k, d.stage = .settling k → x.kind = .latch →
             let v := setStage e (.senseDue false) s
             exec (.settleEnd e) s = .next (settle (v.setEngine { v.engine with due := s.engine.due ++ [e] })))
           ∧ (∀ k, d.stage = .settling k → x.kind ≠ .latch → exec (.settleEnd e) s = .next (settle (advanceAll
               ((setElem e { x with pos := some d.target } s).setEngine { s.engine with
                 active := s.engine.active.filter fun d' => d'.elem != e }))))
           ∧ (∀ k, d.stage = .settling k → x.kind ≠ .latch → s.engine.mode ≠ .idle → s.engine.mode ≠ .survey →
             (∃ d' ∈ s.engine.active, d'.elem ≠ e) → exec (.settleEnd e) s = .next (settle
               ((setElem e { x with pos := some d.target } s).setEngine { s.engine with
                 active := s.engine.active.filter fun d' => d'.elem != e })))
           ∧ (∀ k, d.stage = .retryWait k →
             let v := setStage e (.senseDue true) s
             exec (.retryDelayExpiry e) s
               = .next (settle (v.setEngine { v.engine with due := s.engine.due ++ [e] }))))

/-- SENSE_RESULT of a readback, while other drives go on: the driven position ends the drive, another position starts
the retry delay or is a readback failure; a staging failure is held and not recorded; a survey writes what it senses
(R96, R97, R109, R112). A position above the element's n counts as indeterminate. When the sense is the last of its
phase or survey, what follows is `advanceAll` of the state it leaves (R97), and a survey then ends (R112). A
SENSE_RESULT with no transaction on the bus changes nothing (log entry 7). A failure of a transition and one of a survey are
recorded with cause READBACK (R185); a failure that is the last of its phase, or that comes in the CHECK wait, leads on as
the end of any drive does. -/
def Obligations.SensesAreJudged : Prop :=
  ∀ (s : State) (n e : Nat) (got : Option Nat) (x : Elem), elemAt s e = some x →
    let sensed := got.bind fun k => if k ≤ x.n then some k else none
    let u := setTx none s
    (s.bus.tx = none → exec (.senseResult got) s = .next (settle s))
    ∧ (∀ c d retry, s.bus.tx = some (.sense n c e false) → driveOf s e = some d → d.elem = e →
        d.stage = .sensing retry →
      (sensed ≠ some d.target → retry = false → s.site.retryDelay ≠ 0 →
        exec (.senseResult got) s = .next (settle (setStage e (.retryWait s.site.retryDelay) u)))
      ∧ (s.engine.mode = .breaking ∨ s.engine.mode = .making ∨ s.engine.mode = .staging →
        (∃ d' ∈ s.engine.active, d'.elem ≠ e) →
        let rest := s.engine.active.filter fun d' => d'.elem != e
        (sensed = some d.target → exec (.senseResult got) s = .next (settle
          (let v := (setElem e { x with pos := some d.target } u).setEngine { s.engine with active := rest }
           if retry then lateEvent e v else v)))
        ∧ (sensed ≠ some d.target → retry = true ∨ s.site.retryDelay = 0 →
          ∃ v, exec (.senseResult got) s = .next (settle v) ∧ v.engine.active = rest
            ∧ (s.engine.mode = .staging →
                elemAt v e = some { x with pos := none } ∧ v.records = s.records ∧ v.latch = s.latch
                ∧ v.engine.holder = if s.engine.staging.discard then s.engine.holder
                    else some { elem := e, commanded := d.target, indicated := sensed })
            ∧ (∀ t, s.engine.mode ≠ .staging → s.engine.trans = some t →
                elemAt v e = some { x with pos := sensed, faulted := true }
                ∧ v.engine.trans = some (noteFirst .readback { t with faultedElems := t.faultedElems ++ [e] })
                ∧ v.latch = (s.latch || t.muteNeeded)
                ∧ (s.records.fault = none → ∃ f, v.records.fault = some f ∧ f.cause = .readback
                    ∧ f.elem = some e ∧ f.commanded = some d.target ∧ f.indicated = some sensed)))))
    ∧ (∀ c d retry, s.bus.tx = some (.sense n c e false) → driveOf s e = some d → d.elem = e →
        d.stage = .sensing retry → sensed = some d.target →
        let v := (setElem e { x with pos := some d.target } u).setEngine { s.engine with
          active := s.engine.active.filter fun d' => d'.elem != e }
        exec (.senseResult got) s = .next (settle (advanceAll (if retry then lateEvent e v else v))))
    ∧ (∀ c d retry, s.bus.tx = some (.sense n c e false) → driveOf s e = some d → d.elem = e →
        d.stage = .sensing retry → sensed ≠ some d.target → retry = true ∨ s.site.retryDelay = 0 →
        let rest := s.engine.active.filter fun d' => d'.elem != e
        (s.engine.mode = .staging ∨ s.engine.mode = .check →
          exec (.senseResult got) s = .next (settle (advanceAll ((setElem e { x with pos := none } u).setEngine
            { s.engine with
              active := rest
              holder := if s.engine.staging.discard then s.engine.holder
                else some { elem := e, commanded := d.target, indicated := sensed } }))))
        ∧ (∀ t, s.engine.mode = .breaking ∨ s.engine.mode = .making → s.engine.trans = some t →
          let recorded := recordFault { plainFault .readback with
              elem := some e, commanded := some d.target, indicated := some sensed, number := some s.engine.number,
              torn := sortNat (t.target.filter fun r => (routeAt s r).any fun y => y.hops.any fun h => h.elem == e) }
            (setElem e { x with pos := sensed, faulted := true } u)
          exec (.senseResult got) s = .next (settle (advanceAll ((recorded.setEngine { s.engine with
            active := rest
            trans := some (noteFirst .readback { t with faultedElems := t.faultedElems ++ [e] }) }).setLatch
              (s.latch || t.muteNeeded))))))
    ∧ (∀ c, s.bus.tx = some (.sense n c e true) → s.engine.mode = .survey → s.engine.survey.current = some e →
        passOver s s.engine.survey.todo = [] → s.engine.dropHeld = false → ∃ v,
          exec (.senseResult got) s = .next (settle v)
          ∧ elemAt v e = some { x with pos := sensed, faulted := x.faulted || sensed.isNone }
          ∧ v.records = (if sensed = none then
              (recordFault { plainFault .readback with elem := some e, indicated := some none } s).records
            else s.records)
          ∧ v.engine = { s.engine with mode := .idle, survey := surveyReset })
    ∧ (∀ c l, s.bus.tx = some (.sense n c e true) → s.engine.mode = .survey → s.engine.survey.current = some e →
        passOver s s.engine.survey.todo = l → l ≠ [] → ∃ v, exec (.senseResult got) s = .next (settle v)
          ∧ elemAt v e = some { x with pos := sensed, faulted := x.faulted || sensed.isNone }
          ∧ v.records = (if sensed = none then
              (recordFault { plainFault .readback with elem := some e, indicated := some none } s).records
            else s.records)
          ∧ v.engine.survey = { s.engine.survey with
              current := none, returned := s.engine.survey.returned + 1, todo := l }
          ∧ v.engine.mode = .survey)

/-- A card that leaves ENABLED parks its elements, ends their drives and senses and takes their waiting drives off the
lists, and nothing else of the net or the engine changes (R104, R105, R108); then, with no transition in flight, the
applied routes that claim an element of it are torn at once (R106), and in flight its elements are noted, with CARD as
first fault when the transition is concerned (R99, R105; log entry 18), and what follows is looked at (R153). CARD_NO_ANSWER
is judged by the transaction and its card's state (R143). The model's
choices: a drive or sense whose card has left ENABLED meanwhile only frees the bus (log entry 22), CARD_NO_ANSWER with
no transaction changes nothing (log entry 7), and it also stands for a POLL of discovery that is not answered (log
entry 8). -/
def Obligations.LostCardsParkTheirElements : Prop :=
  (∀ (s : State) (n : Nat),
    let v := dropCardDrives n s
    let on (e : Nat) : Prop := e ∈ elemsOnCard s n
    let moving (e : Nat) : Prop := ∃ d ∈ s.engine.active, d.elem = e
    (∀ e x, elemAt s e = some x →
      (x.card ≠ n → elemAt v e = some x)
      ∧ (x.card = n → ∃ y, elemAt v e = some y ∧ { y with pos := x.pos } = x
          ∧ (x.kind = .failsafe → y.pos = some 1) ∧ (x.kind = .solid → y.pos = some 0)
          ∧ (x.kind = .latch → moving e → y.pos = none) ∧ (x.kind = .latch → ¬moving e → y.pos = x.pos)))
    ∧ (∀ e, elemAt s e = none → elemAt v e = none)
    ∧ v.net = { s.net with elems := v.net.elems }
    ∧ (∀ d, d ∈ v.engine.active ↔ d ∈ s.engine.active ∧ ¬on d.elem)
    ∧ (∀ e, e ∈ v.engine.due ↔ e ∈ s.engine.due ∧ ¬on e)
    ∧ (∀ p, p ∈ v.engine.staging.todo ↔ p ∈ s.engine.staging.todo ∧ ¬on p.1)
    ∧ (∀ e, v.engine.survey.current = some e ↔ s.engine.survey.current = some e ∧ ¬on e)
    ∧ (inFlight s = false ∨ s.engine.trans = none → v.engine.trans = s.engine.trans)
    ∧ (∀ t, inFlight s = true → s.engine.trans = some t → ∃ t', v.engine.trans = some t'
        ∧ t' = { t with brkTodo := t'.brkTodo, makTodo := t'.makTodo }
        ∧ t'.brkTodo.Sublist t.brkTodo ∧ (∀ e, e ∈ t'.brkTodo ↔ e ∈ t.brkTodo ∧ ¬on e)
        ∧ t'.makTodo.Sublist t.makTodo ∧ ∀ p, p ∈ t'.makTodo ↔ p ∈ t.makTodo ∧ ¬on p.1)
    ∧ (v.engine.active.Sublist s.engine.active ∧ v.engine.due.Sublist s.engine.due
      ∧ v.engine.staging.todo.Sublist s.engine.staging.todo)
    ∧ v.engine = { s.engine with
        active := v.engine.active
        due := v.engine.due
        staging := { s.engine.staging with todo := v.engine.staging.todo }
        survey := { s.engine.survey with current := v.engine.survey.current }
        trans := v.engine.trans }
    ∧ v = (s.setNet v.net).setEngine v.engine)
  ∧ (∀ (s : State) (n : Nat),
    let on := elemsOnCard s n
    let w := dropCardDrives n (setPulses n (fun _ => 0) s)
    let claiming := s.engine.applied.filter fun r =>
      (routeAt s r).any fun x => x.hops.any fun h => on.contains h.elem
    (tableWf s.net.elems = true → ∀ e, e ∈ on ↔ ∃ x, elemAt s e = some x ∧ x.card = n)
    ∧ (inFlight s = false → leaveEnabled n s = advanceAll (tearAll .card claiming w))
    ∧ ∀ t t', inFlight s = true → s.engine.trans = some t → w.engine.trans = some t' →
      let noted (f : Option FirstFault) : State := w.setEngine { w.engine with
        trans := some { t' with notedElems := t.notedElems ++ on, firstFault := f } }
      let concerned := ∃ e ∈ on, e ∈ t.brk ∨ (∃ k, (e, k) ∈ t.mak) ∨ e ∈ t.claimed
      (t.firstFault = none → concerned → leaveEnabled n s = advanceAll (noted (some .card)))
      ∧ (t.firstFault ≠ none ∨ ¬concerned → leaveEnabled n s = advanceAll (noted t.firstFault)))
  ∧ ∀ s : State,
    (s.bus.tx = none → exec .cardNoAnswer s = .next (settle s))
    ∧ (∀ n c e, (∃ p w, s.bus.tx = some (.drive n c e p w)) ∨ (∃ survey, s.bus.tx = some (.sense n c e survey)) →
      (cardEnabled s n = false → exec .cardNoAnswer s = .next (settle (setTx none s)))
      ∧ (cardEnabled s n = true → exec .cardNoAnswer s = .next (settle (leaveEnabled n
          (cardFault .cardLost n (changeCard n .absent (setTx none s)))))))
    ∧ (∀ n, s.bus.tx = some (.restart n) ∨ s.bus.tx = some (.pollRestart n) → ∃ v,
        exec .cardNoAnswer s = .next (settle v) ∧ v.bus.tx = none
        ∧ (tableWf s.cards = true → (cardAt v n).state = .absent ∧ (cardAt v n).restart = none
          ∧ (s.phase ≠ .discovery → (cardAt s n).state ≠ .absent → (cardAt v n).presenceChg = true)))
    ∧ (∀ n, s.bus.tx = some (.pollRound n) → exec .cardNoAnswer s = .next (settle
        (roundAt (n + 1) (roundPolled n .silent (setTx none s)))))
    ∧ (∀ n, s.bus.tx = some (.pollDiscovery n) → exec .cardNoAnswer s = .next (settle
        (discoveryAfter n (setLast n .silent (setTx none s)))))

/-- HALT is answered OK in every engine state (R100). In IDLE it stops nothing. In CHECK it abandons the waiting
request, whose requester is told, and the engine waits on for the staging drives. In MUTING it ends the transition at
once with nothing moved. In BREAK and MAKE it stops the transition: no drive more is issued, and it ends when the last
drive in progress has ended, at once when there is none (R101). In STAGING no staging drive more is issued (R110), and
in SURVEY no sense (R113); either ends at once when nothing of it is in progress. A stop already taken stays. A
transition of origin STEP that ends here halts an entering ring with HALT (R124).
The staging drives that a cut takes off the list count neither as ended nor as left, and the
number listed stays (the model's choice, log entry 29). -/
def Obligations.HaltStopsWhatRuns : Prop :=
  ∀ (plus : Bool) (s u : State), Takes (.halt plus) s u →
    let g := u.engine.staging
    exec (.halt plus) s = .next (replied plus (ok []) (haltEngine u))
    ∧ (u.engine.mode = .idle → haltEngine u = u)
    ∧ (u.engine.mode = .check → u.engine.active ≠ [] → u.engine.waiting = none → haltEngine u = u)
    ∧ (∀ q, u.engine.mode = .check → u.engine.active ≠ [] → u.engine.waiting = some q →
        let v := opEnded .transition (notify (.done none q.origin .halted (some .halt))
          (u.setEngine { u.engine with waiting := none }))
        haltEngine u = if q.origin = .step ∧ u.ring.state = .entering
          then notify (.halted .halt u.ring.ptr) (v.setRing (ringHalted .halt .dash u.ring)) else v)
    ∧ (u.engine.mode = .staging → u.engine.active ≠ [] → haltEngine u = u.setEngine { u.engine with
        staging := { g with todo := [], cut := g.cut + g.todo.length } })
    ∧ (u.engine.mode = .staging → u.engine.active = [] → haltEngine u
        = (u.setEngine { u.engine with mode := .idle, staging := stagingReset }).setLink (opEnded .staging u).link)
    ∧ (∀ t, u.engine.mode = .breaking ∨ u.engine.mode = .making → u.engine.active ≠ [] →
        u.engine.trans = some t →
        (t.stop ≠ none → haltEngine u = u)
        ∧ (t.stop = none → haltEngine u = (u.setEngine { u.engine with
            trans := some { t with stop := some .halt, brkTodo := [], makTodo := [] } }).setLatch
              (u.latch || t.muteNeeded)))
    ∧ (∀ t, u.engine.mode = .breaking ∨ u.engine.mode = .making → u.engine.active = [] →
        u.engine.trans = some t → t.stop = none →
        haltEngine u = followUp rounds (endTransition (u.engine.mode == .making) ((u.setEngine { u.engine with
            trans := some { t with stop := some .halt, brkTodo := [], makTodo := [] } }).setLatch
              (u.latch || t.muteNeeded))))
    ∧ (∀ t, u.engine.mode = .muting → u.engine.trans = some t → t.stop = none →
        t.notedElems = [] → t.notedFixtures = [] → t.faultedElems = [] → u.engine.dropHeld = false →
        (haltEngine u).engine = { u.engine with
          mode := .idle, mute := false, muteTimer := none,
          trans := some { t with stop := some .halt, outcome := some (.halted, some .halt) } }
        ∧ (haltEngine u).latch = u.latch ∧ (haltEngine u).net = u.net
        ∧ (haltEngine u).ring = if t.origin = .step ∧ u.ring.state = .entering
            then ringHalted .halt (vnum t.number) u.ring else u.ring)
    ∧ (∀ e, u.engine.mode = .survey → u.engine.survey.current = some e →
        haltEngine u = u.setEngine { u.engine with survey := { u.engine.survey with todo := [] } })
    ∧ (u.engine.mode = .survey → u.engine.survey.current = none → u.engine.dropHeld = false → haltEngine u
        = (u.setEngine { u.engine with mode := .idle, survey := surveyReset }).setLink (opEnded .survey u).link)

/-- SURVEY is refused unless the engine is IDLE and the ring IDLE or HALTED; it lists the LATCH elements of UNKNOWN
position that can be sensed, each once, in ascending number, and begins unless there is none (R112). -/
def Obligations.SurveysListUnknownLatches : Prop :=
  ∀ (plus : Bool) (s u : State), Takes (.survey plus) s u →
    (u.engine.mode ≠ .idle ∨ ringRuns u = true →
      exec (.survey plus) s = .next (replied plus (er .busy) u))
    ∧ (u.engine.mode = .idle → ringRuns u = false → tableWf u.net.elems = true → ∃ l : List Nat,
        l.Pairwise (fun a b => a < b)
        ∧ (∀ e, e ∈ l ↔ ∃ x, (e, x) ∈ u.net.elems ∧ x.kind = .latch ∧ x.pos = none
          ∧ cardEnabled u x.card = true ∧ x.faulted = false)
        ∧ (l = [] → exec (.survey plus) s = .next (replied plus (ok [.bare (vnum 0)]) u))
        ∧ (l ≠ [] → exec (.survey plus) s = .next (replied plus (ok [.bare (vnum l.length)])
            (u.setEngine { u.engine with
              mode := .survey
              survey := { total := l.length, returned := 0, todo := l, current := none } }))))

/-- The end of a transition that no stop and no fault touched: the routes of B enter, A's other routes stay as they
are, marks and mute go, the latch clears and `!DONE` reports CLEAN (R98, R99, R74); for a transition of origin COMMAND,
which tells the ring nothing. The end of any transition: which routes enter (R98 step 1), which are torn and with what
cause, the applied ones leaving and the others keeping their state (step 2), when the latch is set (step 3), and the
outcome and cause from the stop and the first fault (R99); that a PERMIT stop in MUTING sets no latch is the model's
reading (log entry 19), and that a route which a noted element and a noted fixture both reach is torn CARD (log entry 16).
Then `!RETIRE` of each RETIRING route torn, in ascending id, an order that R98 does not give (the model's choice, log entry
48), `!DONE`, and what the ring is told, the engine IDLE last: for a transition of
origin STEP its outcome, with what the ring asks of the engine in answer, and for any the tears (steps 7 and 8; R124, R134).
What the end of a phase leads to (R97). -/
def Obligations.CleanTransitionsApplyTheirRoutes : Prop :=
  (∀ (s : State) (t : Trans), s.engine.trans = some t → t.origin = .command → t.stop = none →
    t.firstFault = none → t.notedElems = [] → t.notedFixtures = [] → t.faultedElems = [] →
    let v := (endTransition true s).1
    let enters (r : Nat) : Prop := r ∈ t.target ∧ r ∉ t.old ∧ routeAt s r ≠ none
    (endTransition true s).2 = .nothing
    ∧ (∀ r, r ∈ v.engine.applied ↔ r ∈ s.engine.applied ∨ enters r)
    ∧ (∀ r x, routeAt s r = some x →
        (enters r → routeAt v r = some { x with state := .applied, last := some t.number, pending := false })
        ∧ (¬enters r → routeAt v r = some { x with pending := false }))
    ∧ (v.engine.mode = .idle ∧ v.engine.mute = false ∧ v.engine.muteTimer = none ∧ v.latch = false
      ∧ v.engine.trans = some { t with outcome := some (.clean, none) })
    ∧ (v.net = s.net ∧ v.ring = s.ring ∧ v.records = s.records ∧ v.cards = s.cards ∧ v.fixtures = s.fixtures)
    ∧ v.link = (opEnded .transition (notify (.done (some t.number) .command .clean none) s)).link)
  ∧ (∀ (s : State) (t : Trans) (completed : Bool), s.engine.trans = some t → tableWf s.routes = true →
      s.engine.applied.Pairwise (fun a b => a < b) → (∀ r ∈ s.engine.applied, r ∈ t.old) →
      let v := (endTransition completed s).1
      let claims (x : Route) (l : List Nat) : Prop := ∃ h ∈ x.hops, h.elem ∈ l
      let endsOn (x : Route) (l : List Nat) : Prop :=
        ∃ n ∈ l, portFixture s x.src = some n ∨ portFixture s x.dst = some n
      let noted (x : Route) (c : TearCause) : Prop := c = .card ∧ claims x t.notedElems
        ∨ c = .fixture ∧ ¬claims x t.notedElems ∧ endsOn x t.notedFixtures
      let enters (r : Nat) (x : Route) : Prop := completed = true ∧ t.stop = none ∧ r ∈ t.target ∧ r ∉ t.old
        ∧ ¬claims x t.faultedElems ∧ ¬claims x t.notedElems ∧ ¬endsOn x t.notedFixtures
      let lost (r : Nat) (x : Route) (c : TearCause) : Prop := r ∈ t.target ∧ r ∉ t.old ∧ ¬enters r x
        ∧ (c = .readback ∧ claims x t.faultedElems
          ∨ ¬claims x t.faultedElems ∧ (noted x c ∨ (∀ d, ¬noted x d)
            ∧ (c = .hot ∧ t.stop = some .hot ∨ c = .permit ∧ t.stop = some .permit)))
      let outcome : TransOutcome × Option EndCause := match t.stop, t.firstFault with
        | some .halt, _ => (.halted, some .halt)
        | some .permit, _ => (.halted, some .permit)
        | some .hot, _ => (.faulted, some .hot)
        | none, some .readback => (.faulted, some .readback)
        | none, some .muteTimeout => (.faulted, some .muteTimeout)
        | none, some .card => (.faulted, some .card)
        | none, some .fixture => (.faulted, some .fixture)
        | none, none => (.clean, none)
      (∀ r x, routeAt s r = some x →
        (enters r x → r ∈ v.engine.applied
          ∧ routeAt v r = some { x with state := .applied, last := some t.number, pending := false })
        ∧ (∀ c, r ∈ s.engine.applied → noted x c → r ∉ v.engine.applied
          ∧ (x.state = .applied → routeAt v r = some { x with state := .ready, torn := some c, pending := false })
          ∧ (x.state = .retiring → routeAt v r = none))
        ∧ (∀ c, lost r x c → r ∉ v.engine.applied
          ∧ routeAt v r = some { x with torn := some c, pending := false })
        ∧ (¬enters r x → ¬(r ∈ s.engine.applied ∧ ∃ c, noted x c) → (∀ c, ¬lost r x c) →
          (r ∈ v.engine.applied ↔ r ∈ s.engine.applied) ∧ routeAt v r = some { x with pending := false }))
      ∧ (v.latch = true ↔ outcome.1 ≠ .clean ∧ (s.latch = true ∨ ∃ r x c, routeAt s r = some x ∧ x.carries = true
          ∧ (r ∈ s.engine.applied ∧ noted x c
            ∨ lost r x c ∧ ¬(s.engine.mode = .muting ∧ c = .permit))))
      ∧ (v.engine.mode = .idle ∧ v.engine.mute = false ∧ v.engine.muteTimer = none
        ∧ v.engine.trans = some { t with outcome := some outcome })
      ∧ (v.net = s.net ∧ v.cards = s.cards ∧ v.fixtures = s.fixtures)
      ∧ (t.origin ≠ .step → (endTransition completed s).2 = .nothing ∧ v.records = s.records
        ∧ (s.ring.state ≠ .dwelling → s.ring.state ≠ .held → v.ring = s.ring))
      ∧ (let retired := s.engine.applied.filter fun r => (routeAt s r).any fun x => decide (x.state = .retiring)
           && (x.hops.any (fun h => t.notedElems.contains h.elem) || t.notedFixtures.any (endsOnFixture s x))
         let told := opEnded .transition (notify (.done (some t.number) t.origin outcome.1 outcome.2)
           (retired.foldl (fun u r => notify (.retire r) u) s))
         let u := (((s.setEngine { s.engine with
             applied := v.engine.applied, mute := false, muteTimer := none, trans := v.engine.trans }).setRoutes
               v.routes).setLatch v.latch).setLink told.link
         let ring := if t.origin = .step then ringOutcome t.number outcome.1 outcome.2 u else (u, .nothing)
         ∃ tears : List (Nat × TearCause),
           (∀ r c, (r, c) ∈ tears ↔ ∃ x, routeAt s r = some x ∧ (r ∈ s.engine.applied ∧ noted x c ∨ lost r x c))
           ∧ endTransition completed s
             = (setMode .idle (tears.foldl (fun w p => ringTorn p.2 p.1 w) ring.1), ring.2)))
  ∧ ∀ (s : State) (t : Trans), s.engine.trans = some t →
      (s.engine.active ≠ [] → phaseAdvance s = (s, .nothing))
      ∧ (s.engine.active = [] → s.engine.mode = .breaking →
        (t.brkTodo ≠ [] → phaseAdvance s = (s, .nothing))
        ∧ (t.brkTodo = [] → t.stop ≠ none ∨ t.faultedElems ≠ [] → phaseAdvance s = endTransition false s)
        ∧ (t.brkTodo = [] → t.stop = none → t.faultedElems = [] →
          (t.makTodo = [] → phaseAdvance s
            = endTransition true (s.setEngine { s.engine with mode := .making }))
          ∧ (t.makTodo ≠ [] → phaseAdvance s = (s.setEngine { s.engine with mode := .making }, .nothing))))
      ∧ (s.engine.active = [] → s.engine.mode = .making →
        (t.makTodo ≠ [] → phaseAdvance s = (s, .nothing))
        ∧ (t.makTodo = [] → phaseAdvance s = endTransition true s))

/-- Routes torn at once leave the applied set with their cause kept: an APPLIED route becomes READY, a RETIRING one
FREE; the latch is set when one of them carries source, and no other route changes (R75, R76, R106). A DWELLING or HELD
ring halts on the first torn route of its current group, with the tear's cause and the route's id, its position kept
(R134, R133), which ends staging (R133); any other ring, and staging with it, goes on (R106). A DROP that waits in CHECK
loses the torn routes from its target set (R103), and nothing else of the engine changes. -/
def Obligations.TornRoutesLeaveTheAppliedSet : Prop :=
  ∀ (s : State) (c : TearCause) (l : List Nat), s.engine.applied.Nodup → l.Nodup → tableWf s.routes = true →
    (∀ r ∈ l, r ∈ s.engine.applied ∧ ∃ x, routeAt s r = some x ∧ (x.state = .applied ∨ x.state = .retiring)) →
    let v := tearAll c l s
    (∀ r, r ∈ v.engine.applied ↔ r ∈ s.engine.applied ∧ r ∉ l)
    ∧ (∀ r ∈ l, ∀ x, routeAt s r = some x →
        (x.state = .applied → routeAt v r = some { x with state := .ready, torn := some c })
        ∧ (x.state = .retiring → routeAt v r = none))
    ∧ (∀ r, r ∉ l → routeAt v r = routeAt s r)
    ∧ (v.latch = true ↔ s.latch = true ∨ ∃ r ∈ l, ∃ x, routeAt s r = some x ∧ x.carries = true)
    ∧ (v.net = s.net ∧ v.records = s.records ∧ v.cards = s.cards ∧ v.fixtures = s.fixtures)
    ∧ (∀ r, s.ring.state = .dwelling ∨ s.ring.state = .held → FirstWith (fun r => r ∈ currentGroup s) l r →
        v.ring = ringHalted (match c with
          | .card => .card | .readback => .readback | .hot => .hot | .fixture => .fixture | .permit => .permit)
          (vnum r) s.ring)
    ∧ ((s.ring.state ≠ .dwelling ∧ s.ring.state ≠ .held) ∨ (∀ r ∈ l, r ∉ currentGroup s) → v.ring = s.ring)
    ∧ (let halts := (s.ring.state = .dwelling ∨ s.ring.state = .held) ∧ ∃ r ∈ l, r ∈ currentGroup s
       v.engine = { s.engine with
         applied := v.engine.applied, waiting := v.engine.waiting, mode := v.engine.mode, staging := v.engine.staging }
       ∧ (¬halts → v.engine.mode = s.engine.mode ∧ v.engine.staging = s.engine.staging)
       ∧ (halts → v.engine.mode = (endStaging false s).engine.mode
           ∧ v.engine.staging = (endStaging false s).engine.staging)
       ∧ (s.engine.waiting = none → v.engine.waiting = none)
       ∧ ∀ q, s.engine.waiting = some q → v.engine.waiting = some (if q.origin = .drop
           then { q with target := q.target.filter fun r => !l.contains r } else q))

/-! ### The Step Ring (R116 to R139) -/

/-- STEP, STEPDEL and RING: refusals, the record or position each writes, its further effects, and the reply (R117 to
R120). The id named twice is the first seen again (the model's choice, log entry 43). -/
def Obligations.StepCommandsEditTheRing : Prop :=
  ∀ (plus : Bool) (i : Nat) (s u : State),
    let edited (w : State) : State :=
      if (u.ring.state = .idle ∨ u.ring.state = .halted) ∧ i = u.ring.ptr then
        w.setRing { w.ring with visit := 1 }
      else if (u.ring.state = .dwelling ∨ u.ring.state = .held) ∧ i = (u.ring.ptr + 1) % u.ring.len
          ∧ i ≠ u.ring.ptr then endStaging true w
      else w
    (∀ dwell rep freq flags ids, Takes (.step plus i dwell rep freq flags ids) s u →
      let x : StepRec :=
        { dwell := dwell, rep := rep, freq := freq, ahead := flags.contains .ahead, mark := flags.contains .mark,
          notice := flags.contains .notice, group := ids }
      let c := Instr.step plus i dwell rep freq flags ids
      (ringRuns u = true → u.ring.ptr = i → exec c s = .next (replied plus (er .inuse) u))
      ∧ (¬(ringRuns u = true ∧ u.ring.ptr = i) →
        (∀ r, firstRepeat [] ids = some r → exec c s = .next (replied plus (erWith .conflict (vnum r)) u))
        ∧ (firstRepeat [] ids = none → exec c s = .next (replied plus (ok [.bare (vnum i), .bare (vnum ids.length)])
            (edited (u.setRing { u.ring with steps := tput u.ring.steps i x }))))))
    ∧ (Takes (.stepdel plus i) s u →
      (ringRuns u = true → u.ring.ptr = i → exec (.stepdel plus i) s = .next (replied plus (er .inuse) u))
      ∧ (¬(ringRuns u = true ∧ u.ring.ptr = i) →
        (stepAt u i = none → exec (.stepdel plus i) s = .next (replied plus (er .undef) u))
        ∧ (stepAt u i ≠ none → exec (.stepdel plus i) s = .next (replied plus (ok [.bare (vnum i)])
            (edited (u.setRing { u.ring with steps := tdel u.ring.steps i }))))))
    ∧ (Takes (.ring plus i) s u →
      (ringRuns u = true → exec (.ring plus i) s = .next (replied plus (er .busy) u))
      ∧ (ringRuns u = false → exec (.ring plus i) s = .next (replied plus (ok [.bare (vnum i)])
          (u.setRing { u.ring with len := i, ptr := 0, visit := 1 }))))

/-- RUN is refused out of the ring or while the ring or the engine runs; otherwise it enters step i with the marks, the
halt cause and the ahead-fault holder cleared (R122, R123, R124). With an IDLE engine and no DROP held, an undefined
step or a failed CHECK halts the ring at once; with staging drives in progress the request waits in CHECK, or the ring
halts on an undefined step while staging runs out; with none in progress staging ends and the checks are made at once
(R86). The reply is formed once the entry has begun, before the transition
goes on (the model's choice, log entry 20).
The staging drives that a cut takes off the list count neither as ended nor as left, and the
number listed stays (the model's choice, log entry 29). -/
def Obligations.RunEntersItsStep : Prop :=
  ∀ (plus : Bool) (i : Nat) (s u : State), Takes (.run plus i) s u →
    let v := (u.setEngine { u.engine with holder := none }).setRing { u.ring with
      state := .entering, pass := 0, ptr := i, visit := 1, pendingTrig := false, overrun := false,
      holdPending := false, halt := none, dwellTimer := none, keptDwell := none }
    let ended := v.setEngine { v.engine with mode := .idle, staging := stagingReset }
    let haltsWith (c : HaltCause) (d : Val) : Prop :=
      ∃ w, exec (.run plus i) s = .next (replied plus (ok [.bare (vnum i)]) w)
        ∧ w.ring.state = .halted ∧ w.ring.halt = some (c, d) ∧ w.ring.ptr = i ∧ w.ring.visit = 1
        ∧ w.ring.pass = 0 ∧ w.routes = u.routes ∧ w.net = u.net
        ∧ w.engine = (if u.engine.mode = .staging then ended.engine else v.engine)
    (u.ring.len ≤ i → exec (.run plus i) s = .next (replied plus (er .range) u))
    ∧ (i < u.ring.len → ringRuns u = true → exec (.run plus i) s = .next (replied plus (er .busy) u))
    ∧ (i < u.ring.len → ringRuns u = false → engineEngaged u = true ∨ u.engine.mode = .survey →
      exec (.run plus i) s = .next (replied plus (erWith .busy (.word "ENGINE")) u))
    ∧ (i < u.ring.len → ringRuns u = false → u.engine.mode = .idle → u.engine.dropHeld = false →
      (stepAt u i = none → haltsWith .undef .dash)
      ∧ ∀ st, stepAt u i = some st →
        let q : Request := { origin := .step, target := st.group, plus := false }
        (∀ c d, checkSet v q = some (c, d) → haltsWith (haltOfCode c) d)
        ∧ (checkSet v q = none → exec (.run plus i) s = .next (settle (followUp rounds (proceed
            (answer plus (ok [.bare (vnum i)]) (accept q v)))))))
    ∧ (i < u.ring.len → ringRuns u = false → u.engine.mode = .staging → u.engine.active = [] →
      u.engine.dropHeld = false →
      (stepAt u i = none → haltsWith .undef .dash)
      ∧ ∀ st, stepAt u i = some st →
        let q : Request := { origin := .step, target := st.group, plus := false }
        (∀ c d, checkSet ended q = some (c, d) → haltsWith (haltOfCode c) d)
        ∧ (checkSet ended q = none → exec (.run plus i) s = .next (settle (followUp rounds (proceed
            (answer plus (ok [.bare (vnum i)]) (accept q ended)))))))
    ∧ (∀ st, i < u.ring.len → ringRuns u = false → u.engine.mode = .staging → u.engine.active ≠ [] →
      stepAt u i = some st →
      exec (.run plus i) s = .next (replied plus (ok [.bare (vnum i)]) (v.setEngine { v.engine with
        mode := .check
        waiting := some { origin := .step, target := st.group, plus := false }
        staging := { quitStaging u.engine.staging with discard := true } })))
    ∧ (i < u.ring.len → ringRuns u = false → u.engine.mode = .staging → u.engine.active ≠ [] → stepAt u i = none →
      ∃ w, exec (.run plus i) s = .next (replied plus (ok [.bare (vnum i)]) w)
        ∧ w.ring.state = .halted ∧ w.ring.halt = some (.undef, .dash) ∧ w.ring.ptr = i
        ∧ w.engine = { u.engine with
            holder := none, staging := { quitStaging u.engine.staging with discard := true } })

/-- DWELL_EXPIRY, TRIG_IN and TRIG: which visit ends, what a trigger sets while a step is being entered, when nothing
happens, and TRIG's word (R128, R129, R130). At the last visit the ring leaves the step and enters the next. A
DWELL_EXPIRY with no dwell timer running changes nothing (log entry 7), and TRIG's reply is formed once an entry it
leads to has begun, before the transition goes on (log entry 20). What an entry begins with (R123, R124): a halt on an
undefined step, or a STEP request, before whose checks a failure held by staging becomes a fault of its element
(R111).
The staging drives that a cut takes off the list count neither as ended nor as left, and the
number listed stays (the model's choice, log entry 29). -/
def Obligations.VisitsEndByDwellOrTrigger : Prop :=
  (∀ s : State,
    let ring : Ring := { s.ring with
      state := .entering, visit := 1, pendingTrig := false, overrun := false, holdPending := false,
      dwellTimer := none, keptDwell := none }
    let promoted (u : State) : State := match u.engine.holder with
      | none => u
      | some a => recordFault { plainFault .ahead with
            elem := some a.elem, commanded := some a.commanded, indicated := some a.indicated }
          ((match elemAt u a.elem with
            | some x => setElem a.elem { x with faulted := true } u
            | none => u).setEngine { u.engine with holder := none })
    (stepAt s s.ring.ptr = none → beginEntry s = (haltRing .undef .dash s, false))
    ∧ ∀ st, stepAt s s.ring.ptr = some st →
      let q : Request := { origin := .step, target := st.group, plus := false }
      let u := s.setRing ring
      let ended := opEnded .staging (u.setEngine { u.engine with mode := .idle, staging := stagingReset })
      let asked (w : State) : State × Bool := match checkSet (promoted w) q with
        | some f => (haltRing (haltOfCode f.1) f.2 (promoted w), false)
        | none => (accept q (promoted w), true)
      (s.engine.mode = .idle → beginEntry s = asked u)
      ∧ (s.engine.mode = .staging → s.engine.active = [] → beginEntry s = asked ended)
      ∧ (s.engine.mode = .staging → s.engine.active ≠ [] → beginEntry s = (u.setEngine { u.engine with
          mode := .check, waiting := some q, staging := quitStaging u.engine.staging }, false)))
  ∧ ∀ s : State, (s.engine.dropHeld = true → s.engine.mode ≠ .idle) →
    let again (st : StepRec) (u : State) : State := u.setRing { u.ring with
      visit := u.ring.visit + 1, dwellTimer := if st.dwell = 0 then none else some st.dwell }
    -- the dwell timer
    (s.ring.state ≠ .dwelling ∨ s.ring.dwellTimer = none → exec .dwellExpiry s = .next (settle s))
    ∧ (∀ st d, s.ring.state = .dwelling → s.ring.dwellTimer = some d → stepAt s s.ring.ptr = some st →
        (s.ring.visit < st.rep → exec .dwellExpiry s = .next (settle (again st s)))
        ∧ (st.rep ≤ s.ring.visit → exec .dwellExpiry s
            = .next (settle (followUp rounds (continueEntry (beginEntry (leaveStep s)))))))
    -- the trigger input
    ∧ (∀ st, s.ring.state = .dwelling → stepAt s s.ring.ptr = some st →
        (st.dwell ≠ 0 → exec .trigIn s = .next (settle s))
        ∧ (st.dwell = 0 → s.ring.visit < st.rep → exec .trigIn s = .next (settle (again st s)))
        ∧ (st.dwell = 0 → st.rep ≤ s.ring.visit → exec .trigIn s
            = .next (settle (followUp rounds (continueEntry (beginEntry (leaveStep s)))))))
    ∧ (s.ring.state = .entering →
        (s.ring.pendingTrig = false →
          exec .trigIn s = .next (settle (s.setRing { s.ring with pendingTrig := true })))
        ∧ (s.ring.pendingTrig = true →
          exec .trigIn s = .next (settle (s.setRing { s.ring with overrun := true }))))
    ∧ (s.ring.state = .idle ∨ s.ring.state = .held ∨ s.ring.state = .halted →
        exec .trigIn s = .next (settle s))
    -- the command
    ∧ ∀ plus u, Takes (.trig plus) s u →
        let word (w : String) : Reply := ok [.bare (.word w)]
        (∀ st, s.ring.state = .dwelling → stepAt s s.ring.ptr = some st →
          (st.dwell ≠ 0 → exec (.trig plus) s = .next (replied plus (word "IGNORED") u))
          ∧ (st.dwell = 0 → s.ring.visit < st.rep →
            exec (.trig plus) s = .next (replied plus (word "TAKEN") (again st u)))
          ∧ (st.dwell = 0 → st.rep ≤ s.ring.visit → exec (.trig plus) s = .next (settle
              (let r := beginEntry (leaveStep u)
               followUp rounds (continueEntry (answer plus (word "TAKEN") r.1, r.2))))))
        ∧ (s.ring.state = .entering →
          (s.ring.pendingTrig = false → exec (.trig plus) s = .next (replied plus (word "PENDING")
            (u.setRing { u.ring with pendingTrig := true })))
          ∧ (s.ring.pendingTrig = true → exec (.trig plus) s = .next (replied plus (word "OVERRUN")
            (u.setRing { u.ring with overrun := true }))))
        ∧ (s.ring.state = .idle ∨ s.ring.state = .held ∨ s.ring.state = .halted →
          exec (.trig plus) s = .next (replied plus (word "IGNORED") u))

/-- HOLD, RESUME and STOP by the ring's state, with the reply that names the state after (R131, R132), and
MARK_TIMER_EXPIRY (R126). What is left of a running dwell at HOLD is a free value, at most the timer's length (log
entry 3). What the ring's request for staging begins (R127, R107): in IDLE the elements that the usable routes of the
next step's group all require at one position, each free, usable, released and at rest or UNKNOWN, in ascending number.
What its request to end staging does (R110): no drive more is issued, staging ends at once when none is in progress,
and the holder is emptied when the ring asks it. That with drives in progress a SYNC goes on waiting for staging is the
model's choice (log entry 45).
The staging drives that a cut takes off the list count neither as ended nor as left, and the
number listed stays (the model's choice, log entry 29). -/
def Obligations.HoldResumeAndStopActByState : Prop :=
  (∀ s : State, tableWf s.net.elems = true →
    let next := (s.ring.ptr + 1) % s.ring.len
    (s.engine.mode ≠ .idle ∨ (∀ st, stepAt s next = some st → st.group = []) → stageNext s = s)
    ∧ ∀ st, stepAt s next = some st → s.engine.mode = .idle → ∃ l : List (Nat × Nat),
        stageNext s = (if l = [] then s else s.setEngine { s.engine with
          mode := .staging, staging := { total := l.length, todo := l, cut := 0, discard := false } })
        ∧ l.Pairwise (fun a b => a.1 < b.1)
        ∧ ∀ e k, (e, k) ∈ l ↔
            (∃ x, elemAt s e = some x ∧ cardEnabled s x.card = true ∧ x.faulted = false
              ∧ (x.guarded = true → e ∈ s.net.released) ∧ (x.pos = some (restOf x.kind) ∨ x.pos = none)
              ∧ x.pos ≠ some k)
            ∧ appliedClaims s e = false
            ∧ (let requires (j : Nat) : Prop := ∃ r ∈ st.group, ∃ y, routeAt s r = some y
                  ∧ (y.state = .ready ∨ y.state = .applied) ∧ ∃ h ∈ y.hops, h.elem = e ∧ h.pos = j
               requires k ∧ ∀ j, requires j → j = k))
  ∧ (∀ (empty : Bool) (s : State),
      let holder := if empty then none else s.engine.holder
      let g := quitStaging s.engine.staging
      (s.engine.mode ≠ .staging → endStaging empty s = s.setEngine { s.engine with holder := holder })
      ∧ (s.engine.mode = .staging → s.engine.active ≠ [] → endStaging empty s = s.setEngine { s.engine with
          holder := holder, staging := { g with discard := g.discard || empty } })
      ∧ (s.engine.mode = .staging → s.engine.active = [] → endStaging empty s = (s.setEngine { s.engine with
          mode := .idle, holder := holder, staging := stagingReset }).setLink (opEnded .staging s).link)
      ∧ (g.todo = [] ∧ g.total = s.engine.staging.total ∧ g.cut = s.engine.staging.cut + s.engine.staging.todo.length))
  ∧ ∀ (plus : Bool) (s u : State),
    let saying (w : String) : Reply := ok [.bare (.word w)]
    (Takes (.hold plus) s u →
      (u.ring.state = .dwelling → u.ring.dwellTimer = none → exec (.hold plus) s = .next (replied plus (saying "HELD")
        (endStaging false (u.setRing { u.ring with state := .held, keptDwell := none, dwellTimer := none }))))
      ∧ (∀ d, u.ring.state = .dwelling → u.ring.dwellTimer = some d → ∃ k, k ≤ d ∧
        exec (.hold plus) s = .next (replied plus (saying "HELD") (endStaging false ((u.setFree (u.free + 1)).setRing
          { u.ring with state := .held, keptDwell := some k, dwellTimer := none }))))
      ∧ (u.ring.state = .entering → exec (.hold plus) s = .next (replied plus (saying "ENTERING")
          (u.setRing { u.ring with holdPending := true })))
      ∧ (u.ring.state = .idle ∨ u.ring.state = .held ∨ u.ring.state = .halted →
        exec (.hold plus) s = .next (replied plus (saying (ringName u.ring.state)) u)))
    ∧ (Takes (.resume plus) s u →
      (∀ st, u.ring.state = .held → stepAt u u.ring.ptr = some st →
        let v := u.setRing { u.ring with
          state := .dwelling, pendingTrig := false, keptDwell := none,
          dwellTimer := if st.dwell = 0 then none else some (u.ring.keptDwell.getD st.dwell) }
        exec (.resume plus) s
          = .next (replied plus (saying "DWELLING") (if st.ahead then stageNext v else v)))
      ∧ (u.ring.state = .entering → exec (.resume plus) s = .next (replied plus (saying "ENTERING")
          (u.setRing { u.ring with holdPending := false })))
      ∧ (u.ring.state = .idle ∨ u.ring.state = .dwelling ∨ u.ring.state = .halted →
        exec (.resume plus) s = .next (replied plus (saying (ringName u.ring.state)) u)))
    ∧ (Takes (.stop plus) s u →
      (ringRuns u = true → exec (.stop plus) s = .next (replied plus (saying "IDLE") (endStaging true
        (u.setRing { u.ring with
          state := .idle, dwellTimer := none, keptDwell := none, pendingTrig := false, overrun := false,
          holdPending := false }))))
      ∧ (u.ring.state = .halted → exec (.stop plus) s = .next (replied plus (saying "IDLE")
          (u.setRing { u.ring with state := .idle, halt := none })))
      ∧ (u.ring.state = .idle → exec (.stop plus) s = .next (replied plus (saying "IDLE") u)))
    ∧ exec .markTimerExpiry s = .next (settle (s.setRing { s.ring with markTimer := false }))

/-- A CLEAN entry forms the step report, then halts on overrun, holds, ends the first visit of a trigger step for a
pending trigger, or dwells; MARK and staging follow the step's flags (R125, R136, R127), and its notices stand in the
order `!BAL`, `!STEP`, `!ROLL` or `!HALTED`. The report reads the curves of a WIPE in progress as far as that has come,
a free value (log entry 4). An entry that ends otherwise, is refused by CHECK or is abandoned halts the ring at its
step (R124, R133); a ring that is not ENTERING ignores it. -/
def Obligations.CleanEntriesFormTheReport : Prop :=
  (∀ (c : HaltCause) (d : Val) (s : State),
    haltRing c d s = notify (.halted c s.ring.ptr) (endStaging false (s.setRing (ringHalted c d s.ring)))
    ∧ ringRefused c d s = (if s.ring.state = .entering then haltRing c d s else s)
    ∧ (∀ number out cause, s.ring.state ≠ .entering → ringOutcome number out cause s = (s, .nothing))
    ∧ (∀ number out cause, s.ring.state = .entering → out ≠ .clean → ringOutcome number out (some cause) s
        = (haltRing (match cause with
            | .halt => .halt | .permit => .permit | .hot => .hot | .readback => .readback
            | .muteTimeout => .muteTimeout | .card => .card | .fixture => .fixture) (vnum number) s, .nothing))
    ∧ (∀ number cause, s.ring.state = .entering → stepAt s s.ring.ptr = none →
        ringOutcome number .clean cause s = (haltRing .undef .dash s, .nothing))
    ∧ ∀ number cause st, s.ring.state = .entering → stepAt s s.ring.ptr = some st →
        ringOutcome number .clean cause s = entryClean st number s)
  ∧ ∀ (st : StepRec) (number : Nat) (s : State),
    let w := wipeAdvance s
    let r := entryClean st number s
    let v := r.1
    let report := formReport w st s.ring.ptr s.ring.pass number
    let b := if report.balance then notify (.bal s.ring.ptr report.spread) w else w
    let n := if st.notice then stepEntry s.ring.ptr s.ring.pass b else b
    v.ring.report = some report
    ∧ (s.ring.overrun = true →
        v.ring.state = .halted ∧ v.ring.halt = some (.overrun, .dash) ∧ v.ring.ptr = s.ring.ptr
        ∧ v.ring.markTimer = s.ring.markTimer ∧ r.2 = .nothing
        ∧ v.link = (notify (.halted .overrun s.ring.ptr) (endStaging false b)).link)
    ∧ (s.ring.overrun = false → v.ring.markTimer = (s.ring.markTimer || st.mark)
        ∧ (s.ring.holdPending = true →
            v.link = n.link ∧ v.ring.state = .held ∧ v.ring.visit = 1 ∧ v.ring.holdPending = false ∧ v.ring.pendingTrig = false
            ∧ v.ring.keptDwell = (if st.dwell = 0 then none else some st.dwell) ∧ r.2 = .nothing)
        ∧ (s.ring.holdPending = false → s.ring.pendingTrig = true → st.dwell = 0 → st.rep ≤ 1 →
            r.2 = .enter ∧ v.ring.visit = 1 ∧ v.ring.state = s.ring.state
            ∧ (s.ring.ptr + 1 < s.ring.len →
                v.ring.ptr = s.ring.ptr + 1 ∧ v.ring.pass = s.ring.pass ∧ v.link = n.link)
            ∧ (s.ring.len ≤ s.ring.ptr + 1 → v.ring.ptr = 0 ∧ v.ring.pass = (s.ring.pass + 1) % 65536
                ∧ v.link = (notify (.roll ((s.ring.pass + 1) % 65536)) n).link))
        ∧ (s.ring.holdPending = false → ¬(s.ring.pendingTrig = true ∧ st.dwell = 0 ∧ st.rep ≤ 1) →
            v.link = n.link ∧ v.ring.state = .dwelling ∧ v.ring.pendingTrig = false ∧ v.ring.ptr = s.ring.ptr
            ∧ v.ring.dwellTimer = (if st.dwell = 0 then none else some st.dwell)
            ∧ v.ring.visit = (if s.ring.pendingTrig = true ∧ st.dwell = 0 then 2 else s.ring.visit)
            ∧ r.2 = (if st.ahead then .stage else .nothing)))
    ∧ (v.engine.applied = s.engine.applied ∧ v.routes = s.routes ∧ v.net = s.net)

/-! ### Cards and the card bus (R140 to R155) -/

/-- POLL_GAP_EXPIRY begins a round at the first card that is not RESTARTING, and POLL_ANSWER is judged by its card's
state, in a round and in discovery (R146, R149, R150, R151; log entry 8). POLL_GAP_EXPIRY with no poll timer running and
POLL_ANSWER with no POLL on the bus change nothing (log entry 7). Every class of a round's POLL, SILENT too, writes the last
poll field and acts by the card's state: an answer inserts an ABSENT card, silence removes a DISABLED one, and an ENABLED
one is disabled on its supply or lost, recorded CARD_OC or CARD_LOST (R150, R151, R185). A card's change of state sets its
presence-change flag when it leaves or enters ABSENT, its state-change flag otherwise, with `!CARD` (R152); during discovery
it sets no flag and sends no notice (R146). The card a round is at is tested for RESTARTING when
the round comes to it and once more at the grant of the bus (log entry 42), and a round with no card left to poll ends as it
passes over the last (the model's choices, log entry 46). -/
def Obligations.PollsAreJudged : Prop :=
  ∀ s : State,
    (s.bus.pollTimer = none → exec .pollGapExpiry s = .next (settle s))
    ∧ (s.bus.pollTimer ≠ none →
        exec .pollGapExpiry s = .next (settle (roundAt 0 (s.setBus { s.bus with pollTimer := none }))))
    ∧ (∀ k, (∀ j, k ≤ j → j < 12 → (cardAt s j).state = .restarting) → roundAt k s = s.setBus { s.bus with
        round := none, pollTimer := some s.site.pollGap })
    ∧ (∀ k j, k ≤ j → j < 12 → (cardAt s j).state ≠ .restarting →
        (∀ m, k ≤ m → m < j → (cardAt s m).state = .restarting) →
        roundAt k s = s.setBus { s.bus with round := some j })
    ∧ ∀ good oc : Bool,
        let p : PollResult := if oc then .oc else if good then .good else .bad
        ((∀ n, s.bus.tx ≠ some (.pollRound n) ∧ s.bus.tx ≠ some (.pollDiscovery n)) →
          exec (.pollAnswer good oc) s = .next (settle s))
        ∧ (∀ n, s.bus.tx = some (.pollRound n) →
          let v := roundPolled n p (setTx none s)
          exec (.pollAnswer good oc) s = .next (settle (roundAt (n + 1) v))
          ∧ (tableWf s.cards = true → (cardAt v n).last = some p
            ∧ ((cardAt s n).state = .absent → (cardAt v n).state = .disabled)
            ∧ ((cardAt s n).state = .disabled → (cardAt v n).state = .disabled)
            ∧ ((cardAt s n).state = .restarting → (cardAt v n).state = .restarting)
            ∧ ((cardAt s n).state = .enabled → p = .good → (cardAt v n).state = .enabled)
            ∧ ((cardAt s n).state = .enabled → p ≠ .good → s.phase = .running →
                (cardAt v n).state = .disabled ∧ (cardAt v n).coilFault = true ∧ (cardAt v n).stateChg = true
                ∧ (cardAt v n).pulses = 0
                ∧ (s.records.fault = none → ∃ f, v.records.fault = some f ∧ f.cause = .cardOc ∧ f.elem = none))))
        ∧ (∀ n, s.bus.tx = some (.pollDiscovery n) → exec (.pollAnswer good oc) s = .next (settle
            (discoveryAfter n (beginRestart n (setLast n p (setTx none s))))))
    ∧ (∀ n new,
        let c := cardAt s n
        (c.state = new → changeCard n new s = s)
        ∧ (c.state ≠ new → s.phase = .discovery → changeCard n new s = setCard n { c with state := new } s)
        ∧ (c.state ≠ new → s.phase ≠ .discovery →
          (c.state = .absent ∨ new = .absent → changeCard n new s
            = notify (.card n new) (setCard n { c with state := new, presenceChg := true } s))
          ∧ (c.state ≠ .absent → new ≠ .absent → changeCard n new s
            = notify (.card n new) (setCard n { c with state := new, stateChg := true } s))))
    ∧ ∀ (n : Nat) (p : PollResult),
        let polled := setCard n { cardAt s n with last := some p } s
        let left (cause : FaultCause) (v : State) : State := leaveEnabled n (recordFault { plainFault cause with
          number := if inFlight s then some s.engine.number else none,
          torn := s.engine.applied.filter fun r =>
            (routeAt s r).any fun x => x.hops.any fun h => (elemsOnCard s n).contains h.elem } v)
        tableWf s.cards = true →
        setLast n p s = polled
        ∧ ((cardAt s n).state = .absent → (p = .silent → roundPolled n p s = polled)
            ∧ (p ≠ .silent → roundPolled n p s = changeCard n .disabled polled))
        ∧ ((cardAt s n).state = .disabled → (p = .silent → roundPolled n p s = changeCard n .absent polled)
            ∧ (p ≠ .silent → roundPolled n p s = polled))
        ∧ ((cardAt s n).state = .restarting → roundPolled n p s = polled)
        ∧ ((cardAt s n).state = .enabled → (p = .good → roundPolled n p s = polled)
            ∧ (p = .silent → roundPolled n p s = left .cardLost (changeCard n .absent polled))
            ∧ (p = .bad ∨ p = .oc → roundPolled n p s = left .cardOc (changeCard n .disabled
                (setCard n { cardAt polled n with coilFault := true } polled))))

/-- The restart sequence: CARD RESTART with its refusals, RESTART_ACK, RESTART_WAIT_EXPIRY and RESTART_POLL_ANSWER,
after which the card is ENABLED or DISABLED (R147, R148). A restart's changes of state set the state-change flag, with
`!CARD`, but during discovery (R152, R146). The restart of an ENABLED card is a leaving of ENABLED: its elements are parked
at once (R153, R104). The three events change nothing when no such restart is at
their stage (log entry 7). -/
def Obligations.RestartsRunTheirSequence : Prop :=
  ∀ (plus : Bool) (n : Nat) (s u : State),
    (Takes (.cardRestart plus n) s u →
      let c := Instr.cardRestart plus n
      ((cardAt u n).state = .absent → exec c s = .next (replied plus (er .absent) u))
      ∧ ((cardAt u n).state = .restarting → exec c s = .next (replied plus (er .busy) u))
      ∧ ((cardAt u n).state = .disabled ∨ (cardAt u n).state = .enabled →
        (u.engine.mode ≠ .idle → exec c s = .next (replied plus (erWith .busy (.word "ENGINE")) u))
        ∧ (u.engine.mode = .idle →
          (∀ r, appliedWhere u (fun x => claimsAny x (elemsOnCard u n)) = some r →
            exec c s = .next (replied plus (erWith .inuse (vnum r)) u))
          ∧ (appliedWhere u (fun x => claimsAny x (elemsOnCard u n)) = none → ∃ v,
            exec c s = .next (replied plus (ok [.bare (vnum n), .bare (.word "RESTARTING")]) v)
            ∧ (tableWf u.cards = true → (cardAt v n).state = .restarting
              ∧ (cardAt v n).restart = some .wantRestart ∧ (cardAt v n).stateChg = true)
            ∧ (let begun := (setCard n { cardAt u n with
                 state := .restarting, stateChg := true, restart := some .wantRestart } u).setLink
                   (notify (.card n .restarting) u).link
               tableWf u.cards = true →
               ((cardAt u n).state = .disabled → v = begun)
               ∧ ((cardAt u n).state = .enabled → v = leaveEnabled n begun
                 ∧ ∀ e x, elemAt u e = some x → elemAt v e = some (if x.card = n then { x with pos := match x.kind with
                     | .failsafe => some 1 | .solid => some 0
                     | .latch => if u.engine.active.any (fun d => d.elem == e) then none else x.pos } else x)))))))
    ∧ (s.bus.tx = some (.restart n) →
        exec .restartAck s = .next (settle (setRestart n .waiting (setTx none s))))
    ∧ ((∀ m, s.bus.tx ≠ some (.restart m)) → exec .restartAck s = .next (settle s))
    ∧ (n ≤ 11 → (cardAt s n).restart = some .waiting →
        exec (.restartWaitExpiry n) s = .next (settle (setRestart n .wantPoll s)))
    ∧ (n ≤ 11 → (cardAt s n).restart ≠ some .waiting → exec (.restartWaitExpiry n) s = .next (settle s))
    ∧ ∀ good oc : Bool,
        ((∀ m, s.bus.tx ≠ some (.pollRestart m)) → exec (.restartPollAnswer good oc) s = .next (settle s))
        ∧ (s.bus.tx = some (.pollRestart n) → ∃ v, exec (.restartPollAnswer good oc) s = .next (settle v)
          ∧ v.bus = { s.bus with tx := none } ∧ v.net = s.net ∧ v.engine = s.engine ∧ v.routes = s.routes
          ∧ (tableWf s.cards = true →
            (cardAt v n).restart = none
            ∧ (cardAt v n).last = some (if oc then .oc else if good then .good else .bad)
            ∧ (good = true → oc = false → (cardAt v n).state = .enabled ∧ (cardAt v n).coilFault = false)
            ∧ (good = false ∨ oc = true → (cardAt v n).state = .disabled ∧ (cardAt v n).coilFault = true)
            ∧ ((cardAt s n).state = .restarting → (cardAt v n).presenceChg = (cardAt s n).presenceChg
              ∧ (s.phase = .discovery → (cardAt v n).stateChg = (cardAt s n).stateChg
                ∧ v.link = (opEnded (.restart n) s).link)
              ∧ (s.phase ≠ .discovery → (cardAt v n).stateChg = true
                ∧ v.link = (opEnded (.restart n) (notify (.card n (cardAt v n).state) s)).link))))

/-! ### Fixtures (R156 to R172) -/

/-- FPRES_CHANGE starts or stops the presence filter, and FIXTURE_PRESENT and FIXTURE_ABSENT move the record when the
filter's time has run, with the flags and the notice (R159 to R161, R169, R170). They change nothing unless the filter
counts towards that state (log entries 7 and 28). A fixture that leaves ADMITTED: it is in use when an applied route, or a
route of the transition in flight (log entry 18), ends on it, and is then recorded FIXTURE_PULLED (R158, R185). The engine
is told (`fixtureLeft`): with no transition in flight the applied routes that end on it are torn at once (R106), and in
flight it is noted, with FIXTURE as first fault when the transition is concerned (R99, R105). A fixture found absent in
PRESENT, ADMITTING or FAULTED becomes EMPTY with `!FIXT` and nothing else, but that a SYNC that waits for the admission it
abandons waits for it no more (R161, R169). -/
def Obligations.PresenceMovesTheFixture : Prop :=
  (∀ (s : State) (n : Nat),
    let ends (r : Nat) : Prop := ∃ x, routeAt s r = some x ∧ (portFixture s x.src = some n ∨ portFixture s x.dst = some n)
    (fixtureInUse s n = true ↔ (∃ r ∈ s.engine.applied, ends r)
      ∨ (inFlight s = true ∧ ∃ t, s.engine.trans = some t ∧ n ∈ t.fixtures))
    ∧ (inFlight s = false → fixtureLeft n s = tearAll .fixture
        (s.engine.applied.filter fun r => (routeAt s r).any fun x => endsOnFixture s x n) s)
    ∧ ∀ t, inFlight s = true → s.engine.trans = some t →
      let noted (f : Option FirstFault) : State := s.setEngine { s.engine with
        trans := some { t with notedFixtures := t.notedFixtures ++ [n], firstFault := f } }
      (t.firstFault = none → n ∈ t.fixtures → fixtureLeft n s = noted (some .fixture))
      ∧ (t.firstFault ≠ none ∨ n ∉ t.fixtures → fixtureLeft n s = noted t.firstFault))
  ∧ ∀ (s : State) (n : Nat), n ≤ 7 →
    let f := fixtureAt s n
    (∀ b, exec (.fpresChange n b) s = .next (settle (setFixture n { f with
        fpres := b, counting := s.phase != .inReset && b != f.present } s)))
    ∧ (¬(f.counting = true ∧ f.fpres = true ∧ f.present = false) →
        exec (.fixturePresent n) s = .next (settle s))
    ∧ (f.counting = true → f.fpres = true → f.present = false → f.state = .empty → ∃ v,
        exec (.fixturePresent n) s = .next (settle v)
        ∧ v = (setFixture n { f with present := true, counting := false, state := .present, presenceChg := true }
            s).setLink (notify (.fixt n .present f.owner) s).link)
    ∧ (¬(f.counting = true ∧ f.fpres = false ∧ f.present = true) →
        exec (.fixtureAbsent n) s = .next (settle s))
    ∧ (f.counting = true → f.fpres = false → f.present = true → tableWf s.fixtures = true → f.state ≠ .empty →
        ∃ v, exec (.fixtureAbsent n) s = .next (settle v)
          ∧ (fixtureAt v n).state = .empty ∧ (fixtureAt v n).present = false ∧ (fixtureAt v n).stage = none
          ∧ (fixtureAt v n).presenceChg = true ∧ (fixtureAt v n).owner = f.owner
          ∧ (fixtureAt v n).last = f.last ∧ fixturePower v n = false
          ∧ (f.state = .admitted →
              let gone := (setFixture n { f with
                present := false, counting := false, state := .empty, stage := none, identity := none,
                presenceChg := true } s).setLink (notify (.fixt n .empty f.owner) s).link
              (fixtureInUse s n = false → v = fixtureLeft n gone)
              ∧ (fixtureInUse s n = true → v = fixtureLeft n (recordFault { plainFault .fixturePulled with
                  number := if inFlight s then some s.engine.number else none,
                  torn := s.engine.applied.filter fun r => (routeAt s r).any fun x => endsOnFixture s x n } gone)))
          ∧ (f.state = .admitted → (fixtureAt v n).identity = none
            ∧ (fixtureInUse s n = true → s.records.fault = none →
                ∃ x, v.records.fault = some x ∧ x.cause = .fixturePulled ∧ x.elem = none)
            ∧ (fixtureInUse s n = false → v.records = s.records))
          ∧ (f.state ≠ .admitted → v.records = s.records ∧ v.engine = s.engine ∧ v.routes = s.routes)
          ∧ (let gone := (setFixture n { f with
               present := false, counting := false, state := .empty, stage := none, presenceChg := true } s).setLink
                 (notify (.fixt n .empty f.owner) s).link
             (f.state = .present ∨ f.state = .faulted → v = gone)
             ∧ (f.state = .admitting → v = opEnded (.admission n) gone)))

/-- The admission sequence: ADMIT with its refusals, ADMIT_WAIT_EXPIRY, IDENTITY_RECORD and IDENTITY_READ_TIMEOUT, and
what each leaves in the record (R162, R163, R165); an admission of an ADMITTED fixture is a leaving of ADMITTED, of which
the engine is told (R158); an event outside its stage changes nothing (log entry 7). Every end of an admission sends `!FIXT`,
releases a SYNC from waiting for it and records no fault (R163, R169). A record accepted while FFLT is asserted is a
supply fault at once (R166). The judgement of the four bytes of an identity record, in order: check byte, kind, coupler
loss; with the manual's three examples and a line held low (R164). -/
def Obligations.AdmissionsRunTheirSequence : Prop :=
  (∀ (plus : Bool) (n : Nat) (s u : State), tableWf s.fixtures = true →
     let f := fixtureAt s n
     let c := Instr.admitFixture plus n
     let ended (st : FixState) (r : AdmitResult) (id : Option (Nat × Nat)) : State :=
       opEnded (.admission n) ((setFixture n { f with
         state := st, stage := none, identity := id, last := some r, stateChg := true } s).setLink
           (notify (.fixt n st f.owner) s).link)
     (Takes c s u →
       (f.state = .empty → exec c s = .next (replied plus (er .absent) u))
       ∧ (f.state ≠ .empty → f.owner = .bench → exec c s = .next (replied plus (er .unavail) u))
       ∧ (f.state = .admitting → f.owner = .localOwner → exec c s = .next (replied plus (er .busy) u))
       ∧ (f.state = .present ∨ f.state = .faulted ∨ f.state = .admitted → f.owner = .localOwner →
         (∀ r, appliedWhere u (fun x => endsOnFixture u x n) = some r →
           exec c s = .next (replied plus (erWith .inuse (vnum r)) u))
         ∧ (appliedWhere u (fun x => endsOnFixture u x n) = none → ∃ v,
           exec c s = .next (replied plus (ok [.bare (vnum n), .bare (.word "ADMITTING")]) v)
           ∧ fixtureAt v n = { f with
               state := .admitting, stage := some (.wait u.site.admitWait), identity := none, stateChg := true }
           ∧ (let begun := (setFixture n { f with
                state := .admitting, stage := some (.wait u.site.admitWait), identity := none, stateChg := true }
                u).setLink (notify (.fixt n .admitting f.owner) u).link
              (f.state ≠ .admitted → v = begun) ∧ (f.state = .admitted → v = fixtureLeft n begun)))))
     ∧ (n ≤ 7 →
       ((∀ ms, f.stage ≠ some (.wait ms)) → exec (.admitWaitExpiry n) s = .next (settle s))
       ∧ (∀ ms, f.stage = some (.wait ms) → f.fflt = false →
         exec (.admitWaitExpiry n) s = .next (settle (setFixture n { f with stage := some .reading } s)))
       ∧ (∀ ms, f.stage = some (.wait ms) → f.fflt = true → f.state = .admitting → ∃ v,
         exec (.admitWaitExpiry n) s = .next (settle v) ∧ v = ended .faulted .supply none ∧ v.records = s.records
         ∧ fixtureAt v n = { f with
             state := .faulted, stage := none, identity := none, last := some .supply, stateChg := true })
       ∧ (f.stage ≠ some .reading → exec (.identityReadTimeout n) s = .next (settle s)
           ∧ ∀ b0 b1 b2 b3, exec (.identityRecord n b0 b1 b2 b3) s = .next (settle s))
       ∧ (f.stage = some .reading → f.state = .admitting →
         (∃ v, exec (.identityReadTimeout n) s = .next (settle v) ∧ v = ended .faulted .noid none ∧ v.records = s.records
           ∧ fixtureAt v n = { f with
               state := .faulted, stage := none, identity := none, last := some .noid, stateChg := true })
         ∧ ∀ b0 b1 b2 b3,
           (judgeIdentity b0 b1 b2 b3 ≠ .ok → ∃ v,
             exec (.identityRecord n b0 b1 b2 b3) s = .next (settle v)
             ∧ v = ended .faulted (judgeIdentity b0 b1 b2 b3) none ∧ v.records = s.records
             ∧ fixtureAt v n = { f with
                 state := .faulted, stage := none, identity := none,
                 last := some (judgeIdentity b0 b1 b2 b3), stateChg := true })
           ∧ (judgeIdentity b0 b1 b2 b3 = .ok → f.fflt = true → ∃ v,
             exec (.identityRecord n b0 b1 b2 b3) s = .next (settle v)
             ∧ v = supplyFault n (ended .admitted .ok (some (b0.toNat, b1.toNat * 256 + b2.toNat)))
             ∧ fixtureAt v n = { f with
                 state := .faulted, stage := none, identity := none, last := some .supply, stateChg := true })
           ∧ (judgeIdentity b0 b1 b2 b3 = .ok → f.fflt = false → ∃ v,
             exec (.identityRecord n b0 b1 b2 b3) s = .next (settle v)
             ∧ v = ended .admitted .ok (some (b0.toNat, b1.toNat * 256 + b2.toNat)) ∧ v.records = s.records
             ∧ fixtureAt v n = { f with
                 state := .admitted, stage := none, last := some .ok, stateChg := true,
                 identity := some (b0.toNat, b1.toNat * 256 + b2.toNat) }))))
  ∧ ((∀ b0 b1 b2 b3 : Byte,
       let good := b3.toNat = (256 - (b0.toNat + b1.toNat + b2.toNat) % 256) % 256
       let coupler := b1.toNat * 256 + b2.toNat
       (judgeIdentity b0 b1 b2 b3 = .check ↔ ¬good)
       ∧ (judgeIdentity b0 b1 b2 b3 = .kind ↔ good ∧ b0.toNat = 0)
       ∧ (judgeIdentity b0 b1 b2 b3 = .range ↔ good ∧ b0.toNat ≠ 0 ∧ 6000 < coupler)
       ∧ (judgeIdentity b0 b1 b2 b3 = .ok ↔ good ∧ b0.toNat ≠ 0 ∧ coupler ≤ 6000)
       ∧ (good ↔ (b0.toNat + b1.toNat + b2.toNat + b3.toNat) % 256 = 0))
     ∧ (judgeIdentity 3 7 58 188 = .ok ∧ judgeIdentity 1 23 112 120 = .ok ∧ judgeIdentity 2 24 56 174 = .range
       ∧ judgeIdentity 0 0 0 0 = .kind))

/-- FFLT_ASSERTED and FFLT_DEASSERTED, and OWNER n BENCH and OWNER n LOCAL: the level, the supply fault of an ADMITTED
fixture, and the handoffs (R166 to R168, R170). A supply fault and the handoff of an ADMITTED fixture are leavings of
ADMITTED: the first records FIXTURE_PULLED when the fixture is in use, and the engine is told of both (R158; log entry
18). The handoff of any other fixture changes its record, with one `!FIXT`, and nothing else, but that a SYNC that waits for
the admission it abandons waits for it no more (R167, R169). OWNER LOCAL of a LOCAL fixture changes nothing. -/
def Obligations.SupplyAndOwnerChangeTheFixture : Prop :=
  ∀ (plus : Bool) (n : Nat) (s u : State), tableWf s.fixtures = true →
    let f := fixtureAt s n
    (f.state = .admitted →
      let faulted := (setFixture n { f with
        state := .faulted, identity := none, last := some .supply, stateChg := true } s).setLink
          (notify (.fixt n .faulted f.owner) s).link
      (fixtureInUse s n = false → supplyFault n s = fixtureLeft n faulted)
      ∧ (fixtureInUse s n = true → supplyFault n s = fixtureLeft n (recordFault { plainFault .fixturePulled with
          number := if inFlight s then some s.engine.number else none,
          torn := s.engine.applied.filter fun r => (routeAt s r).any fun x => endsOnFixture s x n } faulted)))
    ∧ (n ≤ 7 → exec (.ffltDeasserted n) s = .next (settle (setFixture n { f with fflt := false } s))
      ∧ (f.state ≠ .admitted →
        exec (.ffltAsserted n) s = .next (settle (setFixture n { f with fflt := true } s)))
      ∧ (f.state = .admitted → ∃ v, exec (.ffltAsserted n) s = .next (settle v)
        ∧ v = supplyFault n (setFixture n { f with fflt := true } s)
        ∧ fixtureAt v n = { f with
            state := .faulted, identity := none, last := some .supply, fflt := true, stateChg := true }
        ∧ (fixtureInUse s n = true → s.records.fault = none →
            ∃ x, v.records.fault = some x ∧ x.cause = .fixturePulled)
        ∧ (fixtureInUse s n = false → v.records = s.records)))
    ∧ (Takes (.ownerBench plus n) s u →
      let c := Instr.ownerBench plus n
      let okBench := ok [.bare (vnum n), .bare (.word "BENCH")]
      (∀ r, appliedWhere u (fun x => endsOnFixture u x n) = some r →
        exec c s = .next (replied plus (erWith .inuse (vnum r)) u))
      ∧ (appliedWhere u (fun x => endsOnFixture u x n) = none →
        (f.owner = .bench → exec c s = .next (replied plus okBench u))
        ∧ (f.owner = .localOwner → ∃ v, exec c s = .next (replied plus okBench v)
          ∧ (fixtureAt v n).owner = .bench ∧ (fixtureAt v n).stateChg = true
          ∧ (f.state = .empty → (fixtureAt v n).state = .empty)
          ∧ (f.state ≠ .empty → (fixtureAt v n).state = .present ∧ (fixtureAt v n).stage = none)
          ∧ (f.state = .admitted → (fixtureAt v n).identity = none)
          ∧ (fixtureAt v n).last = f.last ∧ fixturePower v n = false ∧ v.records = u.records
          ∧ (let handed := (setFixture n { f with
               owner := .bench, state := .present, stage := none, identity := none, stateChg := true } u).setLink
                 (notify (.fixt n .present .bench) u).link
             (f.state = .admitted → v = fixtureLeft n handed)
             ∧ (let kept := (setFixture n { f with
                  owner := .bench, state := .present, stage := none, stateChg := true } u).setLink
                    (notify (.fixt n .present .bench) u).link
                (f.state = .present ∨ f.state = .faulted → v = kept)
                ∧ (f.state = .admitting → v = opEnded (.admission n) kept))
             ∧ (f.state = .empty → v = (setFixture n { f with owner := .bench, stateChg := true } u).setLink
                 (notify (.fixt n .empty .bench) u).link)
             ∧ (f.state ≠ .admitted → v.engine = u.engine ∧ v.routes = u.routes ∧ v.ring = u.ring)))))
    ∧ (Takes (.ownerLocal plus n) s u →
      let okLocal := ok [.bare (vnum n), .bare (.word "LOCAL")]
      (f.owner = .localOwner → exec (.ownerLocal plus n) s = .next (replied plus okLocal u))
      ∧ (f.owner = .bench → exec (.ownerLocal plus n) s = .next (replied plus okLocal
          ((setFixture n { f with owner := .localOwner, stateChg := true } u).setLink
            (notify (.fixt n f.state .localOwner) u).link))))

/-! ### Interlocks and RF mute (R173 to R183) -/

/-- LOOP_INPUT_CHANGE, LOOP_OPENED, LOOP_CLOSED and CONFIRM: an opening withdraws every confirmation and the permit, a
closing adds nothing, and CONFIRM sets one flag or, at an open loop, withdraws them all (R173 to R176). The permit,
the exposure contribution and MUTE_REQ: whenever a radiating route is applied and the permit is absent, MUTE_REQ is
asserted (R176, R179, R180, R182). LOOP_OPENED and LOOP_CLOSED change nothing unless the filter counts towards that
state (log entries 7 and 28). What the engine does when it is told that the permit is lost, by its state (R102, R177):
it stops a transition of a radiating route, abandons a waiting request, ends a survey, and calls for a DROP while a
radiating route is applied (R103), at once in IDLE and STAGING, held as a flag otherwise, in SURVEY too (the model's
choice, log entry 39). Whether a transition holds a radiating route is what CHECK found (log entry 18). A transition stopped
with no drive in progress, and a survey with no sense in progress, end at the loss, the DROP then taken. A GO that waits
in CHECK is answered ER PERMIT at the loss, and the decoder goes on (the model's choice, log entry 40); the ring DWELLING
or HELD is halted PERMIT by a DROP that takes a route of its group (R135).
The staging drives that a cut takes off the list count neither as ended nor as left, and the
number listed stays (the model's choice, log entry 29). -/
def Obligations.LoopsPermitAndMuteRequest : Prop :=
  (∀ (plus : Bool) (n : Nat) (s u : State), tableWf s.loops = true →
     let l := loopAt s n
     (1 ≤ n → n ≤ 4 →
       (∀ b, exec (.loopInputChange n b) s = .next (settle (setLoop n { l with
           input := b, counting := s.phase != .inReset && b != l.closed } s)))
       ∧ (¬(l.counting = true ∧ l.input = false ∧ l.closed = true) →
         exec (.loopOpened n) s = .next (settle s))
       ∧ (l.counting = true → l.input = false → l.closed = true → ∃ v,
         exec (.loopOpened n) s = .next (settle v)
         ∧ (loopAt v n).closed = false ∧ (∀ m, (loopAt v m).confirmed = false) ∧ permit v = false
         ∧ (∀ m, m ≠ n → (loopAt v m).closed = (loopAt s m).closed)
         ∧ (let w := clearConfirmed (setLoop n { l with closed := false, counting := false } s)
            v = if permit s then permitLost (notify (permNotice w) w) else notify (permNotice w) w)
         ∧ (permit s = false → v.engine = s.engine ∧ v.routes = s.routes ∧ v.ring = s.ring))
       ∧ (¬(l.counting = true ∧ l.input = true ∧ l.closed = false) →
         exec (.loopClosed n) s = .next (settle s))
       ∧ (l.counting = true → l.input = true → l.closed = false →
         let v := setLoop n { l with closed := true, confirmed := false, counting := false } s
         exec (.loopClosed n) s = .next (settle (notify (permNotice v) v))))
     ∧ (Takes (.confirm plus n) s u →
       let marked := setLoop n { l with confirmed := true } u
       let reply := ok [.bare (vnum n), .keyed "P" (bit (permit marked))]
       (l.closed = true → l.confirmed = false →
         exec (.confirm plus n) s = .next (settle (notify (permNotice marked) (answer plus reply marked))))
       ∧ (l.closed = true → l.confirmed = true → exec (.confirm plus n) s = .next (replied plus reply marked)
           ∧ ∀ m, loopAt marked m = loopAt u m)
       ∧ (l.closed = false → ∃ v, exec (.confirm plus n) s = .next (settle v)
         ∧ (∀ m, (loopAt v m).confirmed = false ∧ (loopAt v m).closed = (loopAt u m).closed)
         ∧ v.link = (if anyConfirmed u then notify (permNotice (clearConfirmed u))
             (answer plus (erWith .openLoop (.loop n)) (clearConfirmed u))
           else answer plus (erWith .openLoop (.loop n)) (clearConfirmed u)).link)))
  ∧ (∀ s : State,
       let exposed := permit s = false ∧ ∃ r ∈ s.engine.applied, ∃ x, routeAt s r = some x ∧ x.radiates = true
       (permit s = true ↔ ∀ n, 1 ≤ n → n ≤ 4 → (loopAt s n).closed = true ∧ (loopAt s n).confirmed = true)
       ∧ (exposure s = true ↔ exposed)
       ∧ (muteReq s = true ↔ s.engine.mute = true ∨ exposed ∨ s.latch = true ∨ s.phase ≠ .running))
  ∧ (∀ s : State,
       let radiates (r : Nat) : Prop := ∃ x, routeAt s r = some x ∧ x.radiates = true
       let exposed := ∃ r ∈ s.engine.applied, radiates r
       let flag (b : Bool) (u : State) : State := u.setEngine { u.engine with dropHeld := b }
       -- IDLE and STAGING
       (s.engine.mode = .idle ∨ s.engine.mode = .staging →
         (¬exposed → permitLost s = s) ∧ (exposed → permitLost s = makeDrop s))
       -- a request waiting in CHECK
       ∧ (s.engine.mode = .check → s.engine.active ≠ [] →
         (¬exposed → (∀ q, s.engine.waiting = some q → ∀ r ∈ q.target, ¬radiates r) → permitLost s = s)
         ∧ (exposed → s.engine.waiting = none → permitLost s = flag true s)
         ∧ ∀ q, s.engine.waiting = some q → (exposed ∨ ∃ r ∈ q.target, radiates r) →
           let u := if anyRadiates s s.engine.applied then flag true s else s
           let v := opEnded .transition (notify (.done none q.origin .halted (some .permit))
             (u.setEngine { u.engine with waiting := none }))
           (q.origin = .drop → permitLost s = v)
           ∧ (q.origin = .step → permitLost s = ringRefused .permit .dash v)
           ∧ (q.origin = .command → ∀ plus, s.link.hold = some (.goWait plus) →
             permitLost s = answer plus (er .permit) (v.setLink { v.link with hold := none })))
       -- a transition in flight
       ∧ (∀ t, s.engine.mode = .muting ∨ s.engine.mode = .breaking ∨ s.engine.mode = .making →
         s.engine.trans = some t →
         let u := if anyRadiates s s.engine.applied then flag true s else s
         (t.radiating = false → permitLost s = u)
         ∧ (t.radiating = true →
           (s.engine.mode = .muting → permitLost s = followUp rounds (endTransition false
             (u.setEngine { u.engine with trans := some { t with stop := some (t.stop.getD .permit) } })))
           ∧ (s.engine.mode ≠ .muting → s.engine.active ≠ [] →
             (t.stop ≠ none → permitLost s = u)
             ∧ (t.stop = none → permitLost s = (u.setEngine { u.engine with
                 trans := some { t with stop := some .permit, brkTodo := [], makTodo := [] } }).setLatch
                   (u.latch || t.muteNeeded)))
           ∧ (s.engine.mode ≠ .muting → s.engine.active = [] → t.stop = none →
             permitLost s = followUp rounds (endTransition (s.engine.mode == .making) ((u.setEngine { u.engine with
               trans := some { t with stop := some .permit, brkTodo := [], makTodo := [] } }).setLatch
                 (u.latch || t.muteNeeded))))))
       -- a survey
       ∧ (s.engine.mode = .survey →
         (¬exposed → permitLost s = s)
         ∧ (∀ e, exposed → s.engine.survey.current = some e → permitLost s = flag true (s.setEngine { s.engine with
             survey := { s.engine.survey with todo := [] } }))
         ∧ (exposed → s.engine.survey.current = none → permitLost s = takeHeldDrop (opEnded .survey
             (s.setEngine { s.engine with mode := .idle, survey := surveyReset, dropHeld := true }))))
       -- a DROP held and taken, and made
       ∧ (s.engine.dropHeld = true → s.engine.mode = .idle → takeHeldDrop s
           = if permit s then flag false s else makeDrop (flag false s))
       ∧ (let gone := s.engine.applied.filter fun r => (routeAt s r).any fun x => x.radiates
          let q : Request :=
            { origin := .drop, target := s.engine.applied.filter fun r => !gone.contains r, plus := false }
          let d := ringDropped gone s
          (gone = [] → makeDrop s = s)
          ∧ (gone ≠ [] → d.engine.mode = .idle →
            (checkSet d q ≠ none → makeDrop s = d) ∧ (checkSet d q = none → makeDrop s = (proceed (accept q d)).1))
          ∧ (gone ≠ [] → d.engine.mode = .staging → d.engine.active ≠ [] → makeDrop s = d.setEngine { d.engine with
              mode := .check, waiting := some q, staging := quitStaging d.engine.staging })
          ∧ (∀ r, s.ring.state = .dwelling ∨ s.ring.state = .held →
              FirstWith (fun r => r ∈ currentGroup s) gone r → d = haltRing .permit (vnum r) s)
          ∧ ((s.ring.state ≠ .dwelling ∧ s.ring.state ≠ .held) ∨ (∀ r ∈ gone, r ∉ currentGroup s) → d = s)))

/-! ### Condition, faults and wear (R184 to R192) -/

/-- A fault fills an empty record and otherwise raises the further-fault count, with its notice in both cases (R185,
R186); a late event raises both late counts and sends `!LATE` when the device counter reaches the limit (R188). ECLR,
FCLEAR, LATECLR, WEARSET, CACK and FACK: refusals, the fields each writes, and the reply (R154, R171, R184, R187,
R189, R191). -/
def Obligations.FaultsAndRecordsAreKept : Prop :=
  ((∀ (f : FaultRec) (s : State),
     let v := recordFault f s
     v.records = (match s.records.fault with
       | none => { s.records with
           fault := some { f with step := if s.ring.state = .idle then none else some s.ring.ptr } }
       | some _ => { s.records with more := min (s.records.more + 1) 255 })
     ∧ v = (s.setRecords v.records).setLink (notify (.fault f.cause f.elem) s).link)
   ∧ ∀ (e : Nat) (s : State), tableWf s.records.wear = true →
     let v := lateEvent e s
     let d := min (s.records.late + 1) 65535
     s.records.late ≤ 65535 → (wearAt s e).late ≤ 65535 →
     v.records.late = d ∧ (wearAt v e).late = min ((wearAt s e).late + 1) 65535
     ∧ (wearAt v e).count = (wearAt s e).count ∧ (∀ f, f ≠ e → wearAt v f = wearAt s f)
     ∧ v.link = (if s.site.lateLimit ≠ 0 ∧ s.records.late < d ∧ d = s.site.lateLimit
         then (notify (.late d) s).link else s.link)
     ∧ v = (s.setRecords v.records).setLink v.link)
  ∧ (∀ (plus : Bool) (e k : Nat) (s u : State),
       (Takes (.eclr plus e) s u →
         (elemAt u e = none → exec (.eclr plus e) s = .next (replied plus (er .undef) u))
         ∧ (elemAt u e ≠ none → engineEngaged u = true →
           exec (.eclr plus e) s = .next (replied plus (er .busy) u))
         ∧ (∀ r, elemAt u e ≠ none → engineEngaged u = false →
           appliedWhere u (fun x => claimsElem x e) = some r →
           exec (.eclr plus e) s = .next (replied plus (erWith .inuse (vnum r)) u))
         ∧ (∀ x, elemAt u e = some x → engineEngaged u = false →
           appliedWhere u (fun y => claimsElem y e) = none → ∃ v,
           exec (.eclr plus e) s = .next (replied plus (ok [.bare (vnum e)]) v)
           ∧ elemAt v e = some (if x.faulted then { x with faulted := false, pos := none } else x)
           ∧ (∀ f, f ≠ e → elemAt v f = elemAt u f)
           ∧ v.engine = { u.engine with holder := match u.engine.holder with
               | some a => if a.elem = e then none else some a
               | none => none }
           ∧ v = (u.setNet { u.net with elems := v.net.elems }).setEngine v.engine))
       ∧ (Takes (.fclear plus) s u →
         exec (.fclear plus) s
           = .next (replied plus (ok []) (u.setRecords { u.records with fault := none, more := 0 })))
       ∧ (Takes (.lateclr plus) s u → tableWf u.records.wear = true → ∃ v,
         exec (.lateclr plus) s = .next (replied plus (ok []) v)
         ∧ v.records.late = 0 ∧ (∀ f, wearAt v f = { wearAt u f with late := 0 })
         ∧ v = u.setRecords { u.records with late := 0, wear := v.records.wear })
       ∧ (Takes (.wearset plus e k) s u → tableWf u.records.wear = true → ∃ v,
         exec (.wearset plus e k) s = .next (replied plus (ok [.bare (vnum e), .bare (vnum k)]) v)
         ∧ wearAt v e = { wearAt u e with count := k, noticed := false }
         ∧ (∀ f, f ≠ e → wearAt v f = wearAt u f)
         ∧ v = u.setRecords { u.records with wear := v.records.wear })
       ∧ (∀ n : Option Nat, Takes (.cack plus n) s u → tableWf u.cards = true → ∃ v,
         exec (.cack plus n) s
           = .next (replied plus (ok [.bare (match n with | some n => vnum n | none => .word "ALL")]) v)
         ∧ (∀ m, cardAt v m = if n = none ∨ n = some m
             then { cardAt u m with presenceChg := false, stateChg := false } else cardAt u m)
         ∧ v = u.setCards v.cards)
       ∧ (∀ n : Option Nat, Takes (.fack plus n) s u → tableWf u.fixtures = true → ∃ v,
         exec (.fack plus n) s
           = .next (replied plus (ok [.bare (match n with | some n => vnum n | none => .word "ALL")]) v)
         ∧ (∀ m, fixtureAt v m = if n = none ∨ n = some m
             then { fixtureAt u m with presenceChg := false, stateChg := false } else fixtureAt u m)
         ∧ v = u.setFixtures v.fixtures))

/-! ### Queries: each is answered from the state it finds and changes nothing -/

/-- STAT, ELEM?, PORT?, LEG?, NET? and REL? (R12, R36, R40). ROUTE?, ROUTES?, ENGINE?, AHEAD?, STEP?, REPORT? and
RING? (R81, R82, R114, R115, R118, R137, R139). In ENGINE? the drives of a list that have ended are those that are
neither left to issue nor in progress (log entry 29). In RING? what is left of a running dwell is a free value, at most the
timer's length (log entry 3). -/
def Obligations.QueriesAnswerFromTheState : Prop :=
  (∀ (plus : Bool) (n : Nat) (a : Terminal) (s u : State),
     let flag (b : Bool) : Val := vnum (if b then 1 else 0)
     let curveOrDash (c : Option Nat) : Val := match c with | some c => .curve c | none => .dash
     let ending (b : Option Terminal) : Val := match b with | some b => terminalVal b | none => .dash
     (Takes (.stat plus) s u → exec (.stat plus) s = .next (replied plus (ok
       [.keyed "RING" (.word (ringName u.ring.state)), .keyed "STEP" (vnum u.ring.ptr),
        .keyed "VISIT" (vnum u.ring.visit), .keyed "PASS" (vnum u.ring.pass),
        .keyed "ENGINE" (.word (modeName u.engine.mode)), .keyed "TN" (vnum u.engine.number),
        .keyed "APPLIED" (vnum u.engine.applied.length), .keyed "PERMIT" (flag (permit u)),
        .keyed "MUTE" (flag (muteReq u)), .keyed "FAULT" (flag u.records.fault.isSome),
        .keyed "CARDCHG" (flag (u.cards.any fun p => p.2.presenceChg || p.2.stateChg)),
        .keyed "FIXCHG" (flag (u.fixtures.any fun p => p.2.presenceChg || p.2.stateChg))]) u))
     ∧ (Takes (.elemQuery plus n) s u →
       (elemAt u n = none → exec (.elemQuery plus n) s = .next (replied plus (er .undef) u))
       ∧ ∀ x, elemAt u n = some x → exec (.elemQuery plus n) s = .next (replied plus (ok
         (([vnum n, .word (kindName x.kind), vnum x.n, vnum x.card, vnum x.slot,
            vnum (match x.pulse with | some w => w | none => 0), vnum x.settle, flag x.guarded, vnum x.life,
            match x.pos with | some k => vnum k | none => .word "UNKNOWN",
            .word (if x.faulted then "FAULT" else "OK"), flag (u.net.released.contains n)]
           ++ (List.range x.n).map fun k => curveOrDash (tget x.refs (k + 1))).map .bare)) u))
     ∧ (Takes (.portQuery plus n) s u →
       (portAt u n = none → exec (.portQuery plus n) s = .next (replied plus (er .undef) u))
       ∧ ∀ q, portAt u n = some q → exec (.portQuery plus n) s = .next (replied plus (ok
         ([vnum n, .word (className q.cls), match q.fixture with | some f => .fixt f | none => .dash,
           curveOrDash q.cable, ending (partner u (.port n))].map .bare)) u))
     ∧ (Takes (.legQuery plus a) s u →
       (terminalUndef u a = true → exec (.legQuery plus a) s = .next (replied plus (er .undef) u))
       ∧ (terminalUndef u a = false → throwAbove u a = true →
         exec (.legQuery plus a) s = .next (replied plus (er .range) u))
       ∧ (terminalUndef u a = false → throwAbove u a = false → exec (.legQuery plus a) s
         = .next (replied plus (ok [.bare (terminalVal a), .bare (ending (partner u a))]) u)))
     ∧ (Takes (.netQuery plus) s u → exec (.netQuery plus) s = .next (replied plus (ok
       [.keyed "ELEMS" (vnum u.net.elems.length), .keyed "PORTS" (vnum u.net.ports.length),
        .keyed "LEGS" (vnum u.net.legs.length), .keyed "RELEASED" (vnum u.net.released.length),
        .keyed "LOCK" (flag u.net.locked)]) u))
     ∧ (Takes (.relQuery plus) s u → exec (.relQuery plus) s
         = .next (replied plus (ok (u.net.released.map fun e => .bare (vnum e))) u)))
  ∧ (∀ (plus : Bool) (n : Nat) (s u : State),
       let flag (b : Bool) : Val := vnum (if b then 1 else 0)
       let orDash (x : Option Nat) : Val := match x with | some k => vnum k | none => .dash
       (Takes (.routeQuery plus n) s u →
         (routeAt u n = none → exec (.routeQuery plus n) s
           = .next (replied plus (ok [.bare (vnum n), .bare (.word "FREE")]) u))
         ∧ ∀ x, routeAt u n = some x → exec (.routeQuery plus n) s = .next (replied plus (ok
           (([vnum n, .word (routeStateName x.state), vnum x.src, vnum x.dst,
              .word (if x.found then "FOUND" else "EXPLICIT"), flag x.carries, flag x.radiates, flag x.needsGuard,
              match x.torn with | some c => .word (tearName c) | none => .dash, orDash x.last, vnum x.hops.length]
             ++ x.hops.map fun h => Val.hopSide h.elem h.pos h.entersCommon).map .bare)) u))
       ∧ (Takes (.routesQuery plus none) s u → exec (.routesQuery plus none) s = .next (replied plus (ok
         [.keyed "FREE" (vnum (routesIn u .free).length), .keyed "READY" (vnum (routesIn u .ready).length),
          .keyed "APPLIED" (vnum (routesIn u .applied).length), .keyed "RETIRING" (vnum (routesIn u .retiring).length),
          .keyed "STALE" (vnum (routesIn u .stale).length)]) u))
       ∧ (∀ q, Takes (.routesQuery plus (some q)) s u → exec (.routesQuery plus (some q)) s = .next (replied plus (ok
         ([.bare (.word (namedState q)), .bare (vnum (routesIn u q).length)]
           ++ (routesIn u q).map fun r => .bare (vnum r))) u))
       ∧ (Takes (.engineQuery plus) s u → exec (.engineQuery plus) s = .next (replied plus (ok
         ([.keyed "T" (.word (modeName u.engine.mode)), .keyed "TN" (vnum u.engine.number)]
           ++ (match u.engine.trans with
             | none => [.keyed "ORG" .dash, .keyed "MUTE" .dash, .keyed "BRK" .dash, .keyed "MAK" .dash,
                        .keyed "STOP" .dash, .keyed "OUT" .dash, .keyed "CAUSE" .dash]
             | some t =>
               let inPhase (m : Mode) : Nat := if u.engine.mode = m then u.engine.active.length else 0
               [.keyed "ORG" (.word (originName t.origin)), .keyed "MUTE" (flag t.muteNeeded),
                .keyed "BRK" (.over (t.brk.length - t.brkTodo.length - inPhase .breaking) t.brk.length),
                .keyed "MAK" (.over (t.mak.length - t.makTodo.length - inPhase .making) t.mak.length),
                .keyed "STOP" (match t.stop with | some c => .word (stopName c) | none => .dash),
                .keyed "OUT" (match t.outcome with | some o => .word (outcomeName o.1) | none => .dash),
                .keyed "CAUSE" (match t.outcome with | some (_, some c) => .word (endCauseName c) | _ => .dash)])
           ++ [.keyed "STG" (match u.engine.mode with
             | .staging =>
               let g := u.engine.staging
               .over (g.total - g.cut - g.todo.length - u.engine.active.length) g.total
             | .survey => .over u.engine.survey.returned u.engine.survey.total
             | _ => .dash)])) u))
       ∧ (Takes (.aheadQuery plus) s u → exec (.aheadQuery plus) s = .next (replied plus (ok
         (match u.engine.holder with
           | none => [.bare .dash]
           | some a => [.bare (vnum a.elem), .bare (vnum a.commanded),
               .bare (match a.indicated with | some k => vnum k | none => .word "INDETERMINATE")])) u))
       ∧ (Takes (.stepQuery plus n) s u →
         (stepAt u n = none → exec (.stepQuery plus n) s = .next (replied plus (er .undef) u))
         ∧ ∀ x, stepAt u n = some x → exec (.stepQuery plus n) s = .next (replied plus (ok
           (([vnum n, vnum x.dwell, vnum x.rep, vnum x.freq,
              match stepFlags x with | [] => .dash | l => .commaWords l, vnum x.group.length]
             ++ x.group.map vnum).map .bare)) u))
       ∧ (Takes (.reportQuery plus) s u → exec (.reportQuery plus) s = .next (replied plus (ok
         (match u.ring.report with
           | none => [.bare .dash]
           | some p =>
             [.keyed "STEP" (vnum p.step), .keyed "PASS" (vnum p.pass), .keyed "TN" (vnum p.number),
              .keyed "F" (vnum p.freq), .keyed "SPREAD" (vnum p.spread), .keyed "BAL" (flag p.balance),
              .keyed "N" (vnum p.results.length)] ++ p.results.map fun x => .part (vnum x.1) (reportVal x.2))) u))
       ∧ (Takes (.ringQuery plus) s u →
         let fields (dwell : Val) : List Field :=
           [.keyed "S" (.word (ringName u.ring.state)), .keyed "L" (vnum u.ring.len), .keyed "I" (vnum u.ring.ptr),
            .keyed "V" (vnum u.ring.visit), .keyed "PASS" (vnum u.ring.pass), .keyed "DWELL" dwell,
            .keyed "TRIG" (flag u.ring.pendingTrig), .keyed "OVR" (flag u.ring.overrun),
            .keyed "HOLD" (flag u.ring.holdPending),
            .keyed "CAUSE" (match u.ring.halt with | some h => .word (haltName h.1) | none => .dash),
            .keyed "DETAIL" (match u.ring.halt with | some h => h.2 | none => .dash)]
         (∀ d, u.ring.state = .dwelling → u.ring.dwellTimer = some d → ∃ k, k ≤ d ∧
           exec (.ringQuery plus) s = .next (replied plus (ok (fields (vnum k))) (u.setFree (u.free + 1))))
         ∧ (u.ring.state = .dwelling → u.ring.dwellTimer = none →
           exec (.ringQuery plus) s = .next (replied plus (ok (fields .dash)) u))
         ∧ (u.ring.state = .held →
           exec (.ringQuery plus) s = .next (replied plus (ok (fields (orDash u.ring.keptDwell))) u))
         ∧ (u.ring.state ≠ .dwelling → u.ring.state ≠ .held →
           exec (.ringQuery plus) s = .next (replied plus (ok (fields .dash)) u))))

/-- CARD?, CARDS?, FIX?, FIXES?, ILK?, MUTE?, FAULT?, LATE? and WEAR? (R155, R172, R178, R183, R187, R189, R191). -/
def Obligations.UnitQueriesAnswer : Prop :=
  ∀ (plus : Bool) (n : Nat) (s u : State),
    let flag (b : Bool) : Val := vnum (if b then 1 else 0)
    let orDash (x : Option Nat) : Val := match x with | some k => vnum k | none => .dash
    let loop (m : Nat) : Val := .word (if (loopAt u m).closed = false then "OPEN"
      else if (loopAt u m).confirmed then "CONF" else "CLOSED")
    (Takes (.cardQuery plus n) s u → exec (.cardQuery plus n) s = .next (replied plus (ok
      [.bare (vnum n), .bare (.word (cardName (cardAt u n).state)), .keyed "PCHG" (flag (cardAt u n).presenceChg),
       .keyed "SCHG" (flag (cardAt u n).stateChg), .keyed "CSF" (flag (cardAt u n).coilFault),
       .keyed "LAST" (match (cardAt u n).last with | some p => .word (pollName p) | none => .dash),
       .keyed "PULSES" (vnum (cardAt u n).pulses), .keyed "ELEMS" (vnum (elemsOnCard u n).length)]) u))
    ∧ (Takes (.cardsQuery plus) s u → exec (.cardsQuery plus) s = .next (replied plus (ok
      ([0, 1, 2, 3, 4, 5, 6, 7, 8, 9, 10, 11].map fun m => .item m (.word (cardName (cardAt u m).state))
        ((cardAt u m).presenceChg || (cardAt u m).stateChg))) u))
    ∧ (Takes (.fixQuery plus n) s u → exec (.fixQuery plus n) s = .next (replied plus (ok
      (let f := fixtureAt u n
       [.bare (vnum n), .bare (.word (fixName f.state)), .keyed "OWNER" (.word (ownerName f.owner)),
        .keyed "PRES" (flag f.present), .keyed "POWER" (flag (fixturePower u n)),
        .keyed "KIND" (orDash (f.identity.map fun i => i.1)), .keyed "COUPLER" (orDash (f.identity.map fun i => i.2)),
        .keyed "LAST" (match f.last with | some r => .word (admitName r) | none => .dash),
        .keyed "PCHG" (flag f.presenceChg), .keyed "SCHG" (flag f.stateChg), .keyed "PORT" (boundPort u n)])) u))
    ∧ (Takes (.fixesQuery plus) s u → exec (.fixesQuery plus) s = .next (replied plus (ok
      ([0, 1, 2, 3, 4, 5, 6, 7].map fun m => .item m
        (.slash (fixName (fixtureAt u m).state) (ownerName (fixtureAt u m).owner))
        ((fixtureAt u m).presenceChg || (fixtureAt u m).stateChg))) u))
    ∧ (Takes (.ilkQuery plus) s u → exec (.ilkQuery plus) s = .next (replied plus (ok
      [.keyed "P" (flag (permit u)), .keyed "L1" (loop 1), .keyed "L2" (loop 2), .keyed "L3" (loop 3),
       .keyed "L4" (loop 4)]) u))
    ∧ (Takes (.muteQuery plus) s u → exec (.muteQuery plus) s = .next (replied plus (ok
      [.keyed "M" (flag (muteReq u)), .keyed "ENG" (flag u.engine.mute), .keyed "EXP" (flag (exposure u)),
       .keyed "LATCH" (flag u.latch)]) u)
      ∧ (muteReq u = true ↔ u.engine.mute = true ∨ exposure u = true ∨ u.latch = true))
    ∧ (Takes (.faultQuery plus) s u →
      (u.records.fault = none → exec (.faultQuery plus) s = .next (replied plus (ok [.bare .dash]) u))
      ∧ ∀ f, u.records.fault = some f → exec (.faultQuery plus) s = .next (replied plus (ok
        [.keyed "CAUSE" (.word (faultName f.cause)), .keyed "E" (orDash f.elem), .keyed "CMD" (orDash f.commanded),
         .keyed "IND" (match f.indicated with
           | none => .dash | some none => .word "INDETERMINATE" | some (some k) => vnum k),
         .keyed "TN" (orDash f.number), .keyed "STEP" (orDash f.step),
         .keyed "TORN" (match f.torn with | [] => .dash | l => .commaNums l),
         .keyed "MORE" (vnum u.records.more)]) u))
    ∧ (Takes (.lateQuery plus) s u → exec (.lateQuery plus) s = .next (replied plus (ok
      [.keyed "LATE" (vnum u.records.late), .keyed "LIMIT" (vnum u.site.lateLimit)]) u))
    ∧ (Takes (.wearQuery plus n) s u → exec (.wearQuery plus n) s = .next (replied plus (ok
      [.bare (vnum n), .keyed "COUNT" (vnum (wearAt u n).count),
       .keyed "LIMIT" (orDash ((elemAt u n).map fun x => x.life)), .keyed "NOTICED" (flag (wearAt u n).noticed),
       .keyed "LATE" (vnum (wearAt u n).late)]) u))

/-! ### What every step keeps -/

/-- Every step keeps the ring's length, pointer, visit counter and pass count in their ranges, with the visit counter
within the repeat of the step at the pointer (R120, R116). -/
def Obligations.StepsKeepTheRingInRange : Prop :=
  ∀ s t : State, RingSafe s → step s = .next t → RingSafe t

/-- Every step keeps at most 8 lines in the line queue and 32 notices in the notice queue (R2, R8). -/
def Obligations.StepsKeepTheQueuesBounded : Prop :=
  ∀ s t : State, LinkSafe s → step s = .next t → LinkSafe t

/-- Every step keeps each card at no more than 2 coil pulses in progress (R145), and the count at the number of its
drives whose pulse is in progress, with what that rests on: one drive in progress for an element, none that waits
besides (R94). -/
def Obligations.StepsKeepTheDriveBudget : Prop :=
  (∀ s t : State, TablesSafe s → BudgetSafe s → step s = .next t → BudgetSafe t)
  ∧ ∀ s t : State, TablesSafe s → DrivesSafe s → step s = .next t → DrivesSafe t

/-- Every step keeps every table of records in its canonical form, so that equal tables are equal data. The form is the
model's own (log entry 27). The applied set keeps its own: each route once, in ascending order, and routes of the old
set only while a transition is in flight, for routes enter at its end (R98). The laws of the applied set (R85) and of
the current group (R121), with what they rest on (`EngineSafe`): no two applied routes conflict; they are at most 8, each
APPLIED or RETIRING; in IDLE and STAGING the elements they claim stand at their positions, usable; and in DWELLING and HELD
they are the current group. -/
def Obligations.StepsKeepTheTablesCanonical : Prop :=
  (∀ s t : State, TablesSafe s → step s = .next t → TablesSafe t)
  ∧ (∀ s t : State, AppliedSafe s → step s = .next t → AppliedSafe t)
  ∧ ∀ s t : State, TablesSafe s → DrivesSafe s → AppliedSafe s → EngineSafe s → step s = .next t → EngineSafe t

/-- Every step keeps at most one leg at each terminal, with its two ends apart (R32). -/
def Obligations.StepsKeepTheLegsPaired : Prop :=
  ∀ s t : State, LegsSafe s → step s = .next t → LegsSafe t

/-- The mute law: in BREAK and MAKE of a transition that needs mute, MUTE_ACK has stayed asserted or no EM drive of it
is left to issue or in progress, and every step keeps it so (R93, R91, R101). In BREAK the make list is left out of what
is left to issue once an element has faulted (the model's reading of R93 and R97, log entry 17). -/
def Obligations.StepsKeepTheMuteLaw : Prop :=
  ∀ s t : State, MuteSafe s → step s = .next t → MuteSafe t

/-- Once the fault record is present, its contents change through FCLEAR or a reset and through nothing else (R186). -/
def Obligations.FaultRecordsStayAsRecorded : Prop :=
  ∀ (i : Instr) (s t : State) (f : FaultRec), s.records.fault = some f → resets i s = false →
    (∀ plus, i ≠ .fclear plus) → exec i s = .next t → t.records.fault = some f

/-- Between resets an element's throw count rises by one for a DRIVE issued to it in the step, saturating, and changes
otherwise only through WEARSET; and every DRIVE raises it: an element that has a drive in progress after the step and
had none before has been counted (R190). -/
def Obligations.ThrowCountsRiseByDrives : Prop :=
  ∀ (i : Instr) (s t : State) (e : Nat), tableWf s.records.wear = true → resets i s = false →
    (∀ plus n, i ≠ .wearset plus e n) → exec i s = .next t →
    ((wearAt t e).count = (wearAt s e).count
    ∨ ((wearAt t e).count = (if (wearAt s e).count < 4294967295 then (wearAt s e).count + 1 else 4294967295)
      ∧ (∃ c k p w, t.bus.tx = some (.drive c k e p w)) ∧ ∃ d ∈ t.engine.active, d.elem = e))
    ∧ ((∀ d ∈ s.engine.active, d.elem ≠ e) → (∃ d ∈ t.engine.active, d.elem = e) →
      (wearAt t e).count = (if (wearAt s e).count < 4294967295 then (wearAt s e).count + 1 else 4294967295))

/-- The state at reset meets every invariant stated here, and holds the values the manual gives for a reset. -/
def Obligations.ResetMeetsTheInvariants : Prop :=
  (RingSafe State.reset ∧ LinkSafe State.reset ∧ BudgetSafe State.reset ∧ DrivesSafe State.reset
    ∧ TablesSafe State.reset ∧ AppliedSafe State.reset ∧ EngineSafe State.reset ∧ LegsSafe State.reset
    ∧ MuteSafe State.reset)
  ∧ (muteReq State.reset = true ∧ cts State.reset = false ∧ ready State.reset = false
    ∧ markOut State.reset = false ∧ permit State.reset = false ∧ ∀ n, fixturePower State.reset n = false)
end

