-- ==== Sys2Proof/Laws/State.lean ====
section
/-! SUPPORT. What each setter of State.lean changes and leaves: one lemma per field per setter, by rfl. -/

namespace Sys2Proof.Machine

@[simp] theorem State.setPending_pending (s : State) (v : List Instr) : (s.setPending v).pending = v := rfl
@[simp] theorem State.setPending_phase (s : State) (v : List Instr) : (s.setPending v).phase = s.phase := rfl
@[simp] theorem State.setPending_cause (s : State) (v : List Instr) : (s.setPending v).cause = s.cause := rfl
@[simp] theorem State.setPending_free (s : State) (v : List Instr) : (s.setPending v).free = s.free := rfl
@[simp] theorem State.setPending_link (s : State) (v : List Instr) : (s.setPending v).link = s.link := rfl
@[simp] theorem State.setPending_site (s : State) (v : List Instr) : (s.setPending v).site = s.site := rfl
@[simp] theorem State.setPending_rate (s : State) (v : List Instr) : (s.setPending v).rate = s.rate := rfl
@[simp] theorem State.setPending_lock (s : State) (v : List Instr) : (s.setPending v).lock = s.lock := rfl
@[simp] theorem State.setPending_store (s : State) (v : List Instr) : (s.setPending v).store = s.store := rfl
@[simp] theorem State.setPending_failed (s : State) (v : List Instr) : (s.setPending v).failed = s.failed := rfl
@[simp] theorem State.setPending_images (s : State) (v : List Instr) : (s.setPending v).images = s.images := rfl
@[simp] theorem State.setPending_net (s : State) (v : List Instr) : (s.setPending v).net = s.net := rfl
@[simp] theorem State.setPending_routes (s : State) (v : List Instr) : (s.setPending v).routes = s.routes := rfl
@[simp] theorem State.setPending_engine (s : State) (v : List Instr) : (s.setPending v).engine = s.engine := rfl
@[simp] theorem State.setPending_ring (s : State) (v : List Instr) : (s.setPending v).ring = s.ring := rfl
@[simp] theorem State.setPending_bus (s : State) (v : List Instr) : (s.setPending v).bus = s.bus := rfl
@[simp] theorem State.setPending_cards (s : State) (v : List Instr) : (s.setPending v).cards = s.cards := rfl
@[simp] theorem State.setPending_fixtures (s : State) (v : List Instr) : (s.setPending v).fixtures = s.fixtures := rfl
@[simp] theorem State.setPending_loops (s : State) (v : List Instr) : (s.setPending v).loops = s.loops := rfl
@[simp] theorem State.setPending_latch (s : State) (v : List Instr) : (s.setPending v).latch = s.latch := rfl
@[simp] theorem State.setPending_records (s : State) (v : List Instr) : (s.setPending v).records = s.records := rfl
@[simp] theorem State.setPending_muteAck (s : State) (v : List Instr) : (s.setPending v).muteAck = s.muteAck := rfl
@[simp] theorem State.setPhase_pending (s : State) (v : Phase) : (s.setPhase v).pending = s.pending := rfl
@[simp] theorem State.setPhase_phase (s : State) (v : Phase) : (s.setPhase v).phase = v := rfl
@[simp] theorem State.setPhase_cause (s : State) (v : Phase) : (s.setPhase v).cause = s.cause := rfl
@[simp] theorem State.setPhase_free (s : State) (v : Phase) : (s.setPhase v).free = s.free := rfl
@[simp] theorem State.setPhase_link (s : State) (v : Phase) : (s.setPhase v).link = s.link := rfl
@[simp] theorem State.setPhase_site (s : State) (v : Phase) : (s.setPhase v).site = s.site := rfl
@[simp] theorem State.setPhase_rate (s : State) (v : Phase) : (s.setPhase v).rate = s.rate := rfl
@[simp] theorem State.setPhase_lock (s : State) (v : Phase) : (s.setPhase v).lock = s.lock := rfl
@[simp] theorem State.setPhase_store (s : State) (v : Phase) : (s.setPhase v).store = s.store := rfl
@[simp] theorem State.setPhase_failed (s : State) (v : Phase) : (s.setPhase v).failed = s.failed := rfl
@[simp] theorem State.setPhase_images (s : State) (v : Phase) : (s.setPhase v).images = s.images := rfl
@[simp] theorem State.setPhase_net (s : State) (v : Phase) : (s.setPhase v).net = s.net := rfl
@[simp] theorem State.setPhase_routes (s : State) (v : Phase) : (s.setPhase v).routes = s.routes := rfl
@[simp] theorem State.setPhase_engine (s : State) (v : Phase) : (s.setPhase v).engine = s.engine := rfl
@[simp] theorem State.setPhase_ring (s : State) (v : Phase) : (s.setPhase v).ring = s.ring := rfl
@[simp] theorem State.setPhase_bus (s : State) (v : Phase) : (s.setPhase v).bus = s.bus := rfl
@[simp] theorem State.setPhase_cards (s : State) (v : Phase) : (s.setPhase v).cards = s.cards := rfl
@[simp] theorem State.setPhase_fixtures (s : State) (v : Phase) : (s.setPhase v).fixtures = s.fixtures := rfl
@[simp] theorem State.setPhase_loops (s : State) (v : Phase) : (s.setPhase v).loops = s.loops := rfl
@[simp] theorem State.setPhase_latch (s : State) (v : Phase) : (s.setPhase v).latch = s.latch := rfl
@[simp] theorem State.setPhase_records (s : State) (v : Phase) : (s.setPhase v).records = s.records := rfl
@[simp] theorem State.setPhase_muteAck (s : State) (v : Phase) : (s.setPhase v).muteAck = s.muteAck := rfl
@[simp] theorem State.setCause_pending (s : State) (v : ResetCause) : (s.setCause v).pending = s.pending := rfl
@[simp] theorem State.setCause_phase (s : State) (v : ResetCause) : (s.setCause v).phase = s.phase := rfl
@[simp] theorem State.setCause_cause (s : State) (v : ResetCause) : (s.setCause v).cause = v := rfl
@[simp] theorem State.setCause_free (s : State) (v : ResetCause) : (s.setCause v).free = s.free := rfl
@[simp] theorem State.setCause_link (s : State) (v : ResetCause) : (s.setCause v).link = s.link := rfl
@[simp] theorem State.setCause_site (s : State) (v : ResetCause) : (s.setCause v).site = s.site := rfl
@[simp] theorem State.setCause_rate (s : State) (v : ResetCause) : (s.setCause v).rate = s.rate := rfl
@[simp] theorem State.setCause_lock (s : State) (v : ResetCause) : (s.setCause v).lock = s.lock := rfl
@[simp] theorem State.setCause_store (s : State) (v : ResetCause) : (s.setCause v).store = s.store := rfl
@[simp] theorem State.setCause_failed (s : State) (v : ResetCause) : (s.setCause v).failed = s.failed := rfl
@[simp] theorem State.setCause_images (s : State) (v : ResetCause) : (s.setCause v).images = s.images := rfl
@[simp] theorem State.setCause_net (s : State) (v : ResetCause) : (s.setCause v).net = s.net := rfl
@[simp] theorem State.setCause_routes (s : State) (v : ResetCause) : (s.setCause v).routes = s.routes := rfl
@[simp] theorem State.setCause_engine (s : State) (v : ResetCause) : (s.setCause v).engine = s.engine := rfl
@[simp] theorem State.setCause_ring (s : State) (v : ResetCause) : (s.setCause v).ring = s.ring := rfl
@[simp] theorem State.setCause_bus (s : State) (v : ResetCause) : (s.setCause v).bus = s.bus := rfl
@[simp] theorem State.setCause_cards (s : State) (v : ResetCause) : (s.setCause v).cards = s.cards := rfl
@[simp] theorem State.setCause_fixtures (s : State) (v : ResetCause) : (s.setCause v).fixtures = s.fixtures := rfl
@[simp] theorem State.setCause_loops (s : State) (v : ResetCause) : (s.setCause v).loops = s.loops := rfl
@[simp] theorem State.setCause_latch (s : State) (v : ResetCause) : (s.setCause v).latch = s.latch := rfl
@[simp] theorem State.setCause_records (s : State) (v : ResetCause) : (s.setCause v).records = s.records := rfl
@[simp] theorem State.setCause_muteAck (s : State) (v : ResetCause) : (s.setCause v).muteAck = s.muteAck := rfl
@[simp] theorem State.setFree_pending (s : State) (v : Nat) : (s.setFree v).pending = s.pending := rfl
@[simp] theorem State.setFree_phase (s : State) (v : Nat) : (s.setFree v).phase = s.phase := rfl
@[simp] theorem State.setFree_cause (s : State) (v : Nat) : (s.setFree v).cause = s.cause := rfl
@[simp] theorem State.setFree_free (s : State) (v : Nat) : (s.setFree v).free = v := rfl
@[simp] theorem State.setFree_link (s : State) (v : Nat) : (s.setFree v).link = s.link := rfl
@[simp] theorem State.setFree_site (s : State) (v : Nat) : (s.setFree v).site = s.site := rfl
@[simp] theorem State.setFree_rate (s : State) (v : Nat) : (s.setFree v).rate = s.rate := rfl
@[simp] theorem State.setFree_lock (s : State) (v : Nat) : (s.setFree v).lock = s.lock := rfl
@[simp] theorem State.setFree_store (s : State) (v : Nat) : (s.setFree v).store = s.store := rfl
@[simp] theorem State.setFree_failed (s : State) (v : Nat) : (s.setFree v).failed = s.failed := rfl
@[simp] theorem State.setFree_images (s : State) (v : Nat) : (s.setFree v).images = s.images := rfl
@[simp] theorem State.setFree_net (s : State) (v : Nat) : (s.setFree v).net = s.net := rfl
@[simp] theorem State.setFree_routes (s : State) (v : Nat) : (s.setFree v).routes = s.routes := rfl
@[simp] theorem State.setFree_engine (s : State) (v : Nat) : (s.setFree v).engine = s.engine := rfl
@[simp] theorem State.setFree_ring (s : State) (v : Nat) : (s.setFree v).ring = s.ring := rfl
@[simp] theorem State.setFree_bus (s : State) (v : Nat) : (s.setFree v).bus = s.bus := rfl
@[simp] theorem State.setFree_cards (s : State) (v : Nat) : (s.setFree v).cards = s.cards := rfl
@[simp] theorem State.setFree_fixtures (s : State) (v : Nat) : (s.setFree v).fixtures = s.fixtures := rfl
@[simp] theorem State.setFree_loops (s : State) (v : Nat) : (s.setFree v).loops = s.loops := rfl
@[simp] theorem State.setFree_latch (s : State) (v : Nat) : (s.setFree v).latch = s.latch := rfl
@[simp] theorem State.setFree_records (s : State) (v : Nat) : (s.setFree v).records = s.records := rfl
@[simp] theorem State.setFree_muteAck (s : State) (v : Nat) : (s.setFree v).muteAck = s.muteAck := rfl
@[simp] theorem State.setLink_pending (s : State) (v : Link) : (s.setLink v).pending = s.pending := rfl
@[simp] theorem State.setLink_phase (s : State) (v : Link) : (s.setLink v).phase = s.phase := rfl
@[simp] theorem State.setLink_cause (s : State) (v : Link) : (s.setLink v).cause = s.cause := rfl
@[simp] theorem State.setLink_free (s : State) (v : Link) : (s.setLink v).free = s.free := rfl
@[simp] theorem State.setLink_link (s : State) (v : Link) : (s.setLink v).link = v := rfl
@[simp] theorem State.setLink_site (s : State) (v : Link) : (s.setLink v).site = s.site := rfl
@[simp] theorem State.setLink_rate (s : State) (v : Link) : (s.setLink v).rate = s.rate := rfl
@[simp] theorem State.setLink_lock (s : State) (v : Link) : (s.setLink v).lock = s.lock := rfl
@[simp] theorem State.setLink_store (s : State) (v : Link) : (s.setLink v).store = s.store := rfl
@[simp] theorem State.setLink_failed (s : State) (v : Link) : (s.setLink v).failed = s.failed := rfl
@[simp] theorem State.setLink_images (s : State) (v : Link) : (s.setLink v).images = s.images := rfl
@[simp] theorem State.setLink_net (s : State) (v : Link) : (s.setLink v).net = s.net := rfl
@[simp] theorem State.setLink_routes (s : State) (v : Link) : (s.setLink v).routes = s.routes := rfl
@[simp] theorem State.setLink_engine (s : State) (v : Link) : (s.setLink v).engine = s.engine := rfl
@[simp] theorem State.setLink_ring (s : State) (v : Link) : (s.setLink v).ring = s.ring := rfl
@[simp] theorem State.setLink_bus (s : State) (v : Link) : (s.setLink v).bus = s.bus := rfl
@[simp] theorem State.setLink_cards (s : State) (v : Link) : (s.setLink v).cards = s.cards := rfl
@[simp] theorem State.setLink_fixtures (s : State) (v : Link) : (s.setLink v).fixtures = s.fixtures := rfl
@[simp] theorem State.setLink_loops (s : State) (v : Link) : (s.setLink v).loops = s.loops := rfl
@[simp] theorem State.setLink_latch (s : State) (v : Link) : (s.setLink v).latch = s.latch := rfl
@[simp] theorem State.setLink_records (s : State) (v : Link) : (s.setLink v).records = s.records := rfl
@[simp] theorem State.setLink_muteAck (s : State) (v : Link) : (s.setLink v).muteAck = s.muteAck := rfl
@[simp] theorem State.setSite_pending (s : State) (v : Site) : (s.setSite v).pending = s.pending := rfl
@[simp] theorem State.setSite_phase (s : State) (v : Site) : (s.setSite v).phase = s.phase := rfl
@[simp] theorem State.setSite_cause (s : State) (v : Site) : (s.setSite v).cause = s.cause := rfl
@[simp] theorem State.setSite_free (s : State) (v : Site) : (s.setSite v).free = s.free := rfl
@[simp] theorem State.setSite_link (s : State) (v : Site) : (s.setSite v).link = s.link := rfl
@[simp] theorem State.setSite_site (s : State) (v : Site) : (s.setSite v).site = v := rfl
@[simp] theorem State.setSite_rate (s : State) (v : Site) : (s.setSite v).rate = s.rate := rfl
@[simp] theorem State.setSite_lock (s : State) (v : Site) : (s.setSite v).lock = s.lock := rfl
@[simp] theorem State.setSite_store (s : State) (v : Site) : (s.setSite v).store = s.store := rfl
@[simp] theorem State.setSite_failed (s : State) (v : Site) : (s.setSite v).failed = s.failed := rfl
@[simp] theorem State.setSite_images (s : State) (v : Site) : (s.setSite v).images = s.images := rfl
@[simp] theorem State.setSite_net (s : State) (v : Site) : (s.setSite v).net = s.net := rfl
@[simp] theorem State.setSite_routes (s : State) (v : Site) : (s.setSite v).routes = s.routes := rfl
@[simp] theorem State.setSite_engine (s : State) (v : Site) : (s.setSite v).engine = s.engine := rfl
@[simp] theorem State.setSite_ring (s : State) (v : Site) : (s.setSite v).ring = s.ring := rfl
@[simp] theorem State.setSite_bus (s : State) (v : Site) : (s.setSite v).bus = s.bus := rfl
@[simp] theorem State.setSite_cards (s : State) (v : Site) : (s.setSite v).cards = s.cards := rfl
@[simp] theorem State.setSite_fixtures (s : State) (v : Site) : (s.setSite v).fixtures = s.fixtures := rfl
@[simp] theorem State.setSite_loops (s : State) (v : Site) : (s.setSite v).loops = s.loops := rfl
@[simp] theorem State.setSite_latch (s : State) (v : Site) : (s.setSite v).latch = s.latch := rfl
@[simp] theorem State.setSite_records (s : State) (v : Site) : (s.setSite v).records = s.records := rfl
@[simp] theorem State.setSite_muteAck (s : State) (v : Site) : (s.setSite v).muteAck = s.muteAck := rfl
@[simp] theorem State.setRate_pending (s : State) (v : Nat) : (s.setRate v).pending = s.pending := rfl
@[simp] theorem State.setRate_phase (s : State) (v : Nat) : (s.setRate v).phase = s.phase := rfl
@[simp] theorem State.setRate_cause (s : State) (v : Nat) : (s.setRate v).cause = s.cause := rfl
@[simp] theorem State.setRate_free (s : State) (v : Nat) : (s.setRate v).free = s.free := rfl
@[simp] theorem State.setRate_link (s : State) (v : Nat) : (s.setRate v).link = s.link := rfl
@[simp] theorem State.setRate_site (s : State) (v : Nat) : (s.setRate v).site = s.site := rfl
@[simp] theorem State.setRate_rate (s : State) (v : Nat) : (s.setRate v).rate = v := rfl
@[simp] theorem State.setRate_lock (s : State) (v : Nat) : (s.setRate v).lock = s.lock := rfl
@[simp] theorem State.setRate_store (s : State) (v : Nat) : (s.setRate v).store = s.store := rfl
@[simp] theorem State.setRate_failed (s : State) (v : Nat) : (s.setRate v).failed = s.failed := rfl
@[simp] theorem State.setRate_images (s : State) (v : Nat) : (s.setRate v).images = s.images := rfl
@[simp] theorem State.setRate_net (s : State) (v : Nat) : (s.setRate v).net = s.net := rfl
@[simp] theorem State.setRate_routes (s : State) (v : Nat) : (s.setRate v).routes = s.routes := rfl
@[simp] theorem State.setRate_engine (s : State) (v : Nat) : (s.setRate v).engine = s.engine := rfl
@[simp] theorem State.setRate_ring (s : State) (v : Nat) : (s.setRate v).ring = s.ring := rfl
@[simp] theorem State.setRate_bus (s : State) (v : Nat) : (s.setRate v).bus = s.bus := rfl
@[simp] theorem State.setRate_cards (s : State) (v : Nat) : (s.setRate v).cards = s.cards := rfl
@[simp] theorem State.setRate_fixtures (s : State) (v : Nat) : (s.setRate v).fixtures = s.fixtures := rfl
@[simp] theorem State.setRate_loops (s : State) (v : Nat) : (s.setRate v).loops = s.loops := rfl
@[simp] theorem State.setRate_latch (s : State) (v : Nat) : (s.setRate v).latch = s.latch := rfl
@[simp] theorem State.setRate_records (s : State) (v : Nat) : (s.setRate v).records = s.records := rfl
@[simp] theorem State.setRate_muteAck (s : State) (v : Nat) : (s.setRate v).muteAck = s.muteAck := rfl
@[simp] theorem State.setLock_pending (s : State) (v : Bool) : (s.setLock v).pending = s.pending := rfl
@[simp] theorem State.setLock_phase (s : State) (v : Bool) : (s.setLock v).phase = s.phase := rfl
@[simp] theorem State.setLock_cause (s : State) (v : Bool) : (s.setLock v).cause = s.cause := rfl
@[simp] theorem State.setLock_free (s : State) (v : Bool) : (s.setLock v).free = s.free := rfl
@[simp] theorem State.setLock_link (s : State) (v : Bool) : (s.setLock v).link = s.link := rfl
@[simp] theorem State.setLock_site (s : State) (v : Bool) : (s.setLock v).site = s.site := rfl
@[simp] theorem State.setLock_rate (s : State) (v : Bool) : (s.setLock v).rate = s.rate := rfl
@[simp] theorem State.setLock_lock (s : State) (v : Bool) : (s.setLock v).lock = v := rfl
@[simp] theorem State.setLock_store (s : State) (v : Bool) : (s.setLock v).store = s.store := rfl
@[simp] theorem State.setLock_failed (s : State) (v : Bool) : (s.setLock v).failed = s.failed := rfl
@[simp] theorem State.setLock_images (s : State) (v : Bool) : (s.setLock v).images = s.images := rfl
@[simp] theorem State.setLock_net (s : State) (v : Bool) : (s.setLock v).net = s.net := rfl
@[simp] theorem State.setLock_routes (s : State) (v : Bool) : (s.setLock v).routes = s.routes := rfl
@[simp] theorem State.setLock_engine (s : State) (v : Bool) : (s.setLock v).engine = s.engine := rfl
@[simp] theorem State.setLock_ring (s : State) (v : Bool) : (s.setLock v).ring = s.ring := rfl
@[simp] theorem State.setLock_bus (s : State) (v : Bool) : (s.setLock v).bus = s.bus := rfl
@[simp] theorem State.setLock_cards (s : State) (v : Bool) : (s.setLock v).cards = s.cards := rfl
@[simp] theorem State.setLock_fixtures (s : State) (v : Bool) : (s.setLock v).fixtures = s.fixtures := rfl
@[simp] theorem State.setLock_loops (s : State) (v : Bool) : (s.setLock v).loops = s.loops := rfl
@[simp] theorem State.setLock_latch (s : State) (v : Bool) : (s.setLock v).latch = s.latch := rfl
@[simp] theorem State.setLock_records (s : State) (v : Bool) : (s.setLock v).records = s.records := rfl
@[simp] theorem State.setLock_muteAck (s : State) (v : Bool) : (s.setLock v).muteAck = s.muteAck := rfl
@[simp] theorem State.setStore_pending (s : State) (v : Store) : (s.setStore v).pending = s.pending := rfl
@[simp] theorem State.setStore_phase (s : State) (v : Store) : (s.setStore v).phase = s.phase := rfl
@[simp] theorem State.setStore_cause (s : State) (v : Store) : (s.setStore v).cause = s.cause := rfl
@[simp] theorem State.setStore_free (s : State) (v : Store) : (s.setStore v).free = s.free := rfl
@[simp] theorem State.setStore_link (s : State) (v : Store) : (s.setStore v).link = s.link := rfl
@[simp] theorem State.setStore_site (s : State) (v : Store) : (s.setStore v).site = s.site := rfl
@[simp] theorem State.setStore_rate (s : State) (v : Store) : (s.setStore v).rate = s.rate := rfl
@[simp] theorem State.setStore_lock (s : State) (v : Store) : (s.setStore v).lock = s.lock := rfl
@[simp] theorem State.setStore_store (s : State) (v : Store) : (s.setStore v).store = v := rfl
@[simp] theorem State.setStore_failed (s : State) (v : Store) : (s.setStore v).failed = s.failed := rfl
@[simp] theorem State.setStore_images (s : State) (v : Store) : (s.setStore v).images = s.images := rfl
@[simp] theorem State.setStore_net (s : State) (v : Store) : (s.setStore v).net = s.net := rfl
@[simp] theorem State.setStore_routes (s : State) (v : Store) : (s.setStore v).routes = s.routes := rfl
@[simp] theorem State.setStore_engine (s : State) (v : Store) : (s.setStore v).engine = s.engine := rfl
@[simp] theorem State.setStore_ring (s : State) (v : Store) : (s.setStore v).ring = s.ring := rfl
@[simp] theorem State.setStore_bus (s : State) (v : Store) : (s.setStore v).bus = s.bus := rfl
@[simp] theorem State.setStore_cards (s : State) (v : Store) : (s.setStore v).cards = s.cards := rfl
@[simp] theorem State.setStore_fixtures (s : State) (v : Store) : (s.setStore v).fixtures = s.fixtures := rfl
@[simp] theorem State.setStore_loops (s : State) (v : Store) : (s.setStore v).loops = s.loops := rfl
@[simp] theorem State.setStore_latch (s : State) (v : Store) : (s.setStore v).latch = s.latch := rfl
@[simp] theorem State.setStore_records (s : State) (v : Store) : (s.setStore v).records = s.records := rfl
@[simp] theorem State.setStore_muteAck (s : State) (v : Store) : (s.setStore v).muteAck = s.muteAck := rfl
@[simp] theorem State.setFailed_pending (s : State) (v : Nat) : (s.setFailed v).pending = s.pending := rfl
@[simp] theorem State.setFailed_phase (s : State) (v : Nat) : (s.setFailed v).phase = s.phase := rfl
@[simp] theorem State.setFailed_cause (s : State) (v : Nat) : (s.setFailed v).cause = s.cause := rfl
@[simp] theorem State.setFailed_free (s : State) (v : Nat) : (s.setFailed v).free = s.free := rfl
@[simp] theorem State.setFailed_link (s : State) (v : Nat) : (s.setFailed v).link = s.link := rfl
@[simp] theorem State.setFailed_site (s : State) (v : Nat) : (s.setFailed v).site = s.site := rfl
@[simp] theorem State.setFailed_rate (s : State) (v : Nat) : (s.setFailed v).rate = s.rate := rfl
@[simp] theorem State.setFailed_lock (s : State) (v : Nat) : (s.setFailed v).lock = s.lock := rfl
@[simp] theorem State.setFailed_store (s : State) (v : Nat) : (s.setFailed v).store = s.store := rfl
@[simp] theorem State.setFailed_failed (s : State) (v : Nat) : (s.setFailed v).failed = v := rfl
@[simp] theorem State.setFailed_images (s : State) (v : Nat) : (s.setFailed v).images = s.images := rfl
@[simp] theorem State.setFailed_net (s : State) (v : Nat) : (s.setFailed v).net = s.net := rfl
@[simp] theorem State.setFailed_routes (s : State) (v : Nat) : (s.setFailed v).routes = s.routes := rfl
@[simp] theorem State.setFailed_engine (s : State) (v : Nat) : (s.setFailed v).engine = s.engine := rfl
@[simp] theorem State.setFailed_ring (s : State) (v : Nat) : (s.setFailed v).ring = s.ring := rfl
@[simp] theorem State.setFailed_bus (s : State) (v : Nat) : (s.setFailed v).bus = s.bus := rfl
@[simp] theorem State.setFailed_cards (s : State) (v : Nat) : (s.setFailed v).cards = s.cards := rfl
@[simp] theorem State.setFailed_fixtures (s : State) (v : Nat) : (s.setFailed v).fixtures = s.fixtures := rfl
@[simp] theorem State.setFailed_loops (s : State) (v : Nat) : (s.setFailed v).loops = s.loops := rfl
@[simp] theorem State.setFailed_latch (s : State) (v : Nat) : (s.setFailed v).latch = s.latch := rfl
@[simp] theorem State.setFailed_records (s : State) (v : Nat) : (s.setFailed v).records = s.records := rfl
@[simp] theorem State.setFailed_muteAck (s : State) (v : Nat) : (s.setFailed v).muteAck = s.muteAck := rfl
@[simp] theorem State.setImages_pending (s : State) (v : Table Curve) : (s.setImages v).pending = s.pending := rfl
@[simp] theorem State.setImages_phase (s : State) (v : Table Curve) : (s.setImages v).phase = s.phase := rfl
@[simp] theorem State.setImages_cause (s : State) (v : Table Curve) : (s.setImages v).cause = s.cause := rfl
@[simp] theorem State.setImages_free (s : State) (v : Table Curve) : (s.setImages v).free = s.free := rfl
@[simp] theorem State.setImages_link (s : State) (v : Table Curve) : (s.setImages v).link = s.link := rfl
@[simp] theorem State.setImages_site (s : State) (v : Table Curve) : (s.setImages v).site = s.site := rfl
@[simp] theorem State.setImages_rate (s : State) (v : Table Curve) : (s.setImages v).rate = s.rate := rfl
@[simp] theorem State.setImages_lock (s : State) (v : Table Curve) : (s.setImages v).lock = s.lock := rfl
@[simp] theorem State.setImages_store (s : State) (v : Table Curve) : (s.setImages v).store = s.store := rfl
@[simp] theorem State.setImages_failed (s : State) (v : Table Curve) : (s.setImages v).failed = s.failed := rfl
@[simp] theorem State.setImages_images (s : State) (v : Table Curve) : (s.setImages v).images = v := rfl
@[simp] theorem State.setImages_net (s : State) (v : Table Curve) : (s.setImages v).net = s.net := rfl
@[simp] theorem State.setImages_routes (s : State) (v : Table Curve) : (s.setImages v).routes = s.routes := rfl
@[simp] theorem State.setImages_engine (s : State) (v : Table Curve) : (s.setImages v).engine = s.engine := rfl
@[simp] theorem State.setImages_ring (s : State) (v : Table Curve) : (s.setImages v).ring = s.ring := rfl
@[simp] theorem State.setImages_bus (s : State) (v : Table Curve) : (s.setImages v).bus = s.bus := rfl
@[simp] theorem State.setImages_cards (s : State) (v : Table Curve) : (s.setImages v).cards = s.cards := rfl
@[simp] theorem State.setImages_fixtures (s : State) (v : Table Curve) : (s.setImages v).fixtures = s.fixtures := rfl
@[simp] theorem State.setImages_loops (s : State) (v : Table Curve) : (s.setImages v).loops = s.loops := rfl
@[simp] theorem State.setImages_latch (s : State) (v : Table Curve) : (s.setImages v).latch = s.latch := rfl
@[simp] theorem State.setImages_records (s : State) (v : Table Curve) : (s.setImages v).records = s.records := rfl
@[simp] theorem State.setImages_muteAck (s : State) (v : Table Curve) : (s.setImages v).muteAck = s.muteAck := rfl
@[simp] theorem State.setNet_pending (s : State) (v : Net) : (s.setNet v).pending = s.pending := rfl
@[simp] theorem State.setNet_phase (s : State) (v : Net) : (s.setNet v).phase = s.phase := rfl
@[simp] theorem State.setNet_cause (s : State) (v : Net) : (s.setNet v).cause = s.cause := rfl
@[simp] theorem State.setNet_free (s : State) (v : Net) : (s.setNet v).free = s.free := rfl
@[simp] theorem State.setNet_link (s : State) (v : Net) : (s.setNet v).link = s.link := rfl
@[simp] theorem State.setNet_site (s : State) (v : Net) : (s.setNet v).site = s.site := rfl
@[simp] theorem State.setNet_rate (s : State) (v : Net) : (s.setNet v).rate = s.rate := rfl
@[simp] theorem State.setNet_lock (s : State) (v : Net) : (s.setNet v).lock = s.lock := rfl
@[simp] theorem State.setNet_store (s : State) (v : Net) : (s.setNet v).store = s.store := rfl
@[simp] theorem State.setNet_failed (s : State) (v : Net) : (s.setNet v).failed = s.failed := rfl
@[simp] theorem State.setNet_images (s : State) (v : Net) : (s.setNet v).images = s.images := rfl
@[simp] theorem State.setNet_net (s : State) (v : Net) : (s.setNet v).net = v := rfl
@[simp] theorem State.setNet_routes (s : State) (v : Net) : (s.setNet v).routes = s.routes := rfl
@[simp] theorem State.setNet_engine (s : State) (v : Net) : (s.setNet v).engine = s.engine := rfl
@[simp] theorem State.setNet_ring (s : State) (v : Net) : (s.setNet v).ring = s.ring := rfl
@[simp] theorem State.setNet_bus (s : State) (v : Net) : (s.setNet v).bus = s.bus := rfl
@[simp] theorem State.setNet_cards (s : State) (v : Net) : (s.setNet v).cards = s.cards := rfl
@[simp] theorem State.setNet_fixtures (s : State) (v : Net) : (s.setNet v).fixtures = s.fixtures := rfl
@[simp] theorem State.setNet_loops (s : State) (v : Net) : (s.setNet v).loops = s.loops := rfl
@[simp] theorem State.setNet_latch (s : State) (v : Net) : (s.setNet v).latch = s.latch := rfl
@[simp] theorem State.setNet_records (s : State) (v : Net) : (s.setNet v).records = s.records := rfl
@[simp] theorem State.setNet_muteAck (s : State) (v : Net) : (s.setNet v).muteAck = s.muteAck := rfl
@[simp] theorem State.setRoutes_pending (s : State) (v : Table Route) : (s.setRoutes v).pending = s.pending := rfl
@[simp] theorem State.setRoutes_phase (s : State) (v : Table Route) : (s.setRoutes v).phase = s.phase := rfl
@[simp] theorem State.setRoutes_cause (s : State) (v : Table Route) : (s.setRoutes v).cause = s.cause := rfl
@[simp] theorem State.setRoutes_free (s : State) (v : Table Route) : (s.setRoutes v).free = s.free := rfl
@[simp] theorem State.setRoutes_link (s : State) (v : Table Route) : (s.setRoutes v).link = s.link := rfl
@[simp] theorem State.setRoutes_site (s : State) (v : Table Route) : (s.setRoutes v).site = s.site := rfl
@[simp] theorem State.setRoutes_rate (s : State) (v : Table Route) : (s.setRoutes v).rate = s.rate := rfl
@[simp] theorem State.setRoutes_lock (s : State) (v : Table Route) : (s.setRoutes v).lock = s.lock := rfl
@[simp] theorem State.setRoutes_store (s : State) (v : Table Route) : (s.setRoutes v).store = s.store := rfl
@[simp] theorem State.setRoutes_failed (s : State) (v : Table Route) : (s.setRoutes v).failed = s.failed := rfl
@[simp] theorem State.setRoutes_images (s : State) (v : Table Route) : (s.setRoutes v).images = s.images := rfl
@[simp] theorem State.setRoutes_net (s : State) (v : Table Route) : (s.setRoutes v).net = s.net := rfl
@[simp] theorem State.setRoutes_routes (s : State) (v : Table Route) : (s.setRoutes v).routes = v := rfl
@[simp] theorem State.setRoutes_engine (s : State) (v : Table Route) : (s.setRoutes v).engine = s.engine := rfl
@[simp] theorem State.setRoutes_ring (s : State) (v : Table Route) : (s.setRoutes v).ring = s.ring := rfl
@[simp] theorem State.setRoutes_bus (s : State) (v : Table Route) : (s.setRoutes v).bus = s.bus := rfl
@[simp] theorem State.setRoutes_cards (s : State) (v : Table Route) : (s.setRoutes v).cards = s.cards := rfl
@[simp] theorem State.setRoutes_fixtures (s : State) (v : Table Route) : (s.setRoutes v).fixtures = s.fixtures := rfl
@[simp] theorem State.setRoutes_loops (s : State) (v : Table Route) : (s.setRoutes v).loops = s.loops := rfl
@[simp] theorem State.setRoutes_latch (s : State) (v : Table Route) : (s.setRoutes v).latch = s.latch := rfl
@[simp] theorem State.setRoutes_records (s : State) (v : Table Route) : (s.setRoutes v).records = s.records := rfl
@[simp] theorem State.setRoutes_muteAck (s : State) (v : Table Route) : (s.setRoutes v).muteAck = s.muteAck := rfl
@[simp] theorem State.setEngine_pending (s : State) (v : Engine) : (s.setEngine v).pending = s.pending := rfl
@[simp] theorem State.setEngine_phase (s : State) (v : Engine) : (s.setEngine v).phase = s.phase := rfl
@[simp] theorem State.setEngine_cause (s : State) (v : Engine) : (s.setEngine v).cause = s.cause := rfl
@[simp] theorem State.setEngine_free (s : State) (v : Engine) : (s.setEngine v).free = s.free := rfl
@[simp] theorem State.setEngine_link (s : State) (v : Engine) : (s.setEngine v).link = s.link := rfl
@[simp] theorem State.setEngine_site (s : State) (v : Engine) : (s.setEngine v).site = s.site := rfl
@[simp] theorem State.setEngine_rate (s : State) (v : Engine) : (s.setEngine v).rate = s.rate := rfl
@[simp] theorem State.setEngine_lock (s : State) (v : Engine) : (s.setEngine v).lock = s.lock := rfl
@[simp] theorem State.setEngine_store (s : State) (v : Engine) : (s.setEngine v).store = s.store := rfl
@[simp] theorem State.setEngine_failed (s : State) (v : Engine) : (s.setEngine v).failed = s.failed := rfl
@[simp] theorem State.setEngine_images (s : State) (v : Engine) : (s.setEngine v).images = s.images := rfl
@[simp] theorem State.setEngine_net (s : State) (v : Engine) : (s.setEngine v).net = s.net := rfl
@[simp] theorem State.setEngine_routes (s : State) (v : Engine) : (s.setEngine v).routes = s.routes := rfl
@[simp] theorem State.setEngine_engine (s : State) (v : Engine) : (s.setEngine v).engine = v := rfl
@[simp] theorem State.setEngine_ring (s : State) (v : Engine) : (s.setEngine v).ring = s.ring := rfl
@[simp] theorem State.setEngine_bus (s : State) (v : Engine) : (s.setEngine v).bus = s.bus := rfl
@[simp] theorem State.setEngine_cards (s : State) (v : Engine) : (s.setEngine v).cards = s.cards := rfl
@[simp] theorem State.setEngine_fixtures (s : State) (v : Engine) : (s.setEngine v).fixtures = s.fixtures := rfl
@[simp] theorem State.setEngine_loops (s : State) (v : Engine) : (s.setEngine v).loops = s.loops := rfl
@[simp] theorem State.setEngine_latch (s : State) (v : Engine) : (s.setEngine v).latch = s.latch := rfl
@[simp] theorem State.setEngine_records (s : State) (v : Engine) : (s.setEngine v).records = s.records := rfl
@[simp] theorem State.setEngine_muteAck (s : State) (v : Engine) : (s.setEngine v).muteAck = s.muteAck := rfl
@[simp] theorem State.setRing_pending (s : State) (v : Ring) : (s.setRing v).pending = s.pending := rfl
@[simp] theorem State.setRing_phase (s : State) (v : Ring) : (s.setRing v).phase = s.phase := rfl
@[simp] theorem State.setRing_cause (s : State) (v : Ring) : (s.setRing v).cause = s.cause := rfl
@[simp] theorem State.setRing_free (s : State) (v : Ring) : (s.setRing v).free = s.free := rfl
@[simp] theorem State.setRing_link (s : State) (v : Ring) : (s.setRing v).link = s.link := rfl
@[simp] theorem State.setRing_site (s : State) (v : Ring) : (s.setRing v).site = s.site := rfl
@[simp] theorem State.setRing_rate (s : State) (v : Ring) : (s.setRing v).rate = s.rate := rfl
@[simp] theorem State.setRing_lock (s : State) (v : Ring) : (s.setRing v).lock = s.lock := rfl
@[simp] theorem State.setRing_store (s : State) (v : Ring) : (s.setRing v).store = s.store := rfl
@[simp] theorem State.setRing_failed (s : State) (v : Ring) : (s.setRing v).failed = s.failed := rfl
@[simp] theorem State.setRing_images (s : State) (v : Ring) : (s.setRing v).images = s.images := rfl
@[simp] theorem State.setRing_net (s : State) (v : Ring) : (s.setRing v).net = s.net := rfl
@[simp] theorem State.setRing_routes (s : State) (v : Ring) : (s.setRing v).routes = s.routes := rfl
@[simp] theorem State.setRing_engine (s : State) (v : Ring) : (s.setRing v).engine = s.engine := rfl
@[simp] theorem State.setRing_ring (s : State) (v : Ring) : (s.setRing v).ring = v := rfl
@[simp] theorem State.setRing_bus (s : State) (v : Ring) : (s.setRing v).bus = s.bus := rfl
@[simp] theorem State.setRing_cards (s : State) (v : Ring) : (s.setRing v).cards = s.cards := rfl
@[simp] theorem State.setRing_fixtures (s : State) (v : Ring) : (s.setRing v).fixtures = s.fixtures := rfl
@[simp] theorem State.setRing_loops (s : State) (v : Ring) : (s.setRing v).loops = s.loops := rfl
@[simp] theorem State.setRing_latch (s : State) (v : Ring) : (s.setRing v).latch = s.latch := rfl
@[simp] theorem State.setRing_records (s : State) (v : Ring) : (s.setRing v).records = s.records := rfl
@[simp] theorem State.setRing_muteAck (s : State) (v : Ring) : (s.setRing v).muteAck = s.muteAck := rfl
@[simp] theorem State.setBus_pending (s : State) (v : Bus) : (s.setBus v).pending = s.pending := rfl
@[simp] theorem State.setBus_phase (s : State) (v : Bus) : (s.setBus v).phase = s.phase := rfl
@[simp] theorem State.setBus_cause (s : State) (v : Bus) : (s.setBus v).cause = s.cause := rfl
@[simp] theorem State.setBus_free (s : State) (v : Bus) : (s.setBus v).free = s.free := rfl
@[simp] theorem State.setBus_link (s : State) (v : Bus) : (s.setBus v).link = s.link := rfl
@[simp] theorem State.setBus_site (s : State) (v : Bus) : (s.setBus v).site = s.site := rfl
@[simp] theorem State.setBus_rate (s : State) (v : Bus) : (s.setBus v).rate = s.rate := rfl
@[simp] theorem State.setBus_lock (s : State) (v : Bus) : (s.setBus v).lock = s.lock := rfl
@[simp] theorem State.setBus_store (s : State) (v : Bus) : (s.setBus v).store = s.store := rfl
@[simp] theorem State.setBus_failed (s : State) (v : Bus) : (s.setBus v).failed = s.failed := rfl
@[simp] theorem State.setBus_images (s : State) (v : Bus) : (s.setBus v).images = s.images := rfl
@[simp] theorem State.setBus_net (s : State) (v : Bus) : (s.setBus v).net = s.net := rfl
@[simp] theorem State.setBus_routes (s : State) (v : Bus) : (s.setBus v).routes = s.routes := rfl
@[simp] theorem State.setBus_engine (s : State) (v : Bus) : (s.setBus v).engine = s.engine := rfl
@[simp] theorem State.setBus_ring (s : State) (v : Bus) : (s.setBus v).ring = s.ring := rfl
@[simp] theorem State.setBus_bus (s : State) (v : Bus) : (s.setBus v).bus = v := rfl
@[simp] theorem State.setBus_cards (s : State) (v : Bus) : (s.setBus v).cards = s.cards := rfl
@[simp] theorem State.setBus_fixtures (s : State) (v : Bus) : (s.setBus v).fixtures = s.fixtures := rfl
@[simp] theorem State.setBus_loops (s : State) (v : Bus) : (s.setBus v).loops = s.loops := rfl
@[simp] theorem State.setBus_latch (s : State) (v : Bus) : (s.setBus v).latch = s.latch := rfl
@[simp] theorem State.setBus_records (s : State) (v : Bus) : (s.setBus v).records = s.records := rfl
@[simp] theorem State.setBus_muteAck (s : State) (v : Bus) : (s.setBus v).muteAck = s.muteAck := rfl
@[simp] theorem State.setCards_pending (s : State) (v : Table Card) : (s.setCards v).pending = s.pending := rfl
@[simp] theorem State.setCards_phase (s : State) (v : Table Card) : (s.setCards v).phase = s.phase := rfl
@[simp] theorem State.setCards_cause (s : State) (v : Table Card) : (s.setCards v).cause = s.cause := rfl
@[simp] theorem State.setCards_free (s : State) (v : Table Card) : (s.setCards v).free = s.free := rfl
@[simp] theorem State.setCards_link (s : State) (v : Table Card) : (s.setCards v).link = s.link := rfl
@[simp] theorem State.setCards_site (s : State) (v : Table Card) : (s.setCards v).site = s.site := rfl
@[simp] theorem State.setCards_rate (s : State) (v : Table Card) : (s.setCards v).rate = s.rate := rfl
@[simp] theorem State.setCards_lock (s : State) (v : Table Card) : (s.setCards v).lock = s.lock := rfl
@[simp] theorem State.setCards_store (s : State) (v : Table Card) : (s.setCards v).store = s.store := rfl
@[simp] theorem State.setCards_failed (s : State) (v : Table Card) : (s.setCards v).failed = s.failed := rfl
@[simp] theorem State.setCards_images (s : State) (v : Table Card) : (s.setCards v).images = s.images := rfl
@[simp] theorem State.setCards_net (s : State) (v : Table Card) : (s.setCards v).net = s.net := rfl
@[simp] theorem State.setCards_routes (s : State) (v : Table Card) : (s.setCards v).routes = s.routes := rfl
@[simp] theorem State.setCards_engine (s : State) (v : Table Card) : (s.setCards v).engine = s.engine := rfl
@[simp] theorem State.setCards_ring (s : State) (v : Table Card) : (s.setCards v).ring = s.ring := rfl
@[simp] theorem State.setCards_bus (s : State) (v : Table Card) : (s.setCards v).bus = s.bus := rfl
@[simp] theorem State.setCards_cards (s : State) (v : Table Card) : (s.setCards v).cards = v := rfl
@[simp] theorem State.setCards_fixtures (s : State) (v : Table Card) : (s.setCards v).fixtures = s.fixtures := rfl
@[simp] theorem State.setCards_loops (s : State) (v : Table Card) : (s.setCards v).loops = s.loops := rfl
@[simp] theorem State.setCards_latch (s : State) (v : Table Card) : (s.setCards v).latch = s.latch := rfl
@[simp] theorem State.setCards_records (s : State) (v : Table Card) : (s.setCards v).records = s.records := rfl
@[simp] theorem State.setCards_muteAck (s : State) (v : Table Card) : (s.setCards v).muteAck = s.muteAck := rfl
@[simp] theorem State.setFixtures_pending (s : State) (v : Table Fixture) : (s.setFixtures v).pending = s.pending := rfl
@[simp] theorem State.setFixtures_phase (s : State) (v : Table Fixture) : (s.setFixtures v).phase = s.phase := rfl
@[simp] theorem State.setFixtures_cause (s : State) (v : Table Fixture) : (s.setFixtures v).cause = s.cause := rfl
@[simp] theorem State.setFixtures_free (s : State) (v : Table Fixture) : (s.setFixtures v).free = s.free := rfl
@[simp] theorem State.setFixtures_link (s : State) (v : Table Fixture) : (s.setFixtures v).link = s.link := rfl
@[simp] theorem State.setFixtures_site (s : State) (v : Table Fixture) : (s.setFixtures v).site = s.site := rfl
@[simp] theorem State.setFixtures_rate (s : State) (v : Table Fixture) : (s.setFixtures v).rate = s.rate := rfl
@[simp] theorem State.setFixtures_lock (s : State) (v : Table Fixture) : (s.setFixtures v).lock = s.lock := rfl
@[simp] theorem State.setFixtures_store (s : State) (v : Table Fixture) : (s.setFixtures v).store = s.store := rfl
@[simp] theorem State.setFixtures_failed (s : State) (v : Table Fixture) : (s.setFixtures v).failed = s.failed := rfl
@[simp] theorem State.setFixtures_images (s : State) (v : Table Fixture) : (s.setFixtures v).images = s.images := rfl
@[simp] theorem State.setFixtures_net (s : State) (v : Table Fixture) : (s.setFixtures v).net = s.net := rfl
@[simp] theorem State.setFixtures_routes (s : State) (v : Table Fixture) : (s.setFixtures v).routes = s.routes := rfl
@[simp] theorem State.setFixtures_engine (s : State) (v : Table Fixture) : (s.setFixtures v).engine = s.engine := rfl
@[simp] theorem State.setFixtures_ring (s : State) (v : Table Fixture) : (s.setFixtures v).ring = s.ring := rfl
@[simp] theorem State.setFixtures_bus (s : State) (v : Table Fixture) : (s.setFixtures v).bus = s.bus := rfl
@[simp] theorem State.setFixtures_cards (s : State) (v : Table Fixture) : (s.setFixtures v).cards = s.cards := rfl
@[simp] theorem State.setFixtures_fixtures (s : State) (v : Table Fixture) : (s.setFixtures v).fixtures = v := rfl
@[simp] theorem State.setFixtures_loops (s : State) (v : Table Fixture) : (s.setFixtures v).loops = s.loops := rfl
@[simp] theorem State.setFixtures_latch (s : State) (v : Table Fixture) : (s.setFixtures v).latch = s.latch := rfl
@[simp] theorem State.setFixtures_records (s : State) (v : Table Fixture) : (s.setFixtures v).records = s.records := rfl
@[simp] theorem State.setFixtures_muteAck (s : State) (v : Table Fixture) : (s.setFixtures v).muteAck = s.muteAck := rfl
@[simp] theorem State.setLoops_pending (s : State) (v : Table Loop) : (s.setLoops v).pending = s.pending := rfl
@[simp] theorem State.setLoops_phase (s : State) (v : Table Loop) : (s.setLoops v).phase = s.phase := rfl
@[simp] theorem State.setLoops_cause (s : State) (v : Table Loop) : (s.setLoops v).cause = s.cause := rfl
@[simp] theorem State.setLoops_free (s : State) (v : Table Loop) : (s.setLoops v).free = s.free := rfl
@[simp] theorem State.setLoops_link (s : State) (v : Table Loop) : (s.setLoops v).link = s.link := rfl
@[simp] theorem State.setLoops_site (s : State) (v : Table Loop) : (s.setLoops v).site = s.site := rfl
@[simp] theorem State.setLoops_rate (s : State) (v : Table Loop) : (s.setLoops v).rate = s.rate := rfl
@[simp] theorem State.setLoops_lock (s : State) (v : Table Loop) : (s.setLoops v).lock = s.lock := rfl
@[simp] theorem State.setLoops_store (s : State) (v : Table Loop) : (s.setLoops v).store = s.store := rfl
@[simp] theorem State.setLoops_failed (s : State) (v : Table Loop) : (s.setLoops v).failed = s.failed := rfl
@[simp] theorem State.setLoops_images (s : State) (v : Table Loop) : (s.setLoops v).images = s.images := rfl
@[simp] theorem State.setLoops_net (s : State) (v : Table Loop) : (s.setLoops v).net = s.net := rfl
@[simp] theorem State.setLoops_routes (s : State) (v : Table Loop) : (s.setLoops v).routes = s.routes := rfl
@[simp] theorem State.setLoops_engine (s : State) (v : Table Loop) : (s.setLoops v).engine = s.engine := rfl
@[simp] theorem State.setLoops_ring (s : State) (v : Table Loop) : (s.setLoops v).ring = s.ring := rfl
@[simp] theorem State.setLoops_bus (s : State) (v : Table Loop) : (s.setLoops v).bus = s.bus := rfl
@[simp] theorem State.setLoops_cards (s : State) (v : Table Loop) : (s.setLoops v).cards = s.cards := rfl
@[simp] theorem State.setLoops_fixtures (s : State) (v : Table Loop) : (s.setLoops v).fixtures = s.fixtures := rfl
@[simp] theorem State.setLoops_loops (s : State) (v : Table Loop) : (s.setLoops v).loops = v := rfl
@[simp] theorem State.setLoops_latch (s : State) (v : Table Loop) : (s.setLoops v).latch = s.latch := rfl
@[simp] theorem State.setLoops_records (s : State) (v : Table Loop) : (s.setLoops v).records = s.records := rfl
@[simp] theorem State.setLoops_muteAck (s : State) (v : Table Loop) : (s.setLoops v).muteAck = s.muteAck := rfl
@[simp] theorem State.setLatch_pending (s : State) (v : Bool) : (s.setLatch v).pending = s.pending := rfl
@[simp] theorem State.setLatch_phase (s : State) (v : Bool) : (s.setLatch v).phase = s.phase := rfl
@[simp] theorem State.setLatch_cause (s : State) (v : Bool) : (s.setLatch v).cause = s.cause := rfl
@[simp] theorem State.setLatch_free (s : State) (v : Bool) : (s.setLatch v).free = s.free := rfl
@[simp] theorem State.setLatch_link (s : State) (v : Bool) : (s.setLatch v).link = s.link := rfl
@[simp] theorem State.setLatch_site (s : State) (v : Bool) : (s.setLatch v).site = s.site := rfl
@[simp] theorem State.setLatch_rate (s : State) (v : Bool) : (s.setLatch v).rate = s.rate := rfl
@[simp] theorem State.setLatch_lock (s : State) (v : Bool) : (s.setLatch v).lock = s.lock := rfl
@[simp] theorem State.setLatch_store (s : State) (v : Bool) : (s.setLatch v).store = s.store := rfl
@[simp] theorem State.setLatch_failed (s : State) (v : Bool) : (s.setLatch v).failed = s.failed := rfl
@[simp] theorem State.setLatch_images (s : State) (v : Bool) : (s.setLatch v).images = s.images := rfl
@[simp] theorem State.setLatch_net (s : State) (v : Bool) : (s.setLatch v).net = s.net := rfl
@[simp] theorem State.setLatch_routes (s : State) (v : Bool) : (s.setLatch v).routes = s.routes := rfl
@[simp] theorem State.setLatch_engine (s : State) (v : Bool) : (s.setLatch v).engine = s.engine := rfl
@[simp] theorem State.setLatch_ring (s : State) (v : Bool) : (s.setLatch v).ring = s.ring := rfl
@[simp] theorem State.setLatch_bus (s : State) (v : Bool) : (s.setLatch v).bus = s.bus := rfl
@[simp] theorem State.setLatch_cards (s : State) (v : Bool) : (s.setLatch v).cards = s.cards := rfl
@[simp] theorem State.setLatch_fixtures (s : State) (v : Bool) : (s.setLatch v).fixtures = s.fixtures := rfl
@[simp] theorem State.setLatch_loops (s : State) (v : Bool) : (s.setLatch v).loops = s.loops := rfl
@[simp] theorem State.setLatch_latch (s : State) (v : Bool) : (s.setLatch v).latch = v := rfl
@[simp] theorem State.setLatch_records (s : State) (v : Bool) : (s.setLatch v).records = s.records := rfl
@[simp] theorem State.setLatch_muteAck (s : State) (v : Bool) : (s.setLatch v).muteAck = s.muteAck := rfl
@[simp] theorem State.setRecords_pending (s : State) (v : Records) : (s.setRecords v).pending = s.pending := rfl
@[simp] theorem State.setRecords_phase (s : State) (v : Records) : (s.setRecords v).phase = s.phase := rfl
@[simp] theorem State.setRecords_cause (s : State) (v : Records) : (s.setRecords v).cause = s.cause := rfl
@[simp] theorem State.setRecords_free (s : State) (v : Records) : (s.setRecords v).free = s.free := rfl
@[simp] theorem State.setRecords_link (s : State) (v : Records) : (s.setRecords v).link = s.link := rfl
@[simp] theorem State.setRecords_site (s : State) (v : Records) : (s.setRecords v).site = s.site := rfl
@[simp] theorem State.setRecords_rate (s : State) (v : Records) : (s.setRecords v).rate = s.rate := rfl
@[simp] theorem State.setRecords_lock (s : State) (v : Records) : (s.setRecords v).lock = s.lock := rfl
@[simp] theorem State.setRecords_store (s : State) (v : Records) : (s.setRecords v).store = s.store := rfl
@[simp] theorem State.setRecords_failed (s : State) (v : Records) : (s.setRecords v).failed = s.failed := rfl
@[simp] theorem State.setRecords_images (s : State) (v : Records) : (s.setRecords v).images = s.images := rfl
@[simp] theorem State.setRecords_net (s : State) (v : Records) : (s.setRecords v).net = s.net := rfl
@[simp] theorem State.setRecords_routes (s : State) (v : Records) : (s.setRecords v).routes = s.routes := rfl
@[simp] theorem State.setRecords_engine (s : State) (v : Records) : (s.setRecords v).engine = s.engine := rfl
@[simp] theorem State.setRecords_ring (s : State) (v : Records) : (s.setRecords v).ring = s.ring := rfl
@[simp] theorem State.setRecords_bus (s : State) (v : Records) : (s.setRecords v).bus = s.bus := rfl
@[simp] theorem State.setRecords_cards (s : State) (v : Records) : (s.setRecords v).cards = s.cards := rfl
@[simp] theorem State.setRecords_fixtures (s : State) (v : Records) : (s.setRecords v).fixtures = s.fixtures := rfl
@[simp] theorem State.setRecords_loops (s : State) (v : Records) : (s.setRecords v).loops = s.loops := rfl
@[simp] theorem State.setRecords_latch (s : State) (v : Records) : (s.setRecords v).latch = s.latch := rfl
@[simp] theorem State.setRecords_records (s : State) (v : Records) : (s.setRecords v).records = v := rfl
@[simp] theorem State.setRecords_muteAck (s : State) (v : Records) : (s.setRecords v).muteAck = s.muteAck := rfl
@[simp] theorem State.setMuteAck_pending (s : State) (v : Bool) : (s.setMuteAck v).pending = s.pending := rfl
@[simp] theorem State.setMuteAck_phase (s : State) (v : Bool) : (s.setMuteAck v).phase = s.phase := rfl
@[simp] theorem State.setMuteAck_cause (s : State) (v : Bool) : (s.setMuteAck v).cause = s.cause := rfl
@[simp] theorem State.setMuteAck_free (s : State) (v : Bool) : (s.setMuteAck v).free = s.free := rfl
@[simp] theorem State.setMuteAck_link (s : State) (v : Bool) : (s.setMuteAck v).link = s.link := rfl
@[simp] theorem State.setMuteAck_site (s : State) (v : Bool) : (s.setMuteAck v).site = s.site := rfl
@[simp] theorem State.setMuteAck_rate (s : State) (v : Bool) : (s.setMuteAck v).rate = s.rate := rfl
@[simp] theorem State.setMuteAck_lock (s : State) (v : Bool) : (s.setMuteAck v).lock = s.lock := rfl
@[simp] theorem State.setMuteAck_store (s : State) (v : Bool) : (s.setMuteAck v).store = s.store := rfl
@[simp] theorem State.setMuteAck_failed (s : State) (v : Bool) : (s.setMuteAck v).failed = s.failed := rfl
@[simp] theorem State.setMuteAck_images (s : State) (v : Bool) : (s.setMuteAck v).images = s.images := rfl
@[simp] theorem State.setMuteAck_net (s : State) (v : Bool) : (s.setMuteAck v).net = s.net := rfl
@[simp] theorem State.setMuteAck_routes (s : State) (v : Bool) : (s.setMuteAck v).routes = s.routes := rfl
@[simp] theorem State.setMuteAck_engine (s : State) (v : Bool) : (s.setMuteAck v).engine = s.engine := rfl
@[simp] theorem State.setMuteAck_ring (s : State) (v : Bool) : (s.setMuteAck v).ring = s.ring := rfl
@[simp] theorem State.setMuteAck_bus (s : State) (v : Bool) : (s.setMuteAck v).bus = s.bus := rfl
@[simp] theorem State.setMuteAck_cards (s : State) (v : Bool) : (s.setMuteAck v).cards = s.cards := rfl
@[simp] theorem State.setMuteAck_fixtures (s : State) (v : Bool) : (s.setMuteAck v).fixtures = s.fixtures := rfl
@[simp] theorem State.setMuteAck_loops (s : State) (v : Bool) : (s.setMuteAck v).loops = s.loops := rfl
@[simp] theorem State.setMuteAck_latch (s : State) (v : Bool) : (s.setMuteAck v).latch = s.latch := rfl
@[simp] theorem State.setMuteAck_records (s : State) (v : Bool) : (s.setMuteAck v).records = s.records := rfl
@[simp] theorem State.setMuteAck_muteAck (s : State) (v : Bool) : (s.setMuteAck v).muteAck = v := rfl

/-! ### Setters together: the last write of a field stands, writing what is there changes nothing, and setters of
different fields come into one order. -/

@[simp] theorem State.setPending_setPending (s : State) (v w : List Instr) : (s.setPending v).setPending w = s.setPending w := rfl
@[simp] theorem State.setPending_self (s : State) : s.setPending s.pending = s := rfl
@[simp] theorem State.setPhase_setPhase (s : State) (v w : Phase) : (s.setPhase v).setPhase w = s.setPhase w := rfl
@[simp] theorem State.setPhase_self (s : State) : s.setPhase s.phase = s := rfl
@[simp] theorem State.setCause_setCause (s : State) (v w : ResetCause) : (s.setCause v).setCause w = s.setCause w := rfl
@[simp] theorem State.setCause_self (s : State) : s.setCause s.cause = s := rfl
@[simp] theorem State.setFree_setFree (s : State) (v w : Nat) : (s.setFree v).setFree w = s.setFree w := rfl
@[simp] theorem State.setFree_self (s : State) : s.setFree s.free = s := rfl
@[simp] theorem State.setLink_setLink (s : State) (v w : Link) : (s.setLink v).setLink w = s.setLink w := rfl
@[simp] theorem State.setLink_self (s : State) : s.setLink s.link = s := rfl
@[simp] theorem State.setSite_setSite (s : State) (v w : Site) : (s.setSite v).setSite w = s.setSite w := rfl
@[simp] theorem State.setSite_self (s : State) : s.setSite s.site = s := rfl
@[simp] theorem State.setRate_setRate (s : State) (v w : Nat) : (s.setRate v).setRate w = s.setRate w := rfl
@[simp] theorem State.setRate_self (s : State) : s.setRate s.rate = s := rfl
@[simp] theorem State.setLock_setLock (s : State) (v w : Bool) : (s.setLock v).setLock w = s.setLock w := rfl
@[simp] theorem State.setLock_self (s : State) : s.setLock s.lock = s := rfl
@[simp] theorem State.setStore_setStore (s : State) (v w : Store) : (s.setStore v).setStore w = s.setStore w := rfl
@[simp] theorem State.setStore_self (s : State) : s.setStore s.store = s := rfl
@[simp] theorem State.setFailed_setFailed (s : State) (v w : Nat) : (s.setFailed v).setFailed w = s.setFailed w := rfl
@[simp] theorem State.setFailed_self (s : State) : s.setFailed s.failed = s := rfl
@[simp] theorem State.setImages_setImages (s : State) (v w : Table Curve) : (s.setImages v).setImages w = s.setImages w := rfl
@[simp] theorem State.setImages_self (s : State) : s.setImages s.images = s := rfl
@[simp] theorem State.setNet_setNet (s : State) (v w : Net) : (s.setNet v).setNet w = s.setNet w := rfl
@[simp] theorem State.setNet_self (s : State) : s.setNet s.net = s := rfl
@[simp] theorem State.setRoutes_setRoutes (s : State) (v w : Table Route) : (s.setRoutes v).setRoutes w = s.setRoutes w := rfl
@[simp] theorem State.setRoutes_self (s : State) : s.setRoutes s.routes = s := rfl
@[simp] theorem State.setEngine_setEngine (s : State) (v w : Engine) : (s.setEngine v).setEngine w = s.setEngine w := rfl
@[simp] theorem State.setEngine_self (s : State) : s.setEngine s.engine = s := rfl
@[simp] theorem State.setRing_setRing (s : State) (v w : Ring) : (s.setRing v).setRing w = s.setRing w := rfl
@[simp] theorem State.setRing_self (s : State) : s.setRing s.ring = s := rfl
@[simp] theorem State.setBus_setBus (s : State) (v w : Bus) : (s.setBus v).setBus w = s.setBus w := rfl
@[simp] theorem State.setBus_self (s : State) : s.setBus s.bus = s := rfl
@[simp] theorem State.setCards_setCards (s : State) (v w : Table Card) : (s.setCards v).setCards w = s.setCards w := rfl
@[simp] theorem State.setCards_self (s : State) : s.setCards s.cards = s := rfl
@[simp] theorem State.setFixtures_setFixtures (s : State) (v w : Table Fixture) : (s.setFixtures v).setFixtures w = s.setFixtures w := rfl
@[simp] theorem State.setFixtures_self (s : State) : s.setFixtures s.fixtures = s := rfl
@[simp] theorem State.setLoops_setLoops (s : State) (v w : Table Loop) : (s.setLoops v).setLoops w = s.setLoops w := rfl
@[simp] theorem State.setLoops_self (s : State) : s.setLoops s.loops = s := rfl
@[simp] theorem State.setLatch_setLatch (s : State) (v w : Bool) : (s.setLatch v).setLatch w = s.setLatch w := rfl
@[simp] theorem State.setLatch_self (s : State) : s.setLatch s.latch = s := rfl
@[simp] theorem State.setRecords_setRecords (s : State) (v w : Records) : (s.setRecords v).setRecords w = s.setRecords w := rfl
@[simp] theorem State.setRecords_self (s : State) : s.setRecords s.records = s := rfl
@[simp] theorem State.setMuteAck_setMuteAck (s : State) (v w : Bool) : (s.setMuteAck v).setMuteAck w = s.setMuteAck w := rfl
@[simp] theorem State.setMuteAck_self (s : State) : s.setMuteAck s.muteAck = s := rfl
@[simp] theorem State.setPhase_setPending (s : State) (v : List Instr) (w : Phase) :
    (s.setPhase w).setPending v = (s.setPending v).setPhase w := rfl
@[simp] theorem State.setCause_setPending (s : State) (v : List Instr) (w : ResetCause) :
    (s.setCause w).setPending v = (s.setPending v).setCause w := rfl
@[simp] theorem State.setFree_setPending (s : State) (v : List Instr) (w : Nat) :
    (s.setFree w).setPending v = (s.setPending v).setFree w := rfl
@[simp] theorem State.setLink_setPending (s : State) (v : List Instr) (w : Link) :
    (s.setLink w).setPending v = (s.setPending v).setLink w := rfl
@[simp] theorem State.setSite_setPending (s : State) (v : List Instr) (w : Site) :
    (s.setSite w).setPending v = (s.setPending v).setSite w := rfl
@[simp] theorem State.setRate_setPending (s : State) (v : List Instr) (w : Nat) :
    (s.setRate w).setPending v = (s.setPending v).setRate w := rfl
@[simp] theorem State.setLock_setPending (s : State) (v : List Instr) (w : Bool) :
    (s.setLock w).setPending v = (s.setPending v).setLock w := rfl
@[simp] theorem State.setStore_setPending (s : State) (v : List Instr) (w : Store) :
    (s.setStore w).setPending v = (s.setPending v).setStore w := rfl
@[simp] theorem State.setFailed_setPending (s : State) (v : List Instr) (w : Nat) :
    (s.setFailed w).setPending v = (s.setPending v).setFailed w := rfl
@[simp] theorem State.setImages_setPending (s : State) (v : List Instr) (w : Table Curve) :
    (s.setImages w).setPending v = (s.setPending v).setImages w := rfl
@[simp] theorem State.setNet_setPending (s : State) (v : List Instr) (w : Net) :
    (s.setNet w).setPending v = (s.setPending v).setNet w := rfl
@[simp] theorem State.setRoutes_setPending (s : State) (v : List Instr) (w : Table Route) :
    (s.setRoutes w).setPending v = (s.setPending v).setRoutes w := rfl
@[simp] theorem State.setEngine_setPending (s : State) (v : List Instr) (w : Engine) :
    (s.setEngine w).setPending v = (s.setPending v).setEngine w := rfl
@[simp] theorem State.setRing_setPending (s : State) (v : List Instr) (w : Ring) :
    (s.setRing w).setPending v = (s.setPending v).setRing w := rfl
@[simp] theorem State.setBus_setPending (s : State) (v : List Instr) (w : Bus) :
    (s.setBus w).setPending v = (s.setPending v).setBus w := rfl
@[simp] theorem State.setCards_setPending (s : State) (v : List Instr) (w : Table Card) :
    (s.setCards w).setPending v = (s.setPending v).setCards w := rfl
@[simp] theorem State.setFixtures_setPending (s : State) (v : List Instr) (w : Table Fixture) :
    (s.setFixtures w).setPending v = (s.setPending v).setFixtures w := rfl
@[simp] theorem State.setLoops_setPending (s : State) (v : List Instr) (w : Table Loop) :
    (s.setLoops w).setPending v = (s.setPending v).setLoops w := rfl
@[simp] theorem State.setLatch_setPending (s : State) (v : List Instr) (w : Bool) :
    (s.setLatch w).setPending v = (s.setPending v).setLatch w := rfl
@[simp] theorem State.setRecords_setPending (s : State) (v : List Instr) (w : Records) :
    (s.setRecords w).setPending v = (s.setPending v).setRecords w := rfl
@[simp] theorem State.setMuteAck_setPending (s : State) (v : List Instr) (w : Bool) :
    (s.setMuteAck w).setPending v = (s.setPending v).setMuteAck w := rfl
@[simp] theorem State.setCause_setPhase (s : State) (v : Phase) (w : ResetCause) :
    (s.setCause w).setPhase v = (s.setPhase v).setCause w := rfl
@[simp] theorem State.setFree_setPhase (s : State) (v : Phase) (w : Nat) :
    (s.setFree w).setPhase v = (s.setPhase v).setFree w := rfl
@[simp] theorem State.setLink_setPhase (s : State) (v : Phase) (w : Link) :
    (s.setLink w).setPhase v = (s.setPhase v).setLink w := rfl
@[simp] theorem State.setSite_setPhase (s : State) (v : Phase) (w : Site) :
    (s.setSite w).setPhase v = (s.setPhase v).setSite w := rfl
@[simp] theorem State.setRate_setPhase (s : State) (v : Phase) (w : Nat) :
    (s.setRate w).setPhase v = (s.setPhase v).setRate w := rfl
@[simp] theorem State.setLock_setPhase (s : State) (v : Phase) (w : Bool) :
    (s.setLock w).setPhase v = (s.setPhase v).setLock w := rfl
@[simp] theorem State.setStore_setPhase (s : State) (v : Phase) (w : Store) :
    (s.setStore w).setPhase v = (s.setPhase v).setStore w := rfl
@[simp] theorem State.setFailed_setPhase (s : State) (v : Phase) (w : Nat) :
    (s.setFailed w).setPhase v = (s.setPhase v).setFailed w := rfl
@[simp] theorem State.setImages_setPhase (s : State) (v : Phase) (w : Table Curve) :
    (s.setImages w).setPhase v = (s.setPhase v).setImages w := rfl
@[simp] theorem State.setNet_setPhase (s : State) (v : Phase) (w : Net) :
    (s.setNet w).setPhase v = (s.setPhase v).setNet w := rfl
@[simp] theorem State.setRoutes_setPhase (s : State) (v : Phase) (w : Table Route) :
    (s.setRoutes w).setPhase v = (s.setPhase v).setRoutes w := rfl
@[simp] theorem State.setEngine_setPhase (s : State) (v : Phase) (w : Engine) :
    (s.setEngine w).setPhase v = (s.setPhase v).setEngine w := rfl
@[simp] theorem State.setRing_setPhase (s : State) (v : Phase) (w : Ring) :
    (s.setRing w).setPhase v = (s.setPhase v).setRing w := rfl
@[simp] theorem State.setBus_setPhase (s : State) (v : Phase) (w : Bus) :
    (s.setBus w).setPhase v = (s.setPhase v).setBus w := rfl
@[simp] theorem State.setCards_setPhase (s : State) (v : Phase) (w : Table Card) :
    (s.setCards w).setPhase v = (s.setPhase v).setCards w := rfl
@[simp] theorem State.setFixtures_setPhase (s : State) (v : Phase) (w : Table Fixture) :
    (s.setFixtures w).setPhase v = (s.setPhase v).setFixtures w := rfl
@[simp] theorem State.setLoops_setPhase (s : State) (v : Phase) (w : Table Loop) :
    (s.setLoops w).setPhase v = (s.setPhase v).setLoops w := rfl
@[simp] theorem State.setLatch_setPhase (s : State) (v : Phase) (w : Bool) :
    (s.setLatch w).setPhase v = (s.setPhase v).setLatch w := rfl
@[simp] theorem State.setRecords_setPhase (s : State) (v : Phase) (w : Records) :
    (s.setRecords w).setPhase v = (s.setPhase v).setRecords w := rfl
@[simp] theorem State.setMuteAck_setPhase (s : State) (v : Phase) (w : Bool) :
    (s.setMuteAck w).setPhase v = (s.setPhase v).setMuteAck w := rfl
@[simp] theorem State.setFree_setCause (s : State) (v : ResetCause) (w : Nat) :
    (s.setFree w).setCause v = (s.setCause v).setFree w := rfl
@[simp] theorem State.setLink_setCause (s : State) (v : ResetCause) (w : Link) :
    (s.setLink w).setCause v = (s.setCause v).setLink w := rfl
@[simp] theorem State.setSite_setCause (s : State) (v : ResetCause) (w : Site) :
    (s.setSite w).setCause v = (s.setCause v).setSite w := rfl
@[simp] theorem State.setRate_setCause (s : State) (v : ResetCause) (w : Nat) :
    (s.setRate w).setCause v = (s.setCause v).setRate w := rfl
@[simp] theorem State.setLock_setCause (s : State) (v : ResetCause) (w : Bool) :
    (s.setLock w).setCause v = (s.setCause v).setLock w := rfl
@[simp] theorem State.setStore_setCause (s : State) (v : ResetCause) (w : Store) :
    (s.setStore w).setCause v = (s.setCause v).setStore w := rfl
@[simp] theorem State.setFailed_setCause (s : State) (v : ResetCause) (w : Nat) :
    (s.setFailed w).setCause v = (s.setCause v).setFailed w := rfl
@[simp] theorem State.setImages_setCause (s : State) (v : ResetCause) (w : Table Curve) :
    (s.setImages w).setCause v = (s.setCause v).setImages w := rfl
@[simp] theorem State.setNet_setCause (s : State) (v : ResetCause) (w : Net) :
    (s.setNet w).setCause v = (s.setCause v).setNet w := rfl
@[simp] theorem State.setRoutes_setCause (s : State) (v : ResetCause) (w : Table Route) :
    (s.setRoutes w).setCause v = (s.setCause v).setRoutes w := rfl
@[simp] theorem State.setEngine_setCause (s : State) (v : ResetCause) (w : Engine) :
    (s.setEngine w).setCause v = (s.setCause v).setEngine w := rfl
@[simp] theorem State.setRing_setCause (s : State) (v : ResetCause) (w : Ring) :
    (s.setRing w).setCause v = (s.setCause v).setRing w := rfl
@[simp] theorem State.setBus_setCause (s : State) (v : ResetCause) (w : Bus) :
    (s.setBus w).setCause v = (s.setCause v).setBus w := rfl
@[simp] theorem State.setCards_setCause (s : State) (v : ResetCause) (w : Table Card) :
    (s.setCards w).setCause v = (s.setCause v).setCards w := rfl
@[simp] theorem State.setFixtures_setCause (s : State) (v : ResetCause) (w : Table Fixture) :
    (s.setFixtures w).setCause v = (s.setCause v).setFixtures w := rfl
@[simp] theorem State.setLoops_setCause (s : State) (v : ResetCause) (w : Table Loop) :
    (s.setLoops w).setCause v = (s.setCause v).setLoops w := rfl
@[simp] theorem State.setLatch_setCause (s : State) (v : ResetCause) (w : Bool) :
    (s.setLatch w).setCause v = (s.setCause v).setLatch w := rfl
@[simp] theorem State.setRecords_setCause (s : State) (v : ResetCause) (w : Records) :
    (s.setRecords w).setCause v = (s.setCause v).setRecords w := rfl
@[simp] theorem State.setMuteAck_setCause (s : State) (v : ResetCause) (w : Bool) :
    (s.setMuteAck w).setCause v = (s.setCause v).setMuteAck w := rfl
@[simp] theorem State.setLink_setFree (s : State) (v : Nat) (w : Link) :
    (s.setLink w).setFree v = (s.setFree v).setLink w := rfl
@[simp] theorem State.setSite_setFree (s : State) (v : Nat) (w : Site) :
    (s.setSite w).setFree v = (s.setFree v).setSite w := rfl
@[simp] theorem State.setRate_setFree (s : State) (v : Nat) (w : Nat) :
    (s.setRate w).setFree v = (s.setFree v).setRate w := rfl
@[simp] theorem State.setLock_setFree (s : State) (v : Nat) (w : Bool) :
    (s.setLock w).setFree v = (s.setFree v).setLock w := rfl
@[simp] theorem State.setStore_setFree (s : State) (v : Nat) (w : Store) :
    (s.setStore w).setFree v = (s.setFree v).setStore w := rfl
@[simp] theorem State.setFailed_setFree (s : State) (v : Nat) (w : Nat) :
    (s.setFailed w).setFree v = (s.setFree v).setFailed w := rfl
@[simp] theorem State.setImages_setFree (s : State) (v : Nat) (w : Table Curve) :
    (s.setImages w).setFree v = (s.setFree v).setImages w := rfl
@[simp] theorem State.setNet_setFree (s : State) (v : Nat) (w : Net) :
    (s.setNet w).setFree v = (s.setFree v).setNet w := rfl
@[simp] theorem State.setRoutes_setFree (s : State) (v : Nat) (w : Table Route) :
    (s.setRoutes w).setFree v = (s.setFree v).setRoutes w := rfl
@[simp] theorem State.setEngine_setFree (s : State) (v : Nat) (w : Engine) :
    (s.setEngine w).setFree v = (s.setFree v).setEngine w := rfl
@[simp] theorem State.setRing_setFree (s : State) (v : Nat) (w : Ring) :
    (s.setRing w).setFree v = (s.setFree v).setRing w := rfl
@[simp] theorem State.setBus_setFree (s : State) (v : Nat) (w : Bus) :
    (s.setBus w).setFree v = (s.setFree v).setBus w := rfl
@[simp] theorem State.setCards_setFree (s : State) (v : Nat) (w : Table Card) :
    (s.setCards w).setFree v = (s.setFree v).setCards w := rfl
@[simp] theorem State.setFixtures_setFree (s : State) (v : Nat) (w : Table Fixture) :
    (s.setFixtures w).setFree v = (s.setFree v).setFixtures w := rfl
@[simp] theorem State.setLoops_setFree (s : State) (v : Nat) (w : Table Loop) :
    (s.setLoops w).setFree v = (s.setFree v).setLoops w := rfl
@[simp] theorem State.setLatch_setFree (s : State) (v : Nat) (w : Bool) :
    (s.setLatch w).setFree v = (s.setFree v).setLatch w := rfl
@[simp] theorem State.setRecords_setFree (s : State) (v : Nat) (w : Records) :
    (s.setRecords w).setFree v = (s.setFree v).setRecords w := rfl
@[simp] theorem State.setMuteAck_setFree (s : State) (v : Nat) (w : Bool) :
    (s.setMuteAck w).setFree v = (s.setFree v).setMuteAck w := rfl
@[simp] theorem State.setSite_setLink (s : State) (v : Link) (w : Site) :
    (s.setSite w).setLink v = (s.setLink v).setSite w := rfl
@[simp] theorem State.setRate_setLink (s : State) (v : Link) (w : Nat) :
    (s.setRate w).setLink v = (s.setLink v).setRate w := rfl
@[simp] theorem State.setLock_setLink (s : State) (v : Link) (w : Bool) :
    (s.setLock w).setLink v = (s.setLink v).setLock w := rfl
@[simp] theorem State.setStore_setLink (s : State) (v : Link) (w : Store) :
    (s.setStore w).setLink v = (s.setLink v).setStore w := rfl
@[simp] theorem State.setFailed_setLink (s : State) (v : Link) (w : Nat) :
    (s.setFailed w).setLink v = (s.setLink v).setFailed w := rfl
@[simp] theorem State.setImages_setLink (s : State) (v : Link) (w : Table Curve) :
    (s.setImages w).setLink v = (s.setLink v).setImages w := rfl
@[simp] theorem State.setNet_setLink (s : State) (v : Link) (w : Net) :
    (s.setNet w).setLink v = (s.setLink v).setNet w := rfl
@[simp] theorem State.setRoutes_setLink (s : State) (v : Link) (w : Table Route) :
    (s.setRoutes w).setLink v = (s.setLink v).setRoutes w := rfl
@[simp] theorem State.setEngine_setLink (s : State) (v : Link) (w : Engine) :
    (s.setEngine w).setLink v = (s.setLink v).setEngine w := rfl
@[simp] theorem State.setRing_setLink (s : State) (v : Link) (w : Ring) :
    (s.setRing w).setLink v = (s.setLink v).setRing w := rfl
@[simp] theorem State.setBus_setLink (s : State) (v : Link) (w : Bus) :
    (s.setBus w).setLink v = (s.setLink v).setBus w := rfl
@[simp] theorem State.setCards_setLink (s : State) (v : Link) (w : Table Card) :
    (s.setCards w).setLink v = (s.setLink v).setCards w := rfl
@[simp] theorem State.setFixtures_setLink (s : State) (v : Link) (w : Table Fixture) :
    (s.setFixtures w).setLink v = (s.setLink v).setFixtures w := rfl
@[simp] theorem State.setLoops_setLink (s : State) (v : Link) (w : Table Loop) :
    (s.setLoops w).setLink v = (s.setLink v).setLoops w := rfl
@[simp] theorem State.setLatch_setLink (s : State) (v : Link) (w : Bool) :
    (s.setLatch w).setLink v = (s.setLink v).setLatch w := rfl
@[simp] theorem State.setRecords_setLink (s : State) (v : Link) (w : Records) :
    (s.setRecords w).setLink v = (s.setLink v).setRecords w := rfl
@[simp] theorem State.setMuteAck_setLink (s : State) (v : Link) (w : Bool) :
    (s.setMuteAck w).setLink v = (s.setLink v).setMuteAck w := rfl
@[simp] theorem State.setRate_setSite (s : State) (v : Site) (w : Nat) :
    (s.setRate w).setSite v = (s.setSite v).setRate w := rfl
@[simp] theorem State.setLock_setSite (s : State) (v : Site) (w : Bool) :
    (s.setLock w).setSite v = (s.setSite v).setLock w := rfl
@[simp] theorem State.setStore_setSite (s : State) (v : Site) (w : Store) :
    (s.setStore w).setSite v = (s.setSite v).setStore w := rfl
@[simp] theorem State.setFailed_setSite (s : State) (v : Site) (w : Nat) :
    (s.setFailed w).setSite v = (s.setSite v).setFailed w := rfl
@[simp] theorem State.setImages_setSite (s : State) (v : Site) (w : Table Curve) :
    (s.setImages w).setSite v = (s.setSite v).setImages w := rfl
@[simp] theorem State.setNet_setSite (s : State) (v : Site) (w : Net) :
    (s.setNet w).setSite v = (s.setSite v).setNet w := rfl
@[simp] theorem State.setRoutes_setSite (s : State) (v : Site) (w : Table Route) :
    (s.setRoutes w).setSite v = (s.setSite v).setRoutes w := rfl
@[simp] theorem State.setEngine_setSite (s : State) (v : Site) (w : Engine) :
    (s.setEngine w).setSite v = (s.setSite v).setEngine w := rfl
@[simp] theorem State.setRing_setSite (s : State) (v : Site) (w : Ring) :
    (s.setRing w).setSite v = (s.setSite v).setRing w := rfl
@[simp] theorem State.setBus_setSite (s : State) (v : Site) (w : Bus) :
    (s.setBus w).setSite v = (s.setSite v).setBus w := rfl
@[simp] theorem State.setCards_setSite (s : State) (v : Site) (w : Table Card) :
    (s.setCards w).setSite v = (s.setSite v).setCards w := rfl
@[simp] theorem State.setFixtures_setSite (s : State) (v : Site) (w : Table Fixture) :
    (s.setFixtures w).setSite v = (s.setSite v).setFixtures w := rfl
@[simp] theorem State.setLoops_setSite (s : State) (v : Site) (w : Table Loop) :
    (s.setLoops w).setSite v = (s.setSite v).setLoops w := rfl
@[simp] theorem State.setLatch_setSite (s : State) (v : Site) (w : Bool) :
    (s.setLatch w).setSite v = (s.setSite v).setLatch w := rfl
@[simp] theorem State.setRecords_setSite (s : State) (v : Site) (w : Records) :
    (s.setRecords w).setSite v = (s.setSite v).setRecords w := rfl
@[simp] theorem State.setMuteAck_setSite (s : State) (v : Site) (w : Bool) :
    (s.setMuteAck w).setSite v = (s.setSite v).setMuteAck w := rfl
@[simp] theorem State.setLock_setRate (s : State) (v : Nat) (w : Bool) :
    (s.setLock w).setRate v = (s.setRate v).setLock w := rfl
@[simp] theorem State.setStore_setRate (s : State) (v : Nat) (w : Store) :
    (s.setStore w).setRate v = (s.setRate v).setStore w := rfl
@[simp] theorem State.setFailed_setRate (s : State) (v : Nat) (w : Nat) :
    (s.setFailed w).setRate v = (s.setRate v).setFailed w := rfl
@[simp] theorem State.setImages_setRate (s : State) (v : Nat) (w : Table Curve) :
    (s.setImages w).setRate v = (s.setRate v).setImages w := rfl
@[simp] theorem State.setNet_setRate (s : State) (v : Nat) (w : Net) :
    (s.setNet w).setRate v = (s.setRate v).setNet w := rfl
@[simp] theorem State.setRoutes_setRate (s : State) (v : Nat) (w : Table Route) :
    (s.setRoutes w).setRate v = (s.setRate v).setRoutes w := rfl
@[simp] theorem State.setEngine_setRate (s : State) (v : Nat) (w : Engine) :
    (s.setEngine w).setRate v = (s.setRate v).setEngine w := rfl
@[simp] theorem State.setRing_setRate (s : State) (v : Nat) (w : Ring) :
    (s.setRing w).setRate v = (s.setRate v).setRing w := rfl
@[simp] theorem State.setBus_setRate (s : State) (v : Nat) (w : Bus) :
    (s.setBus w).setRate v = (s.setRate v).setBus w := rfl
@[simp] theorem State.setCards_setRate (s : State) (v : Nat) (w : Table Card) :
    (s.setCards w).setRate v = (s.setRate v).setCards w := rfl
@[simp] theorem State.setFixtures_setRate (s : State) (v : Nat) (w : Table Fixture) :
    (s.setFixtures w).setRate v = (s.setRate v).setFixtures w := rfl
@[simp] theorem State.setLoops_setRate (s : State) (v : Nat) (w : Table Loop) :
    (s.setLoops w).setRate v = (s.setRate v).setLoops w := rfl
@[simp] theorem State.setLatch_setRate (s : State) (v : Nat) (w : Bool) :
    (s.setLatch w).setRate v = (s.setRate v).setLatch w := rfl
@[simp] theorem State.setRecords_setRate (s : State) (v : Nat) (w : Records) :
    (s.setRecords w).setRate v = (s.setRate v).setRecords w := rfl
@[simp] theorem State.setMuteAck_setRate (s : State) (v : Nat) (w : Bool) :
    (s.setMuteAck w).setRate v = (s.setRate v).setMuteAck w := rfl
@[simp] theorem State.setStore_setLock (s : State) (v : Bool) (w : Store) :
    (s.setStore w).setLock v = (s.setLock v).setStore w := rfl
@[simp] theorem State.setFailed_setLock (s : State) (v : Bool) (w : Nat) :
    (s.setFailed w).setLock v = (s.setLock v).setFailed w := rfl
@[simp] theorem State.setImages_setLock (s : State) (v : Bool) (w : Table Curve) :
    (s.setImages w).setLock v = (s.setLock v).setImages w := rfl
@[simp] theorem State.setNet_setLock (s : State) (v : Bool) (w : Net) :
    (s.setNet w).setLock v = (s.setLock v).setNet w := rfl
@[simp] theorem State.setRoutes_setLock (s : State) (v : Bool) (w : Table Route) :
    (s.setRoutes w).setLock v = (s.setLock v).setRoutes w := rfl
@[simp] theorem State.setEngine_setLock (s : State) (v : Bool) (w : Engine) :
    (s.setEngine w).setLock v = (s.setLock v).setEngine w := rfl
@[simp] theorem State.setRing_setLock (s : State) (v : Bool) (w : Ring) :
    (s.setRing w).setLock v = (s.setLock v).setRing w := rfl
@[simp] theorem State.setBus_setLock (s : State) (v : Bool) (w : Bus) :
    (s.setBus w).setLock v = (s.setLock v).setBus w := rfl
@[simp] theorem State.setCards_setLock (s : State) (v : Bool) (w : Table Card) :
    (s.setCards w).setLock v = (s.setLock v).setCards w := rfl
@[simp] theorem State.setFixtures_setLock (s : State) (v : Bool) (w : Table Fixture) :
    (s.setFixtures w).setLock v = (s.setLock v).setFixtures w := rfl
@[simp] theorem State.setLoops_setLock (s : State) (v : Bool) (w : Table Loop) :
    (s.setLoops w).setLock v = (s.setLock v).setLoops w := rfl
@[simp] theorem State.setLatch_setLock (s : State) (v : Bool) (w : Bool) :
    (s.setLatch w).setLock v = (s.setLock v).setLatch w := rfl
@[simp] theorem State.setRecords_setLock (s : State) (v : Bool) (w : Records) :
    (s.setRecords w).setLock v = (s.setLock v).setRecords w := rfl
@[simp] theorem State.setMuteAck_setLock (s : State) (v : Bool) (w : Bool) :
    (s.setMuteAck w).setLock v = (s.setLock v).setMuteAck w := rfl
@[simp] theorem State.setFailed_setStore (s : State) (v : Store) (w : Nat) :
    (s.setFailed w).setStore v = (s.setStore v).setFailed w := rfl
@[simp] theorem State.setImages_setStore (s : State) (v : Store) (w : Table Curve) :
    (s.setImages w).setStore v = (s.setStore v).setImages w := rfl
@[simp] theorem State.setNet_setStore (s : State) (v : Store) (w : Net) :
    (s.setNet w).setStore v = (s.setStore v).setNet w := rfl
@[simp] theorem State.setRoutes_setStore (s : State) (v : Store) (w : Table Route) :
    (s.setRoutes w).setStore v = (s.setStore v).setRoutes w := rfl
@[simp] theorem State.setEngine_setStore (s : State) (v : Store) (w : Engine) :
    (s.setEngine w).setStore v = (s.setStore v).setEngine w := rfl
@[simp] theorem State.setRing_setStore (s : State) (v : Store) (w : Ring) :
    (s.setRing w).setStore v = (s.setStore v).setRing w := rfl
@[simp] theorem State.setBus_setStore (s : State) (v : Store) (w : Bus) :
    (s.setBus w).setStore v = (s.setStore v).setBus w := rfl
@[simp] theorem State.setCards_setStore (s : State) (v : Store) (w : Table Card) :
    (s.setCards w).setStore v = (s.setStore v).setCards w := rfl
@[simp] theorem State.setFixtures_setStore (s : State) (v : Store) (w : Table Fixture) :
    (s.setFixtures w).setStore v = (s.setStore v).setFixtures w := rfl
@[simp] theorem State.setLoops_setStore (s : State) (v : Store) (w : Table Loop) :
    (s.setLoops w).setStore v = (s.setStore v).setLoops w := rfl
@[simp] theorem State.setLatch_setStore (s : State) (v : Store) (w : Bool) :
    (s.setLatch w).setStore v = (s.setStore v).setLatch w := rfl
@[simp] theorem State.setRecords_setStore (s : State) (v : Store) (w : Records) :
    (s.setRecords w).setStore v = (s.setStore v).setRecords w := rfl
@[simp] theorem State.setMuteAck_setStore (s : State) (v : Store) (w : Bool) :
    (s.setMuteAck w).setStore v = (s.setStore v).setMuteAck w := rfl
@[simp] theorem State.setImages_setFailed (s : State) (v : Nat) (w : Table Curve) :
    (s.setImages w).setFailed v = (s.setFailed v).setImages w := rfl
@[simp] theorem State.setNet_setFailed (s : State) (v : Nat) (w : Net) :
    (s.setNet w).setFailed v = (s.setFailed v).setNet w := rfl
@[simp] theorem State.setRoutes_setFailed (s : State) (v : Nat) (w : Table Route) :
    (s.setRoutes w).setFailed v = (s.setFailed v).setRoutes w := rfl
@[simp] theorem State.setEngine_setFailed (s : State) (v : Nat) (w : Engine) :
    (s.setEngine w).setFailed v = (s.setFailed v).setEngine w := rfl
@[simp] theorem State.setRing_setFailed (s : State) (v : Nat) (w : Ring) :
    (s.setRing w).setFailed v = (s.setFailed v).setRing w := rfl
@[simp] theorem State.setBus_setFailed (s : State) (v : Nat) (w : Bus) :
    (s.setBus w).setFailed v = (s.setFailed v).setBus w := rfl
@[simp] theorem State.setCards_setFailed (s : State) (v : Nat) (w : Table Card) :
    (s.setCards w).setFailed v = (s.setFailed v).setCards w := rfl
@[simp] theorem State.setFixtures_setFailed (s : State) (v : Nat) (w : Table Fixture) :
    (s.setFixtures w).setFailed v = (s.setFailed v).setFixtures w := rfl
@[simp] theorem State.setLoops_setFailed (s : State) (v : Nat) (w : Table Loop) :
    (s.setLoops w).setFailed v = (s.setFailed v).setLoops w := rfl
@[simp] theorem State.setLatch_setFailed (s : State) (v : Nat) (w : Bool) :
    (s.setLatch w).setFailed v = (s.setFailed v).setLatch w := rfl
@[simp] theorem State.setRecords_setFailed (s : State) (v : Nat) (w : Records) :
    (s.setRecords w).setFailed v = (s.setFailed v).setRecords w := rfl
@[simp] theorem State.setMuteAck_setFailed (s : State) (v : Nat) (w : Bool) :
    (s.setMuteAck w).setFailed v = (s.setFailed v).setMuteAck w := rfl
@[simp] theorem State.setNet_setImages (s : State) (v : Table Curve) (w : Net) :
    (s.setNet w).setImages v = (s.setImages v).setNet w := rfl
@[simp] theorem State.setRoutes_setImages (s : State) (v : Table Curve) (w : Table Route) :
    (s.setRoutes w).setImages v = (s.setImages v).setRoutes w := rfl
@[simp] theorem State.setEngine_setImages (s : State) (v : Table Curve) (w : Engine) :
    (s.setEngine w).setImages v = (s.setImages v).setEngine w := rfl
@[simp] theorem State.setRing_setImages (s : State) (v : Table Curve) (w : Ring) :
    (s.setRing w).setImages v = (s.setImages v).setRing w := rfl
@[simp] theorem State.setBus_setImages (s : State) (v : Table Curve) (w : Bus) :
    (s.setBus w).setImages v = (s.setImages v).setBus w := rfl
@[simp] theorem State.setCards_setImages (s : State) (v : Table Curve) (w : Table Card) :
    (s.setCards w).setImages v = (s.setImages v).setCards w := rfl
@[simp] theorem State.setFixtures_setImages (s : State) (v : Table Curve) (w : Table Fixture) :
    (s.setFixtures w).setImages v = (s.setImages v).setFixtures w := rfl
@[simp] theorem State.setLoops_setImages (s : State) (v : Table Curve) (w : Table Loop) :
    (s.setLoops w).setImages v = (s.setImages v).setLoops w := rfl
@[simp] theorem State.setLatch_setImages (s : State) (v : Table Curve) (w : Bool) :
    (s.setLatch w).setImages v = (s.setImages v).setLatch w := rfl
@[simp] theorem State.setRecords_setImages (s : State) (v : Table Curve) (w : Records) :
    (s.setRecords w).setImages v = (s.setImages v).setRecords w := rfl
@[simp] theorem State.setMuteAck_setImages (s : State) (v : Table Curve) (w : Bool) :
    (s.setMuteAck w).setImages v = (s.setImages v).setMuteAck w := rfl
@[simp] theorem State.setRoutes_setNet (s : State) (v : Net) (w : Table Route) :
    (s.setRoutes w).setNet v = (s.setNet v).setRoutes w := rfl
@[simp] theorem State.setEngine_setNet (s : State) (v : Net) (w : Engine) :
    (s.setEngine w).setNet v = (s.setNet v).setEngine w := rfl
@[simp] theorem State.setRing_setNet (s : State) (v : Net) (w : Ring) :
    (s.setRing w).setNet v = (s.setNet v).setRing w := rfl
@[simp] theorem State.setBus_setNet (s : State) (v : Net) (w : Bus) :
    (s.setBus w).setNet v = (s.setNet v).setBus w := rfl
@[simp] theorem State.setCards_setNet (s : State) (v : Net) (w : Table Card) :
    (s.setCards w).setNet v = (s.setNet v).setCards w := rfl
@[simp] theorem State.setFixtures_setNet (s : State) (v : Net) (w : Table Fixture) :
    (s.setFixtures w).setNet v = (s.setNet v).setFixtures w := rfl
@[simp] theorem State.setLoops_setNet (s : State) (v : Net) (w : Table Loop) :
    (s.setLoops w).setNet v = (s.setNet v).setLoops w := rfl
@[simp] theorem State.setLatch_setNet (s : State) (v : Net) (w : Bool) :
    (s.setLatch w).setNet v = (s.setNet v).setLatch w := rfl
@[simp] theorem State.setRecords_setNet (s : State) (v : Net) (w : Records) :
    (s.setRecords w).setNet v = (s.setNet v).setRecords w := rfl
@[simp] theorem State.setMuteAck_setNet (s : State) (v : Net) (w : Bool) :
    (s.setMuteAck w).setNet v = (s.setNet v).setMuteAck w := rfl
@[simp] theorem State.setEngine_setRoutes (s : State) (v : Table Route) (w : Engine) :
    (s.setEngine w).setRoutes v = (s.setRoutes v).setEngine w := rfl
@[simp] theorem State.setRing_setRoutes (s : State) (v : Table Route) (w : Ring) :
    (s.setRing w).setRoutes v = (s.setRoutes v).setRing w := rfl
@[simp] theorem State.setBus_setRoutes (s : State) (v : Table Route) (w : Bus) :
    (s.setBus w).setRoutes v = (s.setRoutes v).setBus w := rfl
@[simp] theorem State.setCards_setRoutes (s : State) (v : Table Route) (w : Table Card) :
    (s.setCards w).setRoutes v = (s.setRoutes v).setCards w := rfl
@[simp] theorem State.setFixtures_setRoutes (s : State) (v : Table Route) (w : Table Fixture) :
    (s.setFixtures w).setRoutes v = (s.setRoutes v).setFixtures w := rfl
@[simp] theorem State.setLoops_setRoutes (s : State) (v : Table Route) (w : Table Loop) :
    (s.setLoops w).setRoutes v = (s.setRoutes v).setLoops w := rfl
@[simp] theorem State.setLatch_setRoutes (s : State) (v : Table Route) (w : Bool) :
    (s.setLatch w).setRoutes v = (s.setRoutes v).setLatch w := rfl
@[simp] theorem State.setRecords_setRoutes (s : State) (v : Table Route) (w : Records) :
    (s.setRecords w).setRoutes v = (s.setRoutes v).setRecords w := rfl
@[simp] theorem State.setMuteAck_setRoutes (s : State) (v : Table Route) (w : Bool) :
    (s.setMuteAck w).setRoutes v = (s.setRoutes v).setMuteAck w := rfl
@[simp] theorem State.setRing_setEngine (s : State) (v : Engine) (w : Ring) :
    (s.setRing w).setEngine v = (s.setEngine v).setRing w := rfl
@[simp] theorem State.setBus_setEngine (s : State) (v : Engine) (w : Bus) :
    (s.setBus w).setEngine v = (s.setEngine v).setBus w := rfl
@[simp] theorem State.setCards_setEngine (s : State) (v : Engine) (w : Table Card) :
    (s.setCards w).setEngine v = (s.setEngine v).setCards w := rfl
@[simp] theorem State.setFixtures_setEngine (s : State) (v : Engine) (w : Table Fixture) :
    (s.setFixtures w).setEngine v = (s.setEngine v).setFixtures w := rfl
@[simp] theorem State.setLoops_setEngine (s : State) (v : Engine) (w : Table Loop) :
    (s.setLoops w).setEngine v = (s.setEngine v).setLoops w := rfl
@[simp] theorem State.setLatch_setEngine (s : State) (v : Engine) (w : Bool) :
    (s.setLatch w).setEngine v = (s.setEngine v).setLatch w := rfl
@[simp] theorem State.setRecords_setEngine (s : State) (v : Engine) (w : Records) :
    (s.setRecords w).setEngine v = (s.setEngine v).setRecords w := rfl
@[simp] theorem State.setMuteAck_setEngine (s : State) (v : Engine) (w : Bool) :
    (s.setMuteAck w).setEngine v = (s.setEngine v).setMuteAck w := rfl
@[simp] theorem State.setBus_setRing (s : State) (v : Ring) (w : Bus) :
    (s.setBus w).setRing v = (s.setRing v).setBus w := rfl
@[simp] theorem State.setCards_setRing (s : State) (v : Ring) (w : Table Card) :
    (s.setCards w).setRing v = (s.setRing v).setCards w := rfl
@[simp] theorem State.setFixtures_setRing (s : State) (v : Ring) (w : Table Fixture) :
    (s.setFixtures w).setRing v = (s.setRing v).setFixtures w := rfl
@[simp] theorem State.setLoops_setRing (s : State) (v : Ring) (w : Table Loop) :
    (s.setLoops w).setRing v = (s.setRing v).setLoops w := rfl
@[simp] theorem State.setLatch_setRing (s : State) (v : Ring) (w : Bool) :
    (s.setLatch w).setRing v = (s.setRing v).setLatch w := rfl
@[simp] theorem State.setRecords_setRing (s : State) (v : Ring) (w : Records) :
    (s.setRecords w).setRing v = (s.setRing v).setRecords w := rfl
@[simp] theorem State.setMuteAck_setRing (s : State) (v : Ring) (w : Bool) :
    (s.setMuteAck w).setRing v = (s.setRing v).setMuteAck w := rfl
@[simp] theorem State.setCards_setBus (s : State) (v : Bus) (w : Table Card) :
    (s.setCards w).setBus v = (s.setBus v).setCards w := rfl
@[simp] theorem State.setFixtures_setBus (s : State) (v : Bus) (w : Table Fixture) :
    (s.setFixtures w).setBus v = (s.setBus v).setFixtures w := rfl
@[simp] theorem State.setLoops_setBus (s : State) (v : Bus) (w : Table Loop) :
    (s.setLoops w).setBus v = (s.setBus v).setLoops w := rfl
@[simp] theorem State.setLatch_setBus (s : State) (v : Bus) (w : Bool) :
    (s.setLatch w).setBus v = (s.setBus v).setLatch w := rfl
@[simp] theorem State.setRecords_setBus (s : State) (v : Bus) (w : Records) :
    (s.setRecords w).setBus v = (s.setBus v).setRecords w := rfl
@[simp] theorem State.setMuteAck_setBus (s : State) (v : Bus) (w : Bool) :
    (s.setMuteAck w).setBus v = (s.setBus v).setMuteAck w := rfl
@[simp] theorem State.setFixtures_setCards (s : State) (v : Table Card) (w : Table Fixture) :
    (s.setFixtures w).setCards v = (s.setCards v).setFixtures w := rfl
@[simp] theorem State.setLoops_setCards (s : State) (v : Table Card) (w : Table Loop) :
    (s.setLoops w).setCards v = (s.setCards v).setLoops w := rfl
@[simp] theorem State.setLatch_setCards (s : State) (v : Table Card) (w : Bool) :
    (s.setLatch w).setCards v = (s.setCards v).setLatch w := rfl
@[simp] theorem State.setRecords_setCards (s : State) (v : Table Card) (w : Records) :
    (s.setRecords w).setCards v = (s.setCards v).setRecords w := rfl
@[simp] theorem State.setMuteAck_setCards (s : State) (v : Table Card) (w : Bool) :
    (s.setMuteAck w).setCards v = (s.setCards v).setMuteAck w := rfl
@[simp] theorem State.setLoops_setFixtures (s : State) (v : Table Fixture) (w : Table Loop) :
    (s.setLoops w).setFixtures v = (s.setFixtures v).setLoops w := rfl
@[simp] theorem State.setLatch_setFixtures (s : State) (v : Table Fixture) (w : Bool) :
    (s.setLatch w).setFixtures v = (s.setFixtures v).setLatch w := rfl
@[simp] theorem State.setRecords_setFixtures (s : State) (v : Table Fixture) (w : Records) :
    (s.setRecords w).setFixtures v = (s.setFixtures v).setRecords w := rfl
@[simp] theorem State.setMuteAck_setFixtures (s : State) (v : Table Fixture) (w : Bool) :
    (s.setMuteAck w).setFixtures v = (s.setFixtures v).setMuteAck w := rfl
@[simp] theorem State.setLatch_setLoops (s : State) (v : Table Loop) (w : Bool) :
    (s.setLatch w).setLoops v = (s.setLoops v).setLatch w := rfl
@[simp] theorem State.setRecords_setLoops (s : State) (v : Table Loop) (w : Records) :
    (s.setRecords w).setLoops v = (s.setLoops v).setRecords w := rfl
@[simp] theorem State.setMuteAck_setLoops (s : State) (v : Table Loop) (w : Bool) :
    (s.setMuteAck w).setLoops v = (s.setLoops v).setMuteAck w := rfl
@[simp] theorem State.setRecords_setLatch (s : State) (v : Bool) (w : Records) :
    (s.setRecords w).setLatch v = (s.setLatch v).setRecords w := rfl
@[simp] theorem State.setMuteAck_setLatch (s : State) (v : Bool) (w : Bool) :
    (s.setMuteAck w).setLatch v = (s.setLatch v).setMuteAck w := rfl
@[simp] theorem State.setMuteAck_setRecords (s : State) (v : Records) (w : Bool) :
    (s.setMuteAck w).setRecords v = (s.setRecords v).setMuteAck w := rfl

end Sys2Proof.Machine
end

