-- ==== Sys2Proof/Laws/Frames.lean ====
section
/-! SUPPORT. What each operation of the machine leaves unchanged: for every operation `f`, the lemma `f_keeps` lists the
fields of the state (and of its parts) that `f` does not write, so that `simp` reads them through `f`. -/

namespace Sys2Proof.Laws

open Sys2Proof.Machine

set_option linter.unusedSimpArgs false
set_option linter.unusedVariables false

@[simp] theorem foldl_pending {β : Type} (f : State → β → State) (h : ∀ s a, (f s a).pending = s.pending) (l : List
    β) (s : State) : (l.foldl f s).pending = s.pending := by
  induction l generalizing s with
  | nil => rfl
  | cons a l ih => simp [ih, h]
@[simp] theorem foldl_phase {β : Type} (f : State → β → State) (h : ∀ s a, (f s a).phase = s.phase) (l : List β) (s :
    State) : (l.foldl f s).phase = s.phase := by
  induction l generalizing s with
  | nil => rfl
  | cons a l ih => simp [ih, h]
@[simp] theorem foldl_cause {β : Type} (f : State → β → State) (h : ∀ s a, (f s a).cause = s.cause) (l : List β) (s :
    State) : (l.foldl f s).cause = s.cause := by
  induction l generalizing s with
  | nil => rfl
  | cons a l ih => simp [ih, h]
@[simp] theorem foldl_free {β : Type} (f : State → β → State) (h : ∀ s a, (f s a).free = s.free) (l : List β) (s :
    State) : (l.foldl f s).free = s.free := by
  induction l generalizing s with
  | nil => rfl
  | cons a l ih => simp [ih, h]
@[simp] theorem foldl_link {β : Type} (f : State → β → State) (h : ∀ s a, (f s a).link = s.link) (l : List β) (s :
    State) : (l.foldl f s).link = s.link := by
  induction l generalizing s with
  | nil => rfl
  | cons a l ih => simp [ih, h]
@[simp] theorem foldl_link_lines {β : Type} (f : State → β → State) (h : ∀ s a, (f s a).link.lines = s.link.lines) (l
    : List β) (s : State) : (l.foldl f s).link.lines = s.link.lines := by
  induction l generalizing s with
  | nil => rfl
  | cons a l ih => simp [ih, h]
@[simp] theorem foldl_link_hold {β : Type} (f : State → β → State) (h : ∀ s a, (f s a).link.hold = s.link.hold) (l :
    List β) (s : State) : (l.foldl f s).link.hold = s.link.hold := by
  induction l generalizing s with
  | nil => rfl
  | cons a l ih => simp [ih, h]
@[simp] theorem foldl_link_held {β : Type} (f : State → β → State) (h : ∀ s a, (f s a).link.held = s.link.held) (l :
    List β) (s : State) : (l.foldl f s).link.held = s.link.held := by
  induction l generalizing s with
  | nil => rfl
  | cons a l ih => simp [ih, h]
@[simp] theorem foldl_link_slot {β : Type} (f : State → β → State) (h : ∀ s a, (f s a).link.slot = s.link.slot) (l :
    List β) (s : State) : (l.foldl f s).link.slot = s.link.slot := by
  induction l generalizing s with
  | nil => rfl
  | cons a l ih => simp [ih, h]
@[simp] theorem foldl_link_notices {β : Type} (f : State → β → State) (h : ∀ s a, (f s a).link.notices =
    s.link.notices) (l : List β) (s : State) : (l.foldl f s).link.notices = s.link.notices := by
  induction l generalizing s with
  | nil => rfl
  | cons a l ih => simp [ih, h]
@[simp] theorem foldl_link_owed {β : Type} (f : State → β → State) (h : ∀ s a, (f s a).link.owed = s.link.owed) (l :
    List β) (s : State) : (l.foldl f s).link.owed = s.link.owed := by
  induction l generalizing s with
  | nil => rfl
  | cons a l ih => simp [ih, h]
@[simp] theorem foldl_link_tx {β : Type} (f : State → β → State) (h : ∀ s a, (f s a).link.tx = s.link.tx) (l : List
    β) (s : State) : (l.foldl f s).link.tx = s.link.tx := by
  induction l generalizing s with
  | nil => rfl
  | cons a l ih => simp [ih, h]
@[simp] theorem foldl_link_lost {β : Type} (f : State → β → State) (h : ∀ s a, (f s a).link.lost = s.link.lost) (l :
    List β) (s : State) : (l.foldl f s).link.lost = s.link.lost := by
  induction l generalizing s with
  | nil => rfl
  | cons a l ih => simp [ih, h]
@[simp] theorem foldl_link_enabled {β : Type} (f : State → β → State) (h : ∀ s a, (f s a).link.enabled =
    s.link.enabled) (l : List β) (s : State) : (l.foldl f s).link.enabled = s.link.enabled := by
  induction l generalizing s with
  | nil => rfl
  | cons a l ih => simp [ih, h]
@[simp] theorem foldl_link_gap {β : Type} (f : State → β → State) (h : ∀ s a, (f s a).link.gap = s.link.gap) (l :
    List β) (s : State) : (l.foldl f s).link.gap = s.link.gap := by
  induction l generalizing s with
  | nil => rfl
  | cons a l ih => simp [ih, h]
@[simp] theorem foldl_site {β : Type} (f : State → β → State) (h : ∀ s a, (f s a).site = s.site) (l : List β) (s :
    State) : (l.foldl f s).site = s.site := by
  induction l generalizing s with
  | nil => rfl
  | cons a l ih => simp [ih, h]
@[simp] theorem foldl_rate {β : Type} (f : State → β → State) (h : ∀ s a, (f s a).rate = s.rate) (l : List β) (s :
    State) : (l.foldl f s).rate = s.rate := by
  induction l generalizing s with
  | nil => rfl
  | cons a l ih => simp [ih, h]
@[simp] theorem foldl_lock {β : Type} (f : State → β → State) (h : ∀ s a, (f s a).lock = s.lock) (l : List β) (s :
    State) : (l.foldl f s).lock = s.lock := by
  induction l generalizing s with
  | nil => rfl
  | cons a l ih => simp [ih, h]
@[simp] theorem foldl_store {β : Type} (f : State → β → State) (h : ∀ s a, (f s a).store = s.store) (l : List β) (s :
    State) : (l.foldl f s).store = s.store := by
  induction l generalizing s with
  | nil => rfl
  | cons a l ih => simp [ih, h]
@[simp] theorem foldl_failed {β : Type} (f : State → β → State) (h : ∀ s a, (f s a).failed = s.failed) (l : List β)
    (s : State) : (l.foldl f s).failed = s.failed := by
  induction l generalizing s with
  | nil => rfl
  | cons a l ih => simp [ih, h]
@[simp] theorem foldl_images {β : Type} (f : State → β → State) (h : ∀ s a, (f s a).images = s.images) (l : List β)
    (s : State) : (l.foldl f s).images = s.images := by
  induction l generalizing s with
  | nil => rfl
  | cons a l ih => simp [ih, h]
@[simp] theorem foldl_net {β : Type} (f : State → β → State) (h : ∀ s a, (f s a).net = s.net) (l : List β) (s :
    State) : (l.foldl f s).net = s.net := by
  induction l generalizing s with
  | nil => rfl
  | cons a l ih => simp [ih, h]
@[simp] theorem foldl_net_elems {β : Type} (f : State → β → State) (h : ∀ s a, (f s a).net.elems = s.net.elems) (l :
    List β) (s : State) : (l.foldl f s).net.elems = s.net.elems := by
  induction l generalizing s with
  | nil => rfl
  | cons a l ih => simp [ih, h]
@[simp] theorem foldl_net_ports {β : Type} (f : State → β → State) (h : ∀ s a, (f s a).net.ports = s.net.ports) (l :
    List β) (s : State) : (l.foldl f s).net.ports = s.net.ports := by
  induction l generalizing s with
  | nil => rfl
  | cons a l ih => simp [ih, h]
@[simp] theorem foldl_net_legs {β : Type} (f : State → β → State) (h : ∀ s a, (f s a).net.legs = s.net.legs) (l :
    List β) (s : State) : (l.foldl f s).net.legs = s.net.legs := by
  induction l generalizing s with
  | nil => rfl
  | cons a l ih => simp [ih, h]
@[simp] theorem foldl_net_released {β : Type} (f : State → β → State) (h : ∀ s a, (f s a).net.released =
    s.net.released) (l : List β) (s : State) : (l.foldl f s).net.released = s.net.released := by
  induction l generalizing s with
  | nil => rfl
  | cons a l ih => simp [ih, h]
@[simp] theorem foldl_net_locked {β : Type} (f : State → β → State) (h : ∀ s a, (f s a).net.locked = s.net.locked) (l
    : List β) (s : State) : (l.foldl f s).net.locked = s.net.locked := by
  induction l generalizing s with
  | nil => rfl
  | cons a l ih => simp [ih, h]
@[simp] theorem foldl_routes {β : Type} (f : State → β → State) (h : ∀ s a, (f s a).routes = s.routes) (l : List β)
    (s : State) : (l.foldl f s).routes = s.routes := by
  induction l generalizing s with
  | nil => rfl
  | cons a l ih => simp [ih, h]
@[simp] theorem foldl_engine {β : Type} (f : State → β → State) (h : ∀ s a, (f s a).engine = s.engine) (l : List β)
    (s : State) : (l.foldl f s).engine = s.engine := by
  induction l generalizing s with
  | nil => rfl
  | cons a l ih => simp [ih, h]
@[simp] theorem foldl_engine_mode {β : Type} (f : State → β → State) (h : ∀ s a, (f s a).engine.mode = s.engine.mode)
    (l : List β) (s : State) : (l.foldl f s).engine.mode = s.engine.mode := by
  induction l generalizing s with
  | nil => rfl
  | cons a l ih => simp [ih, h]
@[simp] theorem foldl_engine_applied {β : Type} (f : State → β → State) (h : ∀ s a, (f s a).engine.applied =
    s.engine.applied) (l : List β) (s : State) : (l.foldl f s).engine.applied = s.engine.applied := by
  induction l generalizing s with
  | nil => rfl
  | cons a l ih => simp [ih, h]
@[simp] theorem foldl_engine_number {β : Type} (f : State → β → State) (h : ∀ s a, (f s a).engine.number =
    s.engine.number) (l : List β) (s : State) : (l.foldl f s).engine.number = s.engine.number := by
  induction l generalizing s with
  | nil => rfl
  | cons a l ih => simp [ih, h]
@[simp] theorem foldl_engine_trans {β : Type} (f : State → β → State) (h : ∀ s a, (f s a).engine.trans =
    s.engine.trans) (l : List β) (s : State) : (l.foldl f s).engine.trans = s.engine.trans := by
  induction l generalizing s with
  | nil => rfl
  | cons a l ih => simp [ih, h]
@[simp] theorem foldl_engine_mute {β : Type} (f : State → β → State) (h : ∀ s a, (f s a).engine.mute = s.engine.mute)
    (l : List β) (s : State) : (l.foldl f s).engine.mute = s.engine.mute := by
  induction l generalizing s with
  | nil => rfl
  | cons a l ih => simp [ih, h]
@[simp] theorem foldl_engine_muteTimer {β : Type} (f : State → β → State) (h : ∀ s a, (f s a).engine.muteTimer =
    s.engine.muteTimer) (l : List β) (s : State) : (l.foldl f s).engine.muteTimer = s.engine.muteTimer := by
  induction l generalizing s with
  | nil => rfl
  | cons a l ih => simp [ih, h]
@[simp] theorem foldl_engine_dropHeld {β : Type} (f : State → β → State) (h : ∀ s a, (f s a).engine.dropHeld =
    s.engine.dropHeld) (l : List β) (s : State) : (l.foldl f s).engine.dropHeld = s.engine.dropHeld := by
  induction l generalizing s with
  | nil => rfl
  | cons a l ih => simp [ih, h]
@[simp] theorem foldl_engine_waiting {β : Type} (f : State → β → State) (h : ∀ s a, (f s a).engine.waiting =
    s.engine.waiting) (l : List β) (s : State) : (l.foldl f s).engine.waiting = s.engine.waiting := by
  induction l generalizing s with
  | nil => rfl
  | cons a l ih => simp [ih, h]
@[simp] theorem foldl_engine_active {β : Type} (f : State → β → State) (h : ∀ s a, (f s a).engine.active =
    s.engine.active) (l : List β) (s : State) : (l.foldl f s).engine.active = s.engine.active := by
  induction l generalizing s with
  | nil => rfl
  | cons a l ih => simp [ih, h]
@[simp] theorem foldl_engine_due {β : Type} (f : State → β → State) (h : ∀ s a, (f s a).engine.due = s.engine.due) (l
    : List β) (s : State) : (l.foldl f s).engine.due = s.engine.due := by
  induction l generalizing s with
  | nil => rfl
  | cons a l ih => simp [ih, h]
@[simp] theorem foldl_engine_staging {β : Type} (f : State → β → State) (h : ∀ s a, (f s a).engine.staging =
    s.engine.staging) (l : List β) (s : State) : (l.foldl f s).engine.staging = s.engine.staging := by
  induction l generalizing s with
  | nil => rfl
  | cons a l ih => simp [ih, h]
@[simp] theorem foldl_engine_survey {β : Type} (f : State → β → State) (h : ∀ s a, (f s a).engine.survey =
    s.engine.survey) (l : List β) (s : State) : (l.foldl f s).engine.survey = s.engine.survey := by
  induction l generalizing s with
  | nil => rfl
  | cons a l ih => simp [ih, h]
@[simp] theorem foldl_engine_holder {β : Type} (f : State → β → State) (h : ∀ s a, (f s a).engine.holder =
    s.engine.holder) (l : List β) (s : State) : (l.foldl f s).engine.holder = s.engine.holder := by
  induction l generalizing s with
  | nil => rfl
  | cons a l ih => simp [ih, h]
@[simp] theorem foldl_ring {β : Type} (f : State → β → State) (h : ∀ s a, (f s a).ring = s.ring) (l : List β) (s :
    State) : (l.foldl f s).ring = s.ring := by
  induction l generalizing s with
  | nil => rfl
  | cons a l ih => simp [ih, h]
@[simp] theorem foldl_ring_steps {β : Type} (f : State → β → State) (h : ∀ s a, (f s a).ring.steps = s.ring.steps) (l
    : List β) (s : State) : (l.foldl f s).ring.steps = s.ring.steps := by
  induction l generalizing s with
  | nil => rfl
  | cons a l ih => simp [ih, h]
@[simp] theorem foldl_ring_state {β : Type} (f : State → β → State) (h : ∀ s a, (f s a).ring.state = s.ring.state) (l
    : List β) (s : State) : (l.foldl f s).ring.state = s.ring.state := by
  induction l generalizing s with
  | nil => rfl
  | cons a l ih => simp [ih, h]
@[simp] theorem foldl_ring_len {β : Type} (f : State → β → State) (h : ∀ s a, (f s a).ring.len = s.ring.len) (l :
    List β) (s : State) : (l.foldl f s).ring.len = s.ring.len := by
  induction l generalizing s with
  | nil => rfl
  | cons a l ih => simp [ih, h]
@[simp] theorem foldl_ring_ptr {β : Type} (f : State → β → State) (h : ∀ s a, (f s a).ring.ptr = s.ring.ptr) (l :
    List β) (s : State) : (l.foldl f s).ring.ptr = s.ring.ptr := by
  induction l generalizing s with
  | nil => rfl
  | cons a l ih => simp [ih, h]
@[simp] theorem foldl_ring_visit {β : Type} (f : State → β → State) (h : ∀ s a, (f s a).ring.visit = s.ring.visit) (l
    : List β) (s : State) : (l.foldl f s).ring.visit = s.ring.visit := by
  induction l generalizing s with
  | nil => rfl
  | cons a l ih => simp [ih, h]
@[simp] theorem foldl_ring_pass {β : Type} (f : State → β → State) (h : ∀ s a, (f s a).ring.pass = s.ring.pass) (l :
    List β) (s : State) : (l.foldl f s).ring.pass = s.ring.pass := by
  induction l generalizing s with
  | nil => rfl
  | cons a l ih => simp [ih, h]
@[simp] theorem foldl_ring_pendingTrig {β : Type} (f : State → β → State) (h : ∀ s a, (f s a).ring.pendingTrig =
    s.ring.pendingTrig) (l : List β) (s : State) : (l.foldl f s).ring.pendingTrig = s.ring.pendingTrig := by
  induction l generalizing s with
  | nil => rfl
  | cons a l ih => simp [ih, h]
@[simp] theorem foldl_ring_overrun {β : Type} (f : State → β → State) (h : ∀ s a, (f s a).ring.overrun =
    s.ring.overrun) (l : List β) (s : State) : (l.foldl f s).ring.overrun = s.ring.overrun := by
  induction l generalizing s with
  | nil => rfl
  | cons a l ih => simp [ih, h]
@[simp] theorem foldl_ring_holdPending {β : Type} (f : State → β → State) (h : ∀ s a, (f s a).ring.holdPending =
    s.ring.holdPending) (l : List β) (s : State) : (l.foldl f s).ring.holdPending = s.ring.holdPending := by
  induction l generalizing s with
  | nil => rfl
  | cons a l ih => simp [ih, h]
@[simp] theorem foldl_ring_halt {β : Type} (f : State → β → State) (h : ∀ s a, (f s a).ring.halt = s.ring.halt) (l :
    List β) (s : State) : (l.foldl f s).ring.halt = s.ring.halt := by
  induction l generalizing s with
  | nil => rfl
  | cons a l ih => simp [ih, h]
@[simp] theorem foldl_ring_dwellTimer {β : Type} (f : State → β → State) (h : ∀ s a, (f s a).ring.dwellTimer =
    s.ring.dwellTimer) (l : List β) (s : State) : (l.foldl f s).ring.dwellTimer = s.ring.dwellTimer := by
  induction l generalizing s with
  | nil => rfl
  | cons a l ih => simp [ih, h]
@[simp] theorem foldl_ring_keptDwell {β : Type} (f : State → β → State) (h : ∀ s a, (f s a).ring.keptDwell =
    s.ring.keptDwell) (l : List β) (s : State) : (l.foldl f s).ring.keptDwell = s.ring.keptDwell := by
  induction l generalizing s with
  | nil => rfl
  | cons a l ih => simp [ih, h]
@[simp] theorem foldl_ring_markTimer {β : Type} (f : State → β → State) (h : ∀ s a, (f s a).ring.markTimer =
    s.ring.markTimer) (l : List β) (s : State) : (l.foldl f s).ring.markTimer = s.ring.markTimer := by
  induction l generalizing s with
  | nil => rfl
  | cons a l ih => simp [ih, h]
@[simp] theorem foldl_ring_report {β : Type} (f : State → β → State) (h : ∀ s a, (f s a).ring.report = s.ring.report)
    (l : List β) (s : State) : (l.foldl f s).ring.report = s.ring.report := by
  induction l generalizing s with
  | nil => rfl
  | cons a l ih => simp [ih, h]
@[simp] theorem foldl_bus {β : Type} (f : State → β → State) (h : ∀ s a, (f s a).bus = s.bus) (l : List β) (s :
    State) : (l.foldl f s).bus = s.bus := by
  induction l generalizing s with
  | nil => rfl
  | cons a l ih => simp [ih, h]
@[simp] theorem foldl_bus_tx {β : Type} (f : State → β → State) (h : ∀ s a, (f s a).bus.tx = s.bus.tx) (l : List β)
    (s : State) : (l.foldl f s).bus.tx = s.bus.tx := by
  induction l generalizing s with
  | nil => rfl
  | cons a l ih => simp [ih, h]
@[simp] theorem foldl_bus_round {β : Type} (f : State → β → State) (h : ∀ s a, (f s a).bus.round = s.bus.round) (l :
    List β) (s : State) : (l.foldl f s).bus.round = s.bus.round := by
  induction l generalizing s with
  | nil => rfl
  | cons a l ih => simp [ih, h]
@[simp] theorem foldl_bus_pollTimer {β : Type} (f : State → β → State) (h : ∀ s a, (f s a).bus.pollTimer =
    s.bus.pollTimer) (l : List β) (s : State) : (l.foldl f s).bus.pollTimer = s.bus.pollTimer := by
  induction l generalizing s with
  | nil => rfl
  | cons a l ih => simp [ih, h]
@[simp] theorem foldl_bus_discovery {β : Type} (f : State → β → State) (h : ∀ s a, (f s a).bus.discovery =
    s.bus.discovery) (l : List β) (s : State) : (l.foldl f s).bus.discovery = s.bus.discovery := by
  induction l generalizing s with
  | nil => rfl
  | cons a l ih => simp [ih, h]
@[simp] theorem foldl_cards {β : Type} (f : State → β → State) (h : ∀ s a, (f s a).cards = s.cards) (l : List β) (s :
    State) : (l.foldl f s).cards = s.cards := by
  induction l generalizing s with
  | nil => rfl
  | cons a l ih => simp [ih, h]
@[simp] theorem foldl_fixtures {β : Type} (f : State → β → State) (h : ∀ s a, (f s a).fixtures = s.fixtures) (l :
    List β) (s : State) : (l.foldl f s).fixtures = s.fixtures := by
  induction l generalizing s with
  | nil => rfl
  | cons a l ih => simp [ih, h]
@[simp] theorem foldl_loops {β : Type} (f : State → β → State) (h : ∀ s a, (f s a).loops = s.loops) (l : List β) (s :
    State) : (l.foldl f s).loops = s.loops := by
  induction l generalizing s with
  | nil => rfl
  | cons a l ih => simp [ih, h]
@[simp] theorem foldl_latch {β : Type} (f : State → β → State) (h : ∀ s a, (f s a).latch = s.latch) (l : List β) (s :
    State) : (l.foldl f s).latch = s.latch := by
  induction l generalizing s with
  | nil => rfl
  | cons a l ih => simp [ih, h]
@[simp] theorem foldl_records {β : Type} (f : State → β → State) (h : ∀ s a, (f s a).records = s.records) (l : List
    β) (s : State) : (l.foldl f s).records = s.records := by
  induction l generalizing s with
  | nil => rfl
  | cons a l ih => simp [ih, h]
@[simp] theorem foldl_records_fault {β : Type} (f : State → β → State) (h : ∀ s a, (f s a).records.fault =
    s.records.fault) (l : List β) (s : State) : (l.foldl f s).records.fault = s.records.fault := by
  induction l generalizing s with
  | nil => rfl
  | cons a l ih => simp [ih, h]
@[simp] theorem foldl_records_more {β : Type} (f : State → β → State) (h : ∀ s a, (f s a).records.more =
    s.records.more) (l : List β) (s : State) : (l.foldl f s).records.more = s.records.more := by
  induction l generalizing s with
  | nil => rfl
  | cons a l ih => simp [ih, h]
@[simp] theorem foldl_records_late {β : Type} (f : State → β → State) (h : ∀ s a, (f s a).records.late =
    s.records.late) (l : List β) (s : State) : (l.foldl f s).records.late = s.records.late := by
  induction l generalizing s with
  | nil => rfl
  | cons a l ih => simp [ih, h]
@[simp] theorem foldl_records_wear {β : Type} (f : State → β → State) (h : ∀ s a, (f s a).records.wear =
    s.records.wear) (l : List β) (s : State) : (l.foldl f s).records.wear = s.records.wear := by
  induction l generalizing s with
  | nil => rfl
  | cons a l ih => simp [ih, h]
@[simp] theorem foldl_muteAck {β : Type} (f : State → β → State) (h : ∀ s a, (f s a).muteAck = s.muteAck) (l : List
    β) (s : State) : (l.foldl f s).muteAck = s.muteAck := by
  induction l generalizing s with
  | nil => rfl
  | cons a l ih => simp [ih, h]
@[simp] theorem enqueue_keeps (n : Notice) (s : State) :
    (enqueue n s).pending = s.pending ∧ (enqueue n s).phase = s.phase ∧ (enqueue n s).cause = s.cause
    ∧ (enqueue n s).free = s.free ∧ (enqueue n s).link.lines = s.link.lines ∧ (enqueue n s).link.hold = s.link.hold
    ∧ (enqueue n s).link.held = s.link.held ∧ (enqueue n s).link.slot = s.link.slot
    ∧ (enqueue n s).link.owed = s.link.owed ∧ (enqueue n s).link.tx = s.link.tx
    ∧ (enqueue n s).link.enabled = s.link.enabled ∧ (enqueue n s).link.gap = s.link.gap ∧ (enqueue n s).site = s.site
    ∧ (enqueue n s).rate = s.rate ∧ (enqueue n s).lock = s.lock ∧ (enqueue n s).store = s.store
    ∧ (enqueue n s).failed = s.failed ∧ (enqueue n s).images = s.images ∧ (enqueue n s).net = s.net
    ∧ (enqueue n s).routes = s.routes ∧ (enqueue n s).engine = s.engine ∧ (enqueue n s).ring = s.ring
    ∧ (enqueue n s).bus = s.bus ∧ (enqueue n s).cards = s.cards ∧ (enqueue n s).fixtures = s.fixtures
    ∧ (enqueue n s).loops = s.loops ∧ (enqueue n s).latch = s.latch ∧ (enqueue n s).records = s.records
    ∧ (enqueue n s).muteAck = s.muteAck := by
  first
  | (simp [enqueue]; done)
  | (simp only [enqueue]; (repeat' split) <;> simp_all; done)
  | (unfold enqueue; simp only []; (repeat' split) <;> simp_all; done)

@[simp] theorem notify_keeps (n : Notice) (s : State) :
    (notify n s).pending = s.pending ∧ (notify n s).phase = s.phase ∧ (notify n s).cause = s.cause
    ∧ (notify n s).free = s.free ∧ (notify n s).link.lines = s.link.lines ∧ (notify n s).link.hold = s.link.hold
    ∧ (notify n s).link.held = s.link.held ∧ (notify n s).link.slot = s.link.slot
    ∧ (notify n s).link.owed = s.link.owed ∧ (notify n s).link.tx = s.link.tx
    ∧ (notify n s).link.enabled = s.link.enabled ∧ (notify n s).link.gap = s.link.gap ∧ (notify n s).site = s.site
    ∧ (notify n s).rate = s.rate ∧ (notify n s).lock = s.lock ∧ (notify n s).store = s.store
    ∧ (notify n s).failed = s.failed ∧ (notify n s).images = s.images ∧ (notify n s).net = s.net
    ∧ (notify n s).routes = s.routes ∧ (notify n s).engine = s.engine ∧ (notify n s).ring = s.ring
    ∧ (notify n s).bus = s.bus ∧ (notify n s).cards = s.cards ∧ (notify n s).fixtures = s.fixtures
    ∧ (notify n s).loops = s.loops ∧ (notify n s).latch = s.latch ∧ (notify n s).records = s.records
    ∧ (notify n s).muteAck = s.muteAck := by
  first
  | (simp [notify]; done)
  | (simp only [notify]; (repeat' split) <;> simp_all; done)
  | (unfold notify; simp only []; (repeat' split) <;> simp_all; done)

@[simp] theorem stepEntry_keeps (index : Nat) (pass : Nat) (s : State) :
    (stepEntry index pass s).pending = s.pending ∧ (stepEntry index pass s).phase = s.phase
    ∧ (stepEntry index pass s).cause = s.cause ∧ (stepEntry index pass s).free = s.free
    ∧ (stepEntry index pass s).link.lines = s.link.lines ∧ (stepEntry index pass s).link.hold = s.link.hold
    ∧ (stepEntry index pass s).link.held = s.link.held ∧ (stepEntry index pass s).link.slot = s.link.slot
    ∧ (stepEntry index pass s).link.owed = s.link.owed ∧ (stepEntry index pass s).link.tx = s.link.tx
    ∧ (stepEntry index pass s).link.enabled = s.link.enabled ∧ (stepEntry index pass s).site = s.site
    ∧ (stepEntry index pass s).rate = s.rate ∧ (stepEntry index pass s).lock = s.lock
    ∧ (stepEntry index pass s).store = s.store ∧ (stepEntry index pass s).failed = s.failed
    ∧ (stepEntry index pass s).images = s.images ∧ (stepEntry index pass s).net = s.net
    ∧ (stepEntry index pass s).routes = s.routes ∧ (stepEntry index pass s).engine = s.engine
    ∧ (stepEntry index pass s).ring = s.ring ∧ (stepEntry index pass s).bus = s.bus
    ∧ (stepEntry index pass s).cards = s.cards ∧ (stepEntry index pass s).fixtures = s.fixtures
    ∧ (stepEntry index pass s).loops = s.loops ∧ (stepEntry index pass s).latch = s.latch
    ∧ (stepEntry index pass s).records = s.records ∧ (stepEntry index pass s).muteAck = s.muteAck := by
  first
  | (simp [stepEntry]; done)
  | (simp only [stepEntry]; (repeat' split) <;> simp_all; done)
  | (unfold stepEntry; simp only []; (repeat' split) <;> simp_all; done)

@[simp] theorem placeReply_keeps (o : OutReply) (s : State) :
    (placeReply o s).pending = s.pending ∧ (placeReply o s).phase = s.phase ∧ (placeReply o s).cause = s.cause
    ∧ (placeReply o s).free = s.free ∧ (placeReply o s).link.lines = s.link.lines
    ∧ (placeReply o s).link.hold = s.link.hold ∧ (placeReply o s).link.notices = s.link.notices
    ∧ (placeReply o s).link.owed = s.link.owed ∧ (placeReply o s).link.tx = s.link.tx
    ∧ (placeReply o s).link.lost = s.link.lost ∧ (placeReply o s).link.enabled = s.link.enabled
    ∧ (placeReply o s).link.gap = s.link.gap ∧ (placeReply o s).site = s.site ∧ (placeReply o s).rate = s.rate
    ∧ (placeReply o s).lock = s.lock ∧ (placeReply o s).store = s.store ∧ (placeReply o s).failed = s.failed
    ∧ (placeReply o s).images = s.images ∧ (placeReply o s).net = s.net ∧ (placeReply o s).routes = s.routes
    ∧ (placeReply o s).engine = s.engine ∧ (placeReply o s).ring = s.ring ∧ (placeReply o s).bus = s.bus
    ∧ (placeReply o s).cards = s.cards ∧ (placeReply o s).fixtures = s.fixtures ∧ (placeReply o s).loops = s.loops
    ∧ (placeReply o s).latch = s.latch ∧ (placeReply o s).records = s.records ∧ (placeReply o s).muteAck = s.muteAck
    := by
  first
  | (simp [placeReply]; done)
  | (simp only [placeReply]; (repeat' split) <;> simp_all; done)
  | (unfold placeReply; simp only []; (repeat' split) <;> simp_all; done)

@[simp] theorem answer_keeps (plus : Bool) (r : Reply) (s : State) :
    (answer plus r s).pending = s.pending ∧ (answer plus r s).phase = s.phase ∧ (answer plus r s).cause = s.cause
    ∧ (answer plus r s).free = s.free ∧ (answer plus r s).link.lines = s.link.lines
    ∧ (answer plus r s).link.hold = s.link.hold ∧ (answer plus r s).link.notices = s.link.notices
    ∧ (answer plus r s).link.owed = s.link.owed ∧ (answer plus r s).link.tx = s.link.tx
    ∧ (answer plus r s).link.lost = s.link.lost ∧ (answer plus r s).link.enabled = s.link.enabled
    ∧ (answer plus r s).link.gap = s.link.gap ∧ (answer plus r s).site = s.site ∧ (answer plus r s).rate = s.rate
    ∧ (answer plus r s).lock = s.lock ∧ (answer plus r s).store = s.store ∧ (answer plus r s).failed = s.failed
    ∧ (answer plus r s).images = s.images ∧ (answer plus r s).net = s.net ∧ (answer plus r s).routes = s.routes
    ∧ (answer plus r s).engine = s.engine ∧ (answer plus r s).ring = s.ring ∧ (answer plus r s).bus = s.bus
    ∧ (answer plus r s).cards = s.cards ∧ (answer plus r s).fixtures = s.fixtures ∧ (answer plus r s).loops = s.loops
    ∧ (answer plus r s).latch = s.latch ∧ (answer plus r s).records = s.records
    ∧ (answer plus r s).muteAck = s.muteAck := by
  first
  | (simp [answer]; done)
  | (simp only [answer]; (repeat' split) <;> simp_all; done)
  | (unfold answer; simp only []; (repeat' split) <;> simp_all; done)

@[simp] theorem opEnded_keeps (o : Op) (s : State) :
    (opEnded o s).pending = s.pending ∧ (opEnded o s).phase = s.phase ∧ (opEnded o s).cause = s.cause
    ∧ (opEnded o s).free = s.free ∧ (opEnded o s).link.lines = s.link.lines ∧ (opEnded o s).link.held = s.link.held
    ∧ (opEnded o s).link.slot = s.link.slot ∧ (opEnded o s).link.notices = s.link.notices
    ∧ (opEnded o s).link.owed = s.link.owed ∧ (opEnded o s).link.tx = s.link.tx
    ∧ (opEnded o s).link.lost = s.link.lost ∧ (opEnded o s).link.enabled = s.link.enabled
    ∧ (opEnded o s).link.gap = s.link.gap ∧ (opEnded o s).site = s.site ∧ (opEnded o s).rate = s.rate
    ∧ (opEnded o s).lock = s.lock ∧ (opEnded o s).store = s.store ∧ (opEnded o s).failed = s.failed
    ∧ (opEnded o s).images = s.images ∧ (opEnded o s).net = s.net ∧ (opEnded o s).routes = s.routes
    ∧ (opEnded o s).engine = s.engine ∧ (opEnded o s).ring = s.ring ∧ (opEnded o s).bus = s.bus
    ∧ (opEnded o s).cards = s.cards ∧ (opEnded o s).fixtures = s.fixtures ∧ (opEnded o s).loops = s.loops
    ∧ (opEnded o s).latch = s.latch ∧ (opEnded o s).records = s.records ∧ (opEnded o s).muteAck = s.muteAck := by
  first
  | (simp [opEnded]; done)
  | (simp only [opEnded]; (repeat' split) <;> simp_all; done)
  | (unfold opEnded; simp only []; (repeat' split) <;> simp_all; done)

@[simp] theorem recordFault_keeps (f : FaultRec) (s : State) :
    (recordFault f s).pending = s.pending ∧ (recordFault f s).phase = s.phase ∧ (recordFault f s).cause = s.cause
    ∧ (recordFault f s).free = s.free ∧ (recordFault f s).link.lines = s.link.lines
    ∧ (recordFault f s).link.hold = s.link.hold ∧ (recordFault f s).link.held = s.link.held
    ∧ (recordFault f s).link.slot = s.link.slot ∧ (recordFault f s).link.owed = s.link.owed
    ∧ (recordFault f s).link.tx = s.link.tx ∧ (recordFault f s).link.enabled = s.link.enabled
    ∧ (recordFault f s).link.gap = s.link.gap ∧ (recordFault f s).site = s.site ∧ (recordFault f s).rate = s.rate
    ∧ (recordFault f s).lock = s.lock ∧ (recordFault f s).store = s.store ∧ (recordFault f s).failed = s.failed
    ∧ (recordFault f s).images = s.images ∧ (recordFault f s).net = s.net ∧ (recordFault f s).routes = s.routes
    ∧ (recordFault f s).engine = s.engine ∧ (recordFault f s).ring = s.ring ∧ (recordFault f s).bus = s.bus
    ∧ (recordFault f s).cards = s.cards ∧ (recordFault f s).fixtures = s.fixtures ∧ (recordFault f s).loops = s.loops
    ∧ (recordFault f s).latch = s.latch ∧ (recordFault f s).records.late = s.records.late
    ∧ (recordFault f s).records.wear = s.records.wear ∧ (recordFault f s).muteAck = s.muteAck := by
  first
  | (simp [recordFault]; done)
  | (simp only [recordFault]; (repeat' split) <;> simp_all; done)
  | (unfold recordFault; simp only []; (repeat' split) <;> simp_all; done)

@[simp] theorem countDrive_keeps (e : Nat) (s : State) :
    (countDrive e s).pending = s.pending ∧ (countDrive e s).phase = s.phase ∧ (countDrive e s).cause = s.cause
    ∧ (countDrive e s).free = s.free ∧ (countDrive e s).link.lines = s.link.lines
    ∧ (countDrive e s).link.hold = s.link.hold ∧ (countDrive e s).link.held = s.link.held
    ∧ (countDrive e s).link.slot = s.link.slot ∧ (countDrive e s).link.owed = s.link.owed
    ∧ (countDrive e s).link.tx = s.link.tx ∧ (countDrive e s).link.enabled = s.link.enabled
    ∧ (countDrive e s).link.gap = s.link.gap ∧ (countDrive e s).site = s.site ∧ (countDrive e s).rate = s.rate
    ∧ (countDrive e s).lock = s.lock ∧ (countDrive e s).store = s.store ∧ (countDrive e s).failed = s.failed
    ∧ (countDrive e s).images = s.images ∧ (countDrive e s).net = s.net ∧ (countDrive e s).routes = s.routes
    ∧ (countDrive e s).engine = s.engine ∧ (countDrive e s).ring = s.ring ∧ (countDrive e s).bus = s.bus
    ∧ (countDrive e s).cards = s.cards ∧ (countDrive e s).fixtures = s.fixtures ∧ (countDrive e s).loops = s.loops
    ∧ (countDrive e s).latch = s.latch ∧ (countDrive e s).records.fault = s.records.fault
    ∧ (countDrive e s).records.more = s.records.more ∧ (countDrive e s).records.late = s.records.late
    ∧ (countDrive e s).muteAck = s.muteAck := by
  first
  | (simp [countDrive]; done)
  | (simp only [countDrive]; (repeat' split) <;> simp_all; done)
  | (unfold countDrive; simp only []; (repeat' split) <;> simp_all; done)

@[simp] theorem lateEvent_keeps (e : Nat) (s : State) :
    (lateEvent e s).pending = s.pending ∧ (lateEvent e s).phase = s.phase ∧ (lateEvent e s).cause = s.cause
    ∧ (lateEvent e s).free = s.free ∧ (lateEvent e s).link.lines = s.link.lines
    ∧ (lateEvent e s).link.hold = s.link.hold ∧ (lateEvent e s).link.held = s.link.held
    ∧ (lateEvent e s).link.slot = s.link.slot ∧ (lateEvent e s).link.owed = s.link.owed
    ∧ (lateEvent e s).link.tx = s.link.tx ∧ (lateEvent e s).link.enabled = s.link.enabled
    ∧ (lateEvent e s).link.gap = s.link.gap ∧ (lateEvent e s).site = s.site ∧ (lateEvent e s).rate = s.rate
    ∧ (lateEvent e s).lock = s.lock ∧ (lateEvent e s).store = s.store ∧ (lateEvent e s).failed = s.failed
    ∧ (lateEvent e s).images = s.images ∧ (lateEvent e s).net = s.net ∧ (lateEvent e s).routes = s.routes
    ∧ (lateEvent e s).engine = s.engine ∧ (lateEvent e s).ring = s.ring ∧ (lateEvent e s).bus = s.bus
    ∧ (lateEvent e s).cards = s.cards ∧ (lateEvent e s).fixtures = s.fixtures ∧ (lateEvent e s).loops = s.loops
    ∧ (lateEvent e s).latch = s.latch ∧ (lateEvent e s).records.fault = s.records.fault
    ∧ (lateEvent e s).records.more = s.records.more ∧ (lateEvent e s).muteAck = s.muteAck := by
  first
  | (simp [lateEvent]; done)
  | (simp only [lateEvent]; (repeat' split) <;> simp_all; done)
  | (unfold lateEvent; simp only []; (repeat' split) <;> simp_all; done)

@[simp] theorem setElem_keeps (e : Nat) (x : Elem) (s : State) :
    (setElem e x s).pending = s.pending ∧ (setElem e x s).phase = s.phase ∧ (setElem e x s).cause = s.cause
    ∧ (setElem e x s).free = s.free ∧ (setElem e x s).link = s.link ∧ (setElem e x s).site = s.site
    ∧ (setElem e x s).rate = s.rate ∧ (setElem e x s).lock = s.lock ∧ (setElem e x s).store = s.store
    ∧ (setElem e x s).failed = s.failed ∧ (setElem e x s).images = s.images ∧ (setElem e x s).net.ports = s.net.ports
    ∧ (setElem e x s).net.legs = s.net.legs ∧ (setElem e x s).net.released = s.net.released
    ∧ (setElem e x s).net.locked = s.net.locked ∧ (setElem e x s).routes = s.routes
    ∧ (setElem e x s).engine = s.engine ∧ (setElem e x s).ring = s.ring ∧ (setElem e x s).bus = s.bus
    ∧ (setElem e x s).cards = s.cards ∧ (setElem e x s).fixtures = s.fixtures ∧ (setElem e x s).loops = s.loops
    ∧ (setElem e x s).latch = s.latch ∧ (setElem e x s).records = s.records ∧ (setElem e x s).muteAck = s.muteAck :=
    by
  first
  | (simp [setElem]; done)
  | (simp only [setElem]; (repeat' split) <;> simp_all; done)
  | (unfold setElem; simp only []; (repeat' split) <;> simp_all; done)

@[simp] theorem updElem_keeps (e : Nat) (f : Elem → Elem) (s : State) :
    (updElem e f s).pending = s.pending ∧ (updElem e f s).phase = s.phase ∧ (updElem e f s).cause = s.cause
    ∧ (updElem e f s).free = s.free ∧ (updElem e f s).link = s.link ∧ (updElem e f s).site = s.site
    ∧ (updElem e f s).rate = s.rate ∧ (updElem e f s).lock = s.lock ∧ (updElem e f s).store = s.store
    ∧ (updElem e f s).failed = s.failed ∧ (updElem e f s).images = s.images ∧ (updElem e f s).net.ports = s.net.ports
    ∧ (updElem e f s).net.legs = s.net.legs ∧ (updElem e f s).net.released = s.net.released
    ∧ (updElem e f s).net.locked = s.net.locked ∧ (updElem e f s).routes = s.routes
    ∧ (updElem e f s).engine = s.engine ∧ (updElem e f s).ring = s.ring ∧ (updElem e f s).bus = s.bus
    ∧ (updElem e f s).cards = s.cards ∧ (updElem e f s).fixtures = s.fixtures ∧ (updElem e f s).loops = s.loops
    ∧ (updElem e f s).latch = s.latch ∧ (updElem e f s).records = s.records ∧ (updElem e f s).muteAck = s.muteAck :=
    by
  first
  | (simp [updElem]; done)
  | (simp only [updElem]; (repeat' split) <;> simp_all; done)
  | (unfold updElem; simp only []; (repeat' split) <;> simp_all; done)

@[simp] theorem setCard_keeps (n : Nat) (c : Card) (s : State) :
    (setCard n c s).pending = s.pending ∧ (setCard n c s).phase = s.phase ∧ (setCard n c s).cause = s.cause
    ∧ (setCard n c s).free = s.free ∧ (setCard n c s).link = s.link ∧ (setCard n c s).site = s.site
    ∧ (setCard n c s).rate = s.rate ∧ (setCard n c s).lock = s.lock ∧ (setCard n c s).store = s.store
    ∧ (setCard n c s).failed = s.failed ∧ (setCard n c s).images = s.images ∧ (setCard n c s).net = s.net
    ∧ (setCard n c s).routes = s.routes ∧ (setCard n c s).engine = s.engine ∧ (setCard n c s).ring = s.ring
    ∧ (setCard n c s).bus = s.bus ∧ (setCard n c s).fixtures = s.fixtures ∧ (setCard n c s).loops = s.loops
    ∧ (setCard n c s).latch = s.latch ∧ (setCard n c s).records = s.records ∧ (setCard n c s).muteAck = s.muteAck :=
    by
  first
  | (simp [setCard]; done)
  | (simp only [setCard]; (repeat' split) <;> simp_all; done)
  | (unfold setCard; simp only []; (repeat' split) <;> simp_all; done)

@[simp] theorem setFixture_keeps (n : Nat) (f : Fixture) (s : State) :
    (setFixture n f s).pending = s.pending ∧ (setFixture n f s).phase = s.phase ∧ (setFixture n f s).cause = s.cause
    ∧ (setFixture n f s).free = s.free ∧ (setFixture n f s).link = s.link ∧ (setFixture n f s).site = s.site
    ∧ (setFixture n f s).rate = s.rate ∧ (setFixture n f s).lock = s.lock ∧ (setFixture n f s).store = s.store
    ∧ (setFixture n f s).failed = s.failed ∧ (setFixture n f s).images = s.images ∧ (setFixture n f s).net = s.net
    ∧ (setFixture n f s).routes = s.routes ∧ (setFixture n f s).engine = s.engine ∧ (setFixture n f s).ring = s.ring
    ∧ (setFixture n f s).bus = s.bus ∧ (setFixture n f s).cards = s.cards ∧ (setFixture n f s).loops = s.loops
    ∧ (setFixture n f s).latch = s.latch ∧ (setFixture n f s).records = s.records
    ∧ (setFixture n f s).muteAck = s.muteAck := by
  first
  | (simp [setFixture]; done)
  | (simp only [setFixture]; (repeat' split) <;> simp_all; done)
  | (unfold setFixture; simp only []; (repeat' split) <;> simp_all; done)

@[simp] theorem setLoop_keeps (n : Nat) (l : Loop) (s : State) :
    (setLoop n l s).pending = s.pending ∧ (setLoop n l s).phase = s.phase ∧ (setLoop n l s).cause = s.cause
    ∧ (setLoop n l s).free = s.free ∧ (setLoop n l s).link = s.link ∧ (setLoop n l s).site = s.site
    ∧ (setLoop n l s).rate = s.rate ∧ (setLoop n l s).lock = s.lock ∧ (setLoop n l s).store = s.store
    ∧ (setLoop n l s).failed = s.failed ∧ (setLoop n l s).images = s.images ∧ (setLoop n l s).net = s.net
    ∧ (setLoop n l s).routes = s.routes ∧ (setLoop n l s).engine = s.engine ∧ (setLoop n l s).ring = s.ring
    ∧ (setLoop n l s).bus = s.bus ∧ (setLoop n l s).cards = s.cards ∧ (setLoop n l s).fixtures = s.fixtures
    ∧ (setLoop n l s).latch = s.latch ∧ (setLoop n l s).records = s.records ∧ (setLoop n l s).muteAck = s.muteAck :=
    by
  first
  | (simp [setLoop]; done)
  | (simp only [setLoop]; (repeat' split) <;> simp_all; done)
  | (unfold setLoop; simp only []; (repeat' split) <;> simp_all; done)

@[simp] theorem setTheLatch_keeps (s : State) :
    (setTheLatch s).pending = s.pending ∧ (setTheLatch s).phase = s.phase ∧ (setTheLatch s).cause = s.cause
    ∧ (setTheLatch s).free = s.free ∧ (setTheLatch s).link = s.link ∧ (setTheLatch s).site = s.site
    ∧ (setTheLatch s).rate = s.rate ∧ (setTheLatch s).lock = s.lock ∧ (setTheLatch s).store = s.store
    ∧ (setTheLatch s).failed = s.failed ∧ (setTheLatch s).images = s.images ∧ (setTheLatch s).net = s.net
    ∧ (setTheLatch s).routes = s.routes ∧ (setTheLatch s).engine = s.engine ∧ (setTheLatch s).ring = s.ring
    ∧ (setTheLatch s).bus = s.bus ∧ (setTheLatch s).cards = s.cards ∧ (setTheLatch s).fixtures = s.fixtures
    ∧ (setTheLatch s).loops = s.loops ∧ (setTheLatch s).records = s.records ∧ (setTheLatch s).muteAck = s.muteAck :=
    by
  first
  | (simp [setTheLatch]; done)
  | (simp only [setTheLatch]; (repeat' split) <;> simp_all; done)
  | (unfold setTheLatch; simp only []; (repeat' split) <;> simp_all; done)

@[simp] theorem withApplied_keeps (l : List Nat) (s : State) :
    (withApplied l s).pending = s.pending ∧ (withApplied l s).phase = s.phase ∧ (withApplied l s).cause = s.cause
    ∧ (withApplied l s).free = s.free ∧ (withApplied l s).link = s.link ∧ (withApplied l s).site = s.site
    ∧ (withApplied l s).rate = s.rate ∧ (withApplied l s).lock = s.lock ∧ (withApplied l s).store = s.store
    ∧ (withApplied l s).failed = s.failed ∧ (withApplied l s).images = s.images ∧ (withApplied l s).net = s.net
    ∧ (withApplied l s).routes = s.routes ∧ (withApplied l s).engine.mode = s.engine.mode
    ∧ (withApplied l s).engine.number = s.engine.number ∧ (withApplied l s).engine.trans = s.engine.trans
    ∧ (withApplied l s).engine.mute = s.engine.mute ∧ (withApplied l s).engine.muteTimer = s.engine.muteTimer
    ∧ (withApplied l s).engine.dropHeld = s.engine.dropHeld ∧ (withApplied l s).engine.waiting = s.engine.waiting
    ∧ (withApplied l s).engine.active = s.engine.active ∧ (withApplied l s).engine.due = s.engine.due
    ∧ (withApplied l s).engine.staging = s.engine.staging ∧ (withApplied l s).engine.survey = s.engine.survey
    ∧ (withApplied l s).engine.holder = s.engine.holder ∧ (withApplied l s).ring = s.ring
    ∧ (withApplied l s).bus = s.bus ∧ (withApplied l s).cards = s.cards ∧ (withApplied l s).fixtures = s.fixtures
    ∧ (withApplied l s).loops = s.loops ∧ (withApplied l s).latch = s.latch ∧ (withApplied l s).records = s.records
    ∧ (withApplied l s).muteAck = s.muteAck := by
  first
  | (simp [withApplied]; done)
  | (simp only [withApplied]; (repeat' split) <;> simp_all; done)
  | (unfold withApplied; simp only []; (repeat' split) <;> simp_all; done)

@[simp] theorem routeEnter_keeps (t : Nat) (r : Nat) (s : State) :
    (routeEnter t r s).pending = s.pending ∧ (routeEnter t r s).phase = s.phase ∧ (routeEnter t r s).cause = s.cause
    ∧ (routeEnter t r s).free = s.free ∧ (routeEnter t r s).link = s.link ∧ (routeEnter t r s).site = s.site
    ∧ (routeEnter t r s).rate = s.rate ∧ (routeEnter t r s).lock = s.lock ∧ (routeEnter t r s).store = s.store
    ∧ (routeEnter t r s).failed = s.failed ∧ (routeEnter t r s).images = s.images ∧ (routeEnter t r s).net = s.net
    ∧ (routeEnter t r s).engine.mode = s.engine.mode ∧ (routeEnter t r s).engine.number = s.engine.number
    ∧ (routeEnter t r s).engine.trans = s.engine.trans ∧ (routeEnter t r s).engine.mute = s.engine.mute
    ∧ (routeEnter t r s).engine.muteTimer = s.engine.muteTimer
    ∧ (routeEnter t r s).engine.dropHeld = s.engine.dropHeld ∧ (routeEnter t r s).engine.waiting = s.engine.waiting
    ∧ (routeEnter t r s).engine.active = s.engine.active ∧ (routeEnter t r s).engine.due = s.engine.due
    ∧ (routeEnter t r s).engine.staging = s.engine.staging ∧ (routeEnter t r s).engine.survey = s.engine.survey
    ∧ (routeEnter t r s).engine.holder = s.engine.holder ∧ (routeEnter t r s).ring = s.ring
    ∧ (routeEnter t r s).bus = s.bus ∧ (routeEnter t r s).cards = s.cards ∧ (routeEnter t r s).fixtures = s.fixtures
    ∧ (routeEnter t r s).loops = s.loops ∧ (routeEnter t r s).latch = s.latch
    ∧ (routeEnter t r s).records = s.records ∧ (routeEnter t r s).muteAck = s.muteAck := by
  first
  | (simp [routeEnter]; done)
  | (simp only [routeEnter]; (repeat' split) <;> simp_all; done)
  | (unfold routeEnter; simp only []; (repeat' split) <;> simp_all; done)

@[simp] theorem routeLeave_keeps (r : Nat) (s : State) :
    (routeLeave r s).pending = s.pending ∧ (routeLeave r s).phase = s.phase ∧ (routeLeave r s).cause = s.cause
    ∧ (routeLeave r s).free = s.free ∧ (routeLeave r s).link.lines = s.link.lines
    ∧ (routeLeave r s).link.hold = s.link.hold ∧ (routeLeave r s).link.held = s.link.held
    ∧ (routeLeave r s).link.slot = s.link.slot ∧ (routeLeave r s).link.owed = s.link.owed
    ∧ (routeLeave r s).link.tx = s.link.tx ∧ (routeLeave r s).link.enabled = s.link.enabled
    ∧ (routeLeave r s).link.gap = s.link.gap ∧ (routeLeave r s).site = s.site ∧ (routeLeave r s).rate = s.rate
    ∧ (routeLeave r s).lock = s.lock ∧ (routeLeave r s).store = s.store ∧ (routeLeave r s).failed = s.failed
    ∧ (routeLeave r s).images = s.images ∧ (routeLeave r s).net = s.net
    ∧ (routeLeave r s).engine.mode = s.engine.mode ∧ (routeLeave r s).engine.number = s.engine.number
    ∧ (routeLeave r s).engine.trans = s.engine.trans ∧ (routeLeave r s).engine.mute = s.engine.mute
    ∧ (routeLeave r s).engine.muteTimer = s.engine.muteTimer ∧ (routeLeave r s).engine.dropHeld = s.engine.dropHeld
    ∧ (routeLeave r s).engine.waiting = s.engine.waiting ∧ (routeLeave r s).engine.active = s.engine.active
    ∧ (routeLeave r s).engine.due = s.engine.due ∧ (routeLeave r s).engine.staging = s.engine.staging
    ∧ (routeLeave r s).engine.survey = s.engine.survey ∧ (routeLeave r s).engine.holder = s.engine.holder
    ∧ (routeLeave r s).ring = s.ring ∧ (routeLeave r s).bus = s.bus ∧ (routeLeave r s).cards = s.cards
    ∧ (routeLeave r s).fixtures = s.fixtures ∧ (routeLeave r s).loops = s.loops ∧ (routeLeave r s).latch = s.latch
    ∧ (routeLeave r s).records = s.records ∧ (routeLeave r s).muteAck = s.muteAck := by
  first
  | (simp [routeLeave]; done)
  | (simp only [routeLeave]; (repeat' split) <;> simp_all; done)
  | (unfold routeLeave; simp only []; (repeat' split) <;> simp_all; done)

@[simp] theorem tornCause_keeps (c : TearCause) (r : Nat) (s : State) :
    (tornCause c r s).pending = s.pending ∧ (tornCause c r s).phase = s.phase ∧ (tornCause c r s).cause = s.cause
    ∧ (tornCause c r s).free = s.free ∧ (tornCause c r s).link = s.link ∧ (tornCause c r s).site = s.site
    ∧ (tornCause c r s).rate = s.rate ∧ (tornCause c r s).lock = s.lock ∧ (tornCause c r s).store = s.store
    ∧ (tornCause c r s).failed = s.failed ∧ (tornCause c r s).images = s.images ∧ (tornCause c r s).net = s.net
    ∧ (tornCause c r s).engine = s.engine ∧ (tornCause c r s).ring = s.ring ∧ (tornCause c r s).bus = s.bus
    ∧ (tornCause c r s).cards = s.cards ∧ (tornCause c r s).fixtures = s.fixtures ∧ (tornCause c r s).loops = s.loops
    ∧ (tornCause c r s).latch = s.latch ∧ (tornCause c r s).records = s.records
    ∧ (tornCause c r s).muteAck = s.muteAck := by
  first
  | (simp [tornCause]; done)
  | (simp only [tornCause]; (repeat' split) <;> simp_all; done)
  | (unfold tornCause; simp only []; (repeat' split) <;> simp_all; done)

@[simp] theorem tearApplied_keeps (c : TearCause) (r : Nat) (s : State) :
    (tearApplied c r s).pending = s.pending ∧ (tearApplied c r s).phase = s.phase
    ∧ (tearApplied c r s).cause = s.cause ∧ (tearApplied c r s).free = s.free
    ∧ (tearApplied c r s).link.lines = s.link.lines ∧ (tearApplied c r s).link.hold = s.link.hold
    ∧ (tearApplied c r s).link.held = s.link.held ∧ (tearApplied c r s).link.slot = s.link.slot
    ∧ (tearApplied c r s).link.owed = s.link.owed ∧ (tearApplied c r s).link.tx = s.link.tx
    ∧ (tearApplied c r s).link.enabled = s.link.enabled ∧ (tearApplied c r s).link.gap = s.link.gap
    ∧ (tearApplied c r s).site = s.site ∧ (tearApplied c r s).rate = s.rate ∧ (tearApplied c r s).lock = s.lock
    ∧ (tearApplied c r s).store = s.store ∧ (tearApplied c r s).failed = s.failed
    ∧ (tearApplied c r s).images = s.images ∧ (tearApplied c r s).net = s.net
    ∧ (tearApplied c r s).engine.mode = s.engine.mode ∧ (tearApplied c r s).engine.number = s.engine.number
    ∧ (tearApplied c r s).engine.trans = s.engine.trans ∧ (tearApplied c r s).engine.mute = s.engine.mute
    ∧ (tearApplied c r s).engine.muteTimer = s.engine.muteTimer
    ∧ (tearApplied c r s).engine.dropHeld = s.engine.dropHeld ∧ (tearApplied c r s).engine.waiting = s.engine.waiting
    ∧ (tearApplied c r s).engine.active = s.engine.active ∧ (tearApplied c r s).engine.due = s.engine.due
    ∧ (tearApplied c r s).engine.staging = s.engine.staging ∧ (tearApplied c r s).engine.survey = s.engine.survey
    ∧ (tearApplied c r s).engine.holder = s.engine.holder ∧ (tearApplied c r s).ring = s.ring
    ∧ (tearApplied c r s).bus = s.bus ∧ (tearApplied c r s).cards = s.cards
    ∧ (tearApplied c r s).fixtures = s.fixtures ∧ (tearApplied c r s).loops = s.loops
    ∧ (tearApplied c r s).latch = s.latch ∧ (tearApplied c r s).records = s.records
    ∧ (tearApplied c r s).muteAck = s.muteAck := by
  first
  | (simp [tearApplied]; done)
  | (simp only [tearApplied]; (repeat' split) <;> simp_all; done)
  | (unfold tearApplied; simp only []; (repeat' split) <;> simp_all; done)

@[simp] theorem clearPending_keeps (s : State) :
    (clearPending s).pending = s.pending ∧ (clearPending s).phase = s.phase ∧ (clearPending s).cause = s.cause
    ∧ (clearPending s).free = s.free ∧ (clearPending s).link = s.link ∧ (clearPending s).site = s.site
    ∧ (clearPending s).rate = s.rate ∧ (clearPending s).lock = s.lock ∧ (clearPending s).store = s.store
    ∧ (clearPending s).failed = s.failed ∧ (clearPending s).images = s.images ∧ (clearPending s).net = s.net
    ∧ (clearPending s).engine = s.engine ∧ (clearPending s).ring = s.ring ∧ (clearPending s).bus = s.bus
    ∧ (clearPending s).cards = s.cards ∧ (clearPending s).fixtures = s.fixtures ∧ (clearPending s).loops = s.loops
    ∧ (clearPending s).latch = s.latch ∧ (clearPending s).records = s.records ∧ (clearPending s).muteAck = s.muteAck
    := by
  first
  | (simp [clearPending]; done)
  | (simp only [clearPending]; (repeat' split) <;> simp_all; done)
  | (unfold clearPending; simp only []; (repeat' split) <;> simp_all; done)

@[simp] theorem markPending_keeps (target : List Nat) (s : State) :
    (markPending target s).pending = s.pending ∧ (markPending target s).phase = s.phase
    ∧ (markPending target s).cause = s.cause ∧ (markPending target s).free = s.free
    ∧ (markPending target s).link = s.link ∧ (markPending target s).site = s.site
    ∧ (markPending target s).rate = s.rate ∧ (markPending target s).lock = s.lock
    ∧ (markPending target s).store = s.store ∧ (markPending target s).failed = s.failed
    ∧ (markPending target s).images = s.images ∧ (markPending target s).net = s.net
    ∧ (markPending target s).engine = s.engine ∧ (markPending target s).ring = s.ring
    ∧ (markPending target s).bus = s.bus ∧ (markPending target s).cards = s.cards
    ∧ (markPending target s).fixtures = s.fixtures ∧ (markPending target s).loops = s.loops
    ∧ (markPending target s).latch = s.latch ∧ (markPending target s).records = s.records
    ∧ (markPending target s).muteAck = s.muteAck := by
  first
  | (simp [markPending]; done)
  | (simp only [markPending]; (repeat' split) <;> simp_all; done)
  | (unfold markPending; simp only []; (repeat' split) <;> simp_all; done)

@[simp] theorem setMode_keeps (m : Mode) (s : State) :
    (setMode m s).pending = s.pending ∧ (setMode m s).phase = s.phase ∧ (setMode m s).cause = s.cause
    ∧ (setMode m s).free = s.free ∧ (setMode m s).link = s.link ∧ (setMode m s).site = s.site
    ∧ (setMode m s).rate = s.rate ∧ (setMode m s).lock = s.lock ∧ (setMode m s).store = s.store
    ∧ (setMode m s).failed = s.failed ∧ (setMode m s).images = s.images ∧ (setMode m s).net = s.net
    ∧ (setMode m s).routes = s.routes ∧ (setMode m s).engine.applied = s.engine.applied
    ∧ (setMode m s).engine.number = s.engine.number ∧ (setMode m s).engine.trans = s.engine.trans
    ∧ (setMode m s).engine.mute = s.engine.mute ∧ (setMode m s).engine.muteTimer = s.engine.muteTimer
    ∧ (setMode m s).engine.dropHeld = s.engine.dropHeld ∧ (setMode m s).engine.waiting = s.engine.waiting
    ∧ (setMode m s).engine.active = s.engine.active ∧ (setMode m s).engine.due = s.engine.due
    ∧ (setMode m s).engine.staging = s.engine.staging ∧ (setMode m s).engine.survey = s.engine.survey
    ∧ (setMode m s).engine.holder = s.engine.holder ∧ (setMode m s).ring = s.ring ∧ (setMode m s).bus = s.bus
    ∧ (setMode m s).cards = s.cards ∧ (setMode m s).fixtures = s.fixtures ∧ (setMode m s).loops = s.loops
    ∧ (setMode m s).latch = s.latch ∧ (setMode m s).records = s.records ∧ (setMode m s).muteAck = s.muteAck := by
  first
  | (simp [setMode]; done)
  | (simp only [setMode]; (repeat' split) <;> simp_all; done)
  | (unfold setMode; simp only []; (repeat' split) <;> simp_all; done)

@[simp] theorem stagingOver_keeps (s : State) :
    (stagingOver s).pending = s.pending ∧ (stagingOver s).phase = s.phase ∧ (stagingOver s).cause = s.cause
    ∧ (stagingOver s).free = s.free ∧ (stagingOver s).link.lines = s.link.lines
    ∧ (stagingOver s).link.held = s.link.held ∧ (stagingOver s).link.slot = s.link.slot
    ∧ (stagingOver s).link.notices = s.link.notices ∧ (stagingOver s).link.owed = s.link.owed
    ∧ (stagingOver s).link.tx = s.link.tx ∧ (stagingOver s).link.lost = s.link.lost
    ∧ (stagingOver s).link.enabled = s.link.enabled ∧ (stagingOver s).link.gap = s.link.gap
    ∧ (stagingOver s).site = s.site ∧ (stagingOver s).rate = s.rate ∧ (stagingOver s).lock = s.lock
    ∧ (stagingOver s).store = s.store ∧ (stagingOver s).failed = s.failed ∧ (stagingOver s).images = s.images
    ∧ (stagingOver s).net = s.net ∧ (stagingOver s).routes = s.routes ∧ (stagingOver s).engine.mode = s.engine.mode
    ∧ (stagingOver s).engine.applied = s.engine.applied ∧ (stagingOver s).engine.number = s.engine.number
    ∧ (stagingOver s).engine.trans = s.engine.trans ∧ (stagingOver s).engine.mute = s.engine.mute
    ∧ (stagingOver s).engine.muteTimer = s.engine.muteTimer ∧ (stagingOver s).engine.dropHeld = s.engine.dropHeld
    ∧ (stagingOver s).engine.waiting = s.engine.waiting ∧ (stagingOver s).engine.active = s.engine.active
    ∧ (stagingOver s).engine.due = s.engine.due ∧ (stagingOver s).engine.survey = s.engine.survey
    ∧ (stagingOver s).engine.holder = s.engine.holder ∧ (stagingOver s).ring = s.ring ∧ (stagingOver s).bus = s.bus
    ∧ (stagingOver s).cards = s.cards ∧ (stagingOver s).fixtures = s.fixtures ∧ (stagingOver s).loops = s.loops
    ∧ (stagingOver s).latch = s.latch ∧ (stagingOver s).records = s.records ∧ (stagingOver s).muteAck = s.muteAck :=
    by
  first
  | (simp [stagingOver]; done)
  | (simp only [stagingOver]; (repeat' split) <;> simp_all; done)
  | (unfold stagingOver; simp only []; (repeat' split) <;> simp_all; done)

@[simp] theorem endStaging_keeps (empty : Bool) (s : State) :
    (endStaging empty s).pending = s.pending ∧ (endStaging empty s).phase = s.phase
    ∧ (endStaging empty s).cause = s.cause ∧ (endStaging empty s).free = s.free
    ∧ (endStaging empty s).link.lines = s.link.lines ∧ (endStaging empty s).link.held = s.link.held
    ∧ (endStaging empty s).link.slot = s.link.slot ∧ (endStaging empty s).link.notices = s.link.notices
    ∧ (endStaging empty s).link.owed = s.link.owed ∧ (endStaging empty s).link.tx = s.link.tx
    ∧ (endStaging empty s).link.lost = s.link.lost ∧ (endStaging empty s).link.enabled = s.link.enabled
    ∧ (endStaging empty s).link.gap = s.link.gap ∧ (endStaging empty s).site = s.site
    ∧ (endStaging empty s).rate = s.rate ∧ (endStaging empty s).lock = s.lock ∧ (endStaging empty s).store = s.store
    ∧ (endStaging empty s).failed = s.failed ∧ (endStaging empty s).images = s.images
    ∧ (endStaging empty s).net = s.net ∧ (endStaging empty s).routes = s.routes
    ∧ (endStaging empty s).engine.applied = s.engine.applied ∧ (endStaging empty s).engine.number = s.engine.number
    ∧ (endStaging empty s).engine.trans = s.engine.trans ∧ (endStaging empty s).engine.mute = s.engine.mute
    ∧ (endStaging empty s).engine.muteTimer = s.engine.muteTimer
    ∧ (endStaging empty s).engine.dropHeld = s.engine.dropHeld
    ∧ (endStaging empty s).engine.waiting = s.engine.waiting ∧ (endStaging empty s).engine.active = s.engine.active
    ∧ (endStaging empty s).engine.due = s.engine.due ∧ (endStaging empty s).engine.survey = s.engine.survey
    ∧ (endStaging empty s).ring = s.ring ∧ (endStaging empty s).bus = s.bus ∧ (endStaging empty s).cards = s.cards
    ∧ (endStaging empty s).fixtures = s.fixtures ∧ (endStaging empty s).loops = s.loops
    ∧ (endStaging empty s).latch = s.latch ∧ (endStaging empty s).records = s.records
    ∧ (endStaging empty s).muteAck = s.muteAck := by
  first
  | (simp [endStaging]; done)
  | (simp only [endStaging]; (repeat' split) <;> simp_all; done)
  | (unfold endStaging; simp only []; (repeat' split) <;> simp_all; done)

@[simp] theorem eraseRecord_keeps (i : Nat) (s : State) :
    (eraseRecord i s).pending = s.pending ∧ (eraseRecord i s).phase = s.phase ∧ (eraseRecord i s).cause = s.cause
    ∧ (eraseRecord i s).free = s.free ∧ (eraseRecord i s).link = s.link ∧ (eraseRecord i s).site = s.site
    ∧ (eraseRecord i s).rate = s.rate ∧ (eraseRecord i s).lock = s.lock ∧ (eraseRecord i s).failed = s.failed
    ∧ (eraseRecord i s).net = s.net ∧ (eraseRecord i s).routes = s.routes ∧ (eraseRecord i s).engine = s.engine
    ∧ (eraseRecord i s).ring = s.ring ∧ (eraseRecord i s).bus = s.bus ∧ (eraseRecord i s).cards = s.cards
    ∧ (eraseRecord i s).fixtures = s.fixtures ∧ (eraseRecord i s).loops = s.loops ∧ (eraseRecord i s).latch = s.latch
    ∧ (eraseRecord i s).records = s.records ∧ (eraseRecord i s).muteAck = s.muteAck := by
  first
  | (simp [eraseRecord]; done)
  | (simp only [eraseRecord]; (repeat' split) <;> simp_all; done)
  | (unfold eraseRecord; simp only []; (repeat' split) <;> simp_all; done)

@[simp] theorem eraseRange_keeps (lo : Nat) (hi : Nat) (s : State) :
    (eraseRange lo hi s).pending = s.pending ∧ (eraseRange lo hi s).phase = s.phase
    ∧ (eraseRange lo hi s).cause = s.cause ∧ (eraseRange lo hi s).free = s.free ∧ (eraseRange lo hi s).link = s.link
    ∧ (eraseRange lo hi s).site = s.site ∧ (eraseRange lo hi s).rate = s.rate ∧ (eraseRange lo hi s).lock = s.lock
    ∧ (eraseRange lo hi s).failed = s.failed ∧ (eraseRange lo hi s).net = s.net
    ∧ (eraseRange lo hi s).routes = s.routes ∧ (eraseRange lo hi s).engine = s.engine
    ∧ (eraseRange lo hi s).ring = s.ring ∧ (eraseRange lo hi s).bus = s.bus ∧ (eraseRange lo hi s).cards = s.cards
    ∧ (eraseRange lo hi s).fixtures = s.fixtures ∧ (eraseRange lo hi s).loops = s.loops
    ∧ (eraseRange lo hi s).latch = s.latch ∧ (eraseRange lo hi s).records = s.records
    ∧ (eraseRange lo hi s).muteAck = s.muteAck := by
  first
  | (simp [eraseRange]; done)
  | (simp only [eraseRange]; (repeat' split) <;> simp_all; done)
  | (unfold eraseRange; simp only []; (repeat' split) <;> simp_all; done)

@[simp] theorem wipeAdvance_keeps (s : State) :
    (wipeAdvance s).pending = s.pending ∧ (wipeAdvance s).phase = s.phase ∧ (wipeAdvance s).cause = s.cause
    ∧ (wipeAdvance s).link.lines = s.link.lines ∧ (wipeAdvance s).link.held = s.link.held
    ∧ (wipeAdvance s).link.slot = s.link.slot ∧ (wipeAdvance s).link.notices = s.link.notices
    ∧ (wipeAdvance s).link.owed = s.link.owed ∧ (wipeAdvance s).link.tx = s.link.tx
    ∧ (wipeAdvance s).link.lost = s.link.lost ∧ (wipeAdvance s).link.enabled = s.link.enabled
    ∧ (wipeAdvance s).link.gap = s.link.gap ∧ (wipeAdvance s).site = s.site ∧ (wipeAdvance s).rate = s.rate
    ∧ (wipeAdvance s).lock = s.lock ∧ (wipeAdvance s).failed = s.failed ∧ (wipeAdvance s).net = s.net
    ∧ (wipeAdvance s).routes = s.routes ∧ (wipeAdvance s).engine = s.engine ∧ (wipeAdvance s).ring = s.ring
    ∧ (wipeAdvance s).bus = s.bus ∧ (wipeAdvance s).cards = s.cards ∧ (wipeAdvance s).fixtures = s.fixtures
    ∧ (wipeAdvance s).loops = s.loops ∧ (wipeAdvance s).latch = s.latch ∧ (wipeAdvance s).records = s.records
    ∧ (wipeAdvance s).muteAck = s.muteAck := by
  first
  | (simp [wipeAdvance]; done)
  | (simp only [wipeAdvance]; (repeat' split) <;> simp_all; done)
  | (unfold wipeAdvance; simp only []; (repeat' split) <;> simp_all; done)

@[simp] theorem putCurveRecord_keeps (c : Nat) (x : Stored Curve) (s : State) :
    (putCurveRecord c x s).pending = s.pending ∧ (putCurveRecord c x s).phase = s.phase
    ∧ (putCurveRecord c x s).cause = s.cause ∧ (putCurveRecord c x s).free = s.free
    ∧ (putCurveRecord c x s).link = s.link ∧ (putCurveRecord c x s).site = s.site
    ∧ (putCurveRecord c x s).rate = s.rate ∧ (putCurveRecord c x s).lock = s.lock
    ∧ (putCurveRecord c x s).failed = s.failed ∧ (putCurveRecord c x s).images = s.images
    ∧ (putCurveRecord c x s).net = s.net ∧ (putCurveRecord c x s).routes = s.routes
    ∧ (putCurveRecord c x s).engine = s.engine ∧ (putCurveRecord c x s).ring = s.ring
    ∧ (putCurveRecord c x s).bus = s.bus ∧ (putCurveRecord c x s).cards = s.cards
    ∧ (putCurveRecord c x s).fixtures = s.fixtures ∧ (putCurveRecord c x s).loops = s.loops
    ∧ (putCurveRecord c x s).latch = s.latch ∧ (putCurveRecord c x s).records = s.records
    ∧ (putCurveRecord c x s).muteAck = s.muteAck := by
  first
  | (simp [putCurveRecord]; done)
  | (simp only [putCurveRecord]; (repeat' split) <;> simp_all; done)
  | (unfold putCurveRecord; simp only []; (repeat' split) <;> simp_all; done)

@[simp] theorem leaveRecord_keeps (i : Nat) (x : Residue) (s : State) :
    (leaveRecord i x s).pending = s.pending ∧ (leaveRecord i x s).phase = s.phase
    ∧ (leaveRecord i x s).cause = s.cause ∧ (leaveRecord i x s).free = s.free ∧ (leaveRecord i x s).link = s.link
    ∧ (leaveRecord i x s).site = s.site ∧ (leaveRecord i x s).rate = s.rate ∧ (leaveRecord i x s).lock = s.lock
    ∧ (leaveRecord i x s).failed = s.failed ∧ (leaveRecord i x s).images = s.images ∧ (leaveRecord i x s).net = s.net
    ∧ (leaveRecord i x s).routes = s.routes ∧ (leaveRecord i x s).engine = s.engine
    ∧ (leaveRecord i x s).ring = s.ring ∧ (leaveRecord i x s).bus = s.bus ∧ (leaveRecord i x s).cards = s.cards
    ∧ (leaveRecord i x s).fixtures = s.fixtures ∧ (leaveRecord i x s).loops = s.loops
    ∧ (leaveRecord i x s).latch = s.latch ∧ (leaveRecord i x s).records = s.records
    ∧ (leaveRecord i x s).muteAck = s.muteAck := by
  first
  | (simp [leaveRecord]; done)
  | (simp only [leaveRecord]; (repeat' split) <;> simp_all; done)
  | (unfold leaveRecord; simp only []; (repeat' split) <;> simp_all; done)

@[simp] theorem leaveOne_keeps (w : StoreWrite) (x : Residue) (s : State) :
    (leaveOne w x s).pending = s.pending ∧ (leaveOne w x s).phase = s.phase ∧ (leaveOne w x s).cause = s.cause
    ∧ (leaveOne w x s).free = s.free ∧ (leaveOne w x s).link = s.link ∧ (leaveOne w x s).site = s.site
    ∧ (leaveOne w x s).rate = s.rate ∧ (leaveOne w x s).lock = s.lock ∧ (leaveOne w x s).failed = s.failed
    ∧ (leaveOne w x s).images = s.images ∧ (leaveOne w x s).net = s.net ∧ (leaveOne w x s).routes = s.routes
    ∧ (leaveOne w x s).engine = s.engine ∧ (leaveOne w x s).ring = s.ring ∧ (leaveOne w x s).bus = s.bus
    ∧ (leaveOne w x s).cards = s.cards ∧ (leaveOne w x s).fixtures = s.fixtures ∧ (leaveOne w x s).loops = s.loops
    ∧ (leaveOne w x s).latch = s.latch ∧ (leaveOne w x s).records = s.records ∧ (leaveOne w x s).muteAck = s.muteAck
    := by
  first
  | (simp [leaveOne]; done)
  | (simp only [leaveOne]; (repeat' split) <;> simp_all; done)
  | (unfold leaveOne; simp only []; (repeat' split) <;> simp_all; done)

@[simp] theorem abandonWrite_keeps (s : State) :
    (abandonWrite s).pending = s.pending ∧ (abandonWrite s).phase = s.phase ∧ (abandonWrite s).cause = s.cause
    ∧ (abandonWrite s).link.lines = s.link.lines ∧ (abandonWrite s).link.held = s.link.held
    ∧ (abandonWrite s).link.slot = s.link.slot ∧ (abandonWrite s).link.notices = s.link.notices
    ∧ (abandonWrite s).link.owed = s.link.owed ∧ (abandonWrite s).link.tx = s.link.tx
    ∧ (abandonWrite s).link.lost = s.link.lost ∧ (abandonWrite s).link.enabled = s.link.enabled
    ∧ (abandonWrite s).link.gap = s.link.gap ∧ (abandonWrite s).site = s.site ∧ (abandonWrite s).rate = s.rate
    ∧ (abandonWrite s).lock = s.lock ∧ (abandonWrite s).failed = s.failed ∧ (abandonWrite s).net = s.net
    ∧ (abandonWrite s).routes = s.routes ∧ (abandonWrite s).engine = s.engine ∧ (abandonWrite s).ring = s.ring
    ∧ (abandonWrite s).bus = s.bus ∧ (abandonWrite s).cards = s.cards ∧ (abandonWrite s).fixtures = s.fixtures
    ∧ (abandonWrite s).loops = s.loops ∧ (abandonWrite s).latch = s.latch ∧ (abandonWrite s).records = s.records
    ∧ (abandonWrite s).muteAck = s.muteAck := by
  first
  | (simp [abandonWrite]; done)
  | (simp only [abandonWrite]; (repeat' split) <;> simp_all; done)
  | (unfold abandonWrite; simp only []; (repeat' split) <;> simp_all; done)

@[simp] theorem writeSucceeds_keeps (w : StoreWrite) (s : State) :
    (writeSucceeds w s).1.pending = s.pending ∧ (writeSucceeds w s).1.phase = s.phase
    ∧ (writeSucceeds w s).1.cause = s.cause ∧ (writeSucceeds w s).1.free = s.free
    ∧ (writeSucceeds w s).1.link = s.link ∧ (writeSucceeds w s).1.rate = s.rate
    ∧ (writeSucceeds w s).1.failed = s.failed ∧ (writeSucceeds w s).1.net = s.net
    ∧ (writeSucceeds w s).1.routes = s.routes ∧ (writeSucceeds w s).1.engine = s.engine
    ∧ (writeSucceeds w s).1.ring = s.ring ∧ (writeSucceeds w s).1.bus = s.bus ∧ (writeSucceeds w s).1.cards = s.cards
    ∧ (writeSucceeds w s).1.fixtures = s.fixtures ∧ (writeSucceeds w s).1.loops = s.loops
    ∧ (writeSucceeds w s).1.latch = s.latch ∧ (writeSucceeds w s).1.records = s.records
    ∧ (writeSucceeds w s).1.muteAck = s.muteAck := by
  first
  | (simp [writeSucceeds]; done)
  | (simp only [writeSucceeds]; (repeat' split) <;> simp_all; done)
  | (unfold writeSucceeds; simp only []; (repeat' split) <;> simp_all; done)

@[simp] theorem writeFails_keeps (w : StoreWrite) (i : Nat) (x : Residue) (s : State) :
    (writeFails w i x s).1.pending = s.pending ∧ (writeFails w i x s).1.phase = s.phase
    ∧ (writeFails w i x s).1.cause = s.cause ∧ (writeFails w i x s).1.free = s.free
    ∧ (writeFails w i x s).1.link = s.link ∧ (writeFails w i x s).1.site = s.site
    ∧ (writeFails w i x s).1.rate = s.rate ∧ (writeFails w i x s).1.lock = s.lock
    ∧ (writeFails w i x s).1.failed = s.failed ∧ (writeFails w i x s).1.net = s.net
    ∧ (writeFails w i x s).1.routes = s.routes ∧ (writeFails w i x s).1.engine = s.engine
    ∧ (writeFails w i x s).1.ring = s.ring ∧ (writeFails w i x s).1.bus = s.bus
    ∧ (writeFails w i x s).1.cards = s.cards ∧ (writeFails w i x s).1.fixtures = s.fixtures
    ∧ (writeFails w i x s).1.loops = s.loops ∧ (writeFails w i x s).1.latch = s.latch
    ∧ (writeFails w i x s).1.records = s.records ∧ (writeFails w i x s).1.muteAck = s.muteAck := by
  first
  | (simp [writeFails]; done)
  | (simp only [writeFails]; (repeat' split) <;> simp_all; done)
  | (unfold writeFails; simp only []; (repeat' split) <;> simp_all; done)

/-- A halted ring keeps its table, its position, its counts, MARK_OUT and its report (R133). -/
@[simp] theorem ringHalted_keeps (c : HaltCause) (detail : Val) (g : Ring) :
    (ringHalted c detail g).steps = g.steps ∧ (ringHalted c detail g).len = g.len
    ∧ (ringHalted c detail g).ptr = g.ptr ∧ (ringHalted c detail g).visit = g.visit
    ∧ (ringHalted c detail g).pass = g.pass ∧ (ringHalted c detail g).markTimer = g.markTimer
    ∧ (ringHalted c detail g).report = g.report ∧ (ringHalted c detail g).state = .halted
    ∧ (ringHalted c detail g).halt = some (c, detail) := by
  simp [ringHalted]

/-- Staging that is ended early has nothing left to issue, and counts what it took off (R110, R114). -/
@[simp] theorem quitStaging_spec (g : Staging) :
    (quitStaging g).total = g.total ∧ (quitStaging g).todo = [] ∧ (quitStaging g).discard = g.discard
    ∧ (quitStaging g).cut = g.cut + g.todo.length := by
  simp [quitStaging]

@[simp] theorem haltRing_keeps (c : HaltCause) (detail : Val) (s : State) :
    (haltRing c detail s).pending = s.pending ∧ (haltRing c detail s).phase = s.phase
    ∧ (haltRing c detail s).cause = s.cause ∧ (haltRing c detail s).free = s.free
    ∧ (haltRing c detail s).link.lines = s.link.lines ∧ (haltRing c detail s).link.held = s.link.held
    ∧ (haltRing c detail s).link.slot = s.link.slot ∧ (haltRing c detail s).link.owed = s.link.owed
    ∧ (haltRing c detail s).link.tx = s.link.tx ∧ (haltRing c detail s).link.enabled = s.link.enabled
    ∧ (haltRing c detail s).link.gap = s.link.gap ∧ (haltRing c detail s).site = s.site
    ∧ (haltRing c detail s).rate = s.rate ∧ (haltRing c detail s).lock = s.lock
    ∧ (haltRing c detail s).store = s.store ∧ (haltRing c detail s).failed = s.failed
    ∧ (haltRing c detail s).images = s.images ∧ (haltRing c detail s).net = s.net
    ∧ (haltRing c detail s).routes = s.routes ∧ (haltRing c detail s).engine.applied = s.engine.applied
    ∧ (haltRing c detail s).engine.number = s.engine.number ∧ (haltRing c detail s).engine.trans = s.engine.trans
    ∧ (haltRing c detail s).engine.mute = s.engine.mute ∧ (haltRing c detail s).engine.muteTimer = s.engine.muteTimer
    ∧ (haltRing c detail s).engine.dropHeld = s.engine.dropHeld
    ∧ (haltRing c detail s).engine.waiting = s.engine.waiting ∧ (haltRing c detail s).engine.active = s.engine.active
    ∧ (haltRing c detail s).engine.due = s.engine.due ∧ (haltRing c detail s).engine.survey = s.engine.survey
    ∧ (haltRing c detail s).ring.steps = s.ring.steps ∧ (haltRing c detail s).ring.len = s.ring.len
    ∧ (haltRing c detail s).ring.ptr = s.ring.ptr ∧ (haltRing c detail s).ring.visit = s.ring.visit
    ∧ (haltRing c detail s).ring.pass = s.ring.pass ∧ (haltRing c detail s).ring.markTimer = s.ring.markTimer
    ∧ (haltRing c detail s).ring.report = s.ring.report ∧ (haltRing c detail s).bus = s.bus
    ∧ (haltRing c detail s).cards = s.cards ∧ (haltRing c detail s).fixtures = s.fixtures
    ∧ (haltRing c detail s).loops = s.loops ∧ (haltRing c detail s).latch = s.latch
    ∧ (haltRing c detail s).records = s.records ∧ (haltRing c detail s).muteAck = s.muteAck := by
  first
  | (simp [haltRing]; done)
  | (simp only [haltRing]; (repeat' split) <;> simp_all; done)
  | (unfold haltRing; simp only []; (repeat' split) <;> simp_all; done)

@[simp] theorem ringTorn_keeps (c : TearCause) (r : Nat) (s : State) :
    (ringTorn c r s).pending = s.pending ∧ (ringTorn c r s).phase = s.phase ∧ (ringTorn c r s).cause = s.cause
    ∧ (ringTorn c r s).free = s.free ∧ (ringTorn c r s).link.lines = s.link.lines
    ∧ (ringTorn c r s).link.held = s.link.held ∧ (ringTorn c r s).link.slot = s.link.slot
    ∧ (ringTorn c r s).link.owed = s.link.owed ∧ (ringTorn c r s).link.tx = s.link.tx
    ∧ (ringTorn c r s).link.enabled = s.link.enabled ∧ (ringTorn c r s).link.gap = s.link.gap
    ∧ (ringTorn c r s).site = s.site ∧ (ringTorn c r s).rate = s.rate ∧ (ringTorn c r s).lock = s.lock
    ∧ (ringTorn c r s).store = s.store ∧ (ringTorn c r s).failed = s.failed ∧ (ringTorn c r s).images = s.images
    ∧ (ringTorn c r s).net = s.net ∧ (ringTorn c r s).routes = s.routes
    ∧ (ringTorn c r s).engine.applied = s.engine.applied ∧ (ringTorn c r s).engine.number = s.engine.number
    ∧ (ringTorn c r s).engine.trans = s.engine.trans ∧ (ringTorn c r s).engine.mute = s.engine.mute
    ∧ (ringTorn c r s).engine.muteTimer = s.engine.muteTimer ∧ (ringTorn c r s).engine.dropHeld = s.engine.dropHeld
    ∧ (ringTorn c r s).engine.waiting = s.engine.waiting ∧ (ringTorn c r s).engine.active = s.engine.active
    ∧ (ringTorn c r s).engine.due = s.engine.due ∧ (ringTorn c r s).engine.survey = s.engine.survey
    ∧ (ringTorn c r s).ring.steps = s.ring.steps ∧ (ringTorn c r s).ring.len = s.ring.len
    ∧ (ringTorn c r s).ring.ptr = s.ring.ptr ∧ (ringTorn c r s).ring.visit = s.ring.visit
    ∧ (ringTorn c r s).ring.pass = s.ring.pass ∧ (ringTorn c r s).ring.markTimer = s.ring.markTimer
    ∧ (ringTorn c r s).ring.report = s.ring.report ∧ (ringTorn c r s).bus = s.bus ∧ (ringTorn c r s).cards = s.cards
    ∧ (ringTorn c r s).fixtures = s.fixtures ∧ (ringTorn c r s).loops = s.loops ∧ (ringTorn c r s).latch = s.latch
    ∧ (ringTorn c r s).records = s.records ∧ (ringTorn c r s).muteAck = s.muteAck := by
  first
  | (simp [ringTorn]; done)
  | (simp only [ringTorn]; (repeat' split) <;> simp_all; done)
  | (unfold ringTorn; simp only []; (repeat' split) <;> simp_all; done)

@[simp] theorem leaveStep_keeps (s : State) :
    (leaveStep s).pending = s.pending ∧ (leaveStep s).phase = s.phase ∧ (leaveStep s).cause = s.cause
    ∧ (leaveStep s).free = s.free ∧ (leaveStep s).link.lines = s.link.lines ∧ (leaveStep s).link.hold = s.link.hold
    ∧ (leaveStep s).link.held = s.link.held ∧ (leaveStep s).link.slot = s.link.slot
    ∧ (leaveStep s).link.owed = s.link.owed ∧ (leaveStep s).link.tx = s.link.tx
    ∧ (leaveStep s).link.enabled = s.link.enabled ∧ (leaveStep s).link.gap = s.link.gap ∧ (leaveStep s).site = s.site
    ∧ (leaveStep s).rate = s.rate ∧ (leaveStep s).lock = s.lock ∧ (leaveStep s).store = s.store
    ∧ (leaveStep s).failed = s.failed ∧ (leaveStep s).images = s.images ∧ (leaveStep s).net = s.net
    ∧ (leaveStep s).routes = s.routes ∧ (leaveStep s).engine = s.engine ∧ (leaveStep s).ring.steps = s.ring.steps
    ∧ (leaveStep s).ring.state = s.ring.state ∧ (leaveStep s).ring.len = s.ring.len
    ∧ (leaveStep s).ring.pendingTrig = s.ring.pendingTrig ∧ (leaveStep s).ring.overrun = s.ring.overrun
    ∧ (leaveStep s).ring.holdPending = s.ring.holdPending ∧ (leaveStep s).ring.halt = s.ring.halt
    ∧ (leaveStep s).ring.keptDwell = s.ring.keptDwell ∧ (leaveStep s).ring.markTimer = s.ring.markTimer
    ∧ (leaveStep s).ring.report = s.ring.report ∧ (leaveStep s).bus = s.bus ∧ (leaveStep s).cards = s.cards
    ∧ (leaveStep s).fixtures = s.fixtures ∧ (leaveStep s).loops = s.loops ∧ (leaveStep s).latch = s.latch
    ∧ (leaveStep s).records = s.records ∧ (leaveStep s).muteAck = s.muteAck := by
  first
  | (simp [leaveStep]; done)
  | (simp only [leaveStep]; (repeat' split) <;> simp_all; done)
  | (unfold leaveStep; simp only []; (repeat' split) <;> simp_all; done)

@[simp] theorem beginDwell_keeps (st : StepRec) (units : Nat) (s : State) :
    (beginDwell st units s).pending = s.pending ∧ (beginDwell st units s).phase = s.phase
    ∧ (beginDwell st units s).cause = s.cause ∧ (beginDwell st units s).free = s.free
    ∧ (beginDwell st units s).link = s.link ∧ (beginDwell st units s).site = s.site
    ∧ (beginDwell st units s).rate = s.rate ∧ (beginDwell st units s).lock = s.lock
    ∧ (beginDwell st units s).store = s.store ∧ (beginDwell st units s).failed = s.failed
    ∧ (beginDwell st units s).images = s.images ∧ (beginDwell st units s).net = s.net
    ∧ (beginDwell st units s).routes = s.routes ∧ (beginDwell st units s).engine = s.engine
    ∧ (beginDwell st units s).ring.steps = s.ring.steps ∧ (beginDwell st units s).ring.len = s.ring.len
    ∧ (beginDwell st units s).ring.ptr = s.ring.ptr ∧ (beginDwell st units s).ring.visit = s.ring.visit
    ∧ (beginDwell st units s).ring.pass = s.ring.pass ∧ (beginDwell st units s).ring.pendingTrig = s.ring.pendingTrig
    ∧ (beginDwell st units s).ring.overrun = s.ring.overrun
    ∧ (beginDwell st units s).ring.holdPending = s.ring.holdPending ∧ (beginDwell st units s).ring.halt = s.ring.halt
    ∧ (beginDwell st units s).ring.markTimer = s.ring.markTimer ∧ (beginDwell st units s).ring.report = s.ring.report
    ∧ (beginDwell st units s).bus = s.bus ∧ (beginDwell st units s).cards = s.cards
    ∧ (beginDwell st units s).fixtures = s.fixtures ∧ (beginDwell st units s).loops = s.loops
    ∧ (beginDwell st units s).latch = s.latch ∧ (beginDwell st units s).records = s.records
    ∧ (beginDwell st units s).muteAck = s.muteAck := by
  first
  | (simp [beginDwell]; done)
  | (simp only [beginDwell]; (repeat' split) <;> simp_all; done)
  | (unfold beginDwell; simp only []; (repeat' split) <;> simp_all; done)

@[simp] theorem afterNotice_keeps (st : StepRec) (s : State) :
    (afterNotice st s).1.pending = s.pending ∧ (afterNotice st s).1.phase = s.phase
    ∧ (afterNotice st s).1.cause = s.cause ∧ (afterNotice st s).1.free = s.free
    ∧ (afterNotice st s).1.link.lines = s.link.lines ∧ (afterNotice st s).1.link.hold = s.link.hold
    ∧ (afterNotice st s).1.link.held = s.link.held ∧ (afterNotice st s).1.link.slot = s.link.slot
    ∧ (afterNotice st s).1.link.owed = s.link.owed ∧ (afterNotice st s).1.link.tx = s.link.tx
    ∧ (afterNotice st s).1.link.enabled = s.link.enabled ∧ (afterNotice st s).1.link.gap = s.link.gap
    ∧ (afterNotice st s).1.site = s.site ∧ (afterNotice st s).1.rate = s.rate ∧ (afterNotice st s).1.lock = s.lock
    ∧ (afterNotice st s).1.store = s.store ∧ (afterNotice st s).1.failed = s.failed
    ∧ (afterNotice st s).1.images = s.images ∧ (afterNotice st s).1.net = s.net
    ∧ (afterNotice st s).1.routes = s.routes ∧ (afterNotice st s).1.engine = s.engine
    ∧ (afterNotice st s).1.ring.steps = s.ring.steps ∧ (afterNotice st s).1.ring.len = s.ring.len
    ∧ (afterNotice st s).1.ring.overrun = s.ring.overrun ∧ (afterNotice st s).1.ring.halt = s.ring.halt
    ∧ (afterNotice st s).1.ring.markTimer = s.ring.markTimer ∧ (afterNotice st s).1.ring.report = s.ring.report
    ∧ (afterNotice st s).1.bus = s.bus ∧ (afterNotice st s).1.cards = s.cards
    ∧ (afterNotice st s).1.fixtures = s.fixtures ∧ (afterNotice st s).1.loops = s.loops
    ∧ (afterNotice st s).1.latch = s.latch ∧ (afterNotice st s).1.records = s.records
    ∧ (afterNotice st s).1.muteAck = s.muteAck := by
  first
  | (simp [afterNotice]; done)
  | (simp only [afterNotice]; (repeat' split) <;> simp_all; done)
  | (unfold afterNotice; simp only []; (repeat' split) <;> simp_all; done)

@[simp] theorem entryClean_keeps (st : StepRec) (number : Nat) (s : State) :
    (entryClean st number s).1.pending = s.pending ∧ (entryClean st number s).1.phase = s.phase
    ∧ (entryClean st number s).1.cause = s.cause ∧ (entryClean st number s).1.link.lines = s.link.lines
    ∧ (entryClean st number s).1.link.held = s.link.held ∧ (entryClean st number s).1.link.slot = s.link.slot
    ∧ (entryClean st number s).1.link.owed = s.link.owed ∧ (entryClean st number s).1.link.tx = s.link.tx
    ∧ (entryClean st number s).1.link.enabled = s.link.enabled ∧ (entryClean st number s).1.site = s.site
    ∧ (entryClean st number s).1.rate = s.rate ∧ (entryClean st number s).1.lock = s.lock
    ∧ (entryClean st number s).1.failed = s.failed ∧ (entryClean st number s).1.net = s.net
    ∧ (entryClean st number s).1.routes = s.routes ∧ (entryClean st number s).1.engine.applied = s.engine.applied
    ∧ (entryClean st number s).1.engine.number = s.engine.number
    ∧ (entryClean st number s).1.engine.trans = s.engine.trans
    ∧ (entryClean st number s).1.engine.mute = s.engine.mute
    ∧ (entryClean st number s).1.engine.muteTimer = s.engine.muteTimer
    ∧ (entryClean st number s).1.engine.dropHeld = s.engine.dropHeld
    ∧ (entryClean st number s).1.engine.waiting = s.engine.waiting
    ∧ (entryClean st number s).1.engine.active = s.engine.active
    ∧ (entryClean st number s).1.engine.due = s.engine.due
    ∧ (entryClean st number s).1.engine.survey = s.engine.survey
    ∧ (entryClean st number s).1.ring.steps = s.ring.steps ∧ (entryClean st number s).1.ring.len = s.ring.len
    ∧ (entryClean st number s).1.bus = s.bus ∧ (entryClean st number s).1.cards = s.cards
    ∧ (entryClean st number s).1.fixtures = s.fixtures ∧ (entryClean st number s).1.loops = s.loops
    ∧ (entryClean st number s).1.latch = s.latch ∧ (entryClean st number s).1.records = s.records
    ∧ (entryClean st number s).1.muteAck = s.muteAck := by
  first
  | (simp [entryClean]; done)
  | (simp only [entryClean]; (repeat' split) <;> simp_all; done)
  | (unfold entryClean; simp only []; (repeat' split) <;> simp_all; done)

@[simp] theorem ringOutcome_keeps (number : Nat) (out : TransOutcome) (cause : Option EndCause) (s : State) :
    (ringOutcome number out cause s).1.pending = s.pending ∧ (ringOutcome number out cause s).1.phase = s.phase
    ∧ (ringOutcome number out cause s).1.cause = s.cause
    ∧ (ringOutcome number out cause s).1.link.lines = s.link.lines
    ∧ (ringOutcome number out cause s).1.link.held = s.link.held
    ∧ (ringOutcome number out cause s).1.link.slot = s.link.slot
    ∧ (ringOutcome number out cause s).1.link.owed = s.link.owed
    ∧ (ringOutcome number out cause s).1.link.tx = s.link.tx
    ∧ (ringOutcome number out cause s).1.link.enabled = s.link.enabled
    ∧ (ringOutcome number out cause s).1.site = s.site ∧ (ringOutcome number out cause s).1.rate = s.rate
    ∧ (ringOutcome number out cause s).1.lock = s.lock ∧ (ringOutcome number out cause s).1.failed = s.failed
    ∧ (ringOutcome number out cause s).1.net = s.net ∧ (ringOutcome number out cause s).1.routes = s.routes
    ∧ (ringOutcome number out cause s).1.engine.applied = s.engine.applied
    ∧ (ringOutcome number out cause s).1.engine.number = s.engine.number
    ∧ (ringOutcome number out cause s).1.engine.trans = s.engine.trans
    ∧ (ringOutcome number out cause s).1.engine.mute = s.engine.mute
    ∧ (ringOutcome number out cause s).1.engine.muteTimer = s.engine.muteTimer
    ∧ (ringOutcome number out cause s).1.engine.dropHeld = s.engine.dropHeld
    ∧ (ringOutcome number out cause s).1.engine.waiting = s.engine.waiting
    ∧ (ringOutcome number out cause s).1.engine.active = s.engine.active
    ∧ (ringOutcome number out cause s).1.engine.due = s.engine.due
    ∧ (ringOutcome number out cause s).1.engine.survey = s.engine.survey
    ∧ (ringOutcome number out cause s).1.ring.steps = s.ring.steps
    ∧ (ringOutcome number out cause s).1.ring.len = s.ring.len ∧ (ringOutcome number out cause s).1.bus = s.bus
    ∧ (ringOutcome number out cause s).1.cards = s.cards ∧ (ringOutcome number out cause s).1.fixtures = s.fixtures
    ∧ (ringOutcome number out cause s).1.loops = s.loops ∧ (ringOutcome number out cause s).1.latch = s.latch
    ∧ (ringOutcome number out cause s).1.records = s.records ∧ (ringOutcome number out cause s).1.muteAck = s.muteAck
    := by
  first
  | (simp [ringOutcome]; done)
  | (simp only [ringOutcome]; (repeat' split) <;> simp_all; done)
  | (unfold ringOutcome; simp only []; (repeat' split) <;> simp_all; done)

@[simp] theorem ringRefused_keeps (c : HaltCause) (detail : Val) (s : State) :
    (ringRefused c detail s).pending = s.pending ∧ (ringRefused c detail s).phase = s.phase
    ∧ (ringRefused c detail s).cause = s.cause ∧ (ringRefused c detail s).free = s.free
    ∧ (ringRefused c detail s).link.lines = s.link.lines ∧ (ringRefused c detail s).link.held = s.link.held
    ∧ (ringRefused c detail s).link.slot = s.link.slot ∧ (ringRefused c detail s).link.owed = s.link.owed
    ∧ (ringRefused c detail s).link.tx = s.link.tx ∧ (ringRefused c detail s).link.enabled = s.link.enabled
    ∧ (ringRefused c detail s).link.gap = s.link.gap ∧ (ringRefused c detail s).site = s.site
    ∧ (ringRefused c detail s).rate = s.rate ∧ (ringRefused c detail s).lock = s.lock
    ∧ (ringRefused c detail s).store = s.store ∧ (ringRefused c detail s).failed = s.failed
    ∧ (ringRefused c detail s).images = s.images ∧ (ringRefused c detail s).net = s.net
    ∧ (ringRefused c detail s).routes = s.routes ∧ (ringRefused c detail s).engine.applied = s.engine.applied
    ∧ (ringRefused c detail s).engine.number = s.engine.number
    ∧ (ringRefused c detail s).engine.trans = s.engine.trans ∧ (ringRefused c detail s).engine.mute = s.engine.mute
    ∧ (ringRefused c detail s).engine.muteTimer = s.engine.muteTimer
    ∧ (ringRefused c detail s).engine.dropHeld = s.engine.dropHeld
    ∧ (ringRefused c detail s).engine.waiting = s.engine.waiting
    ∧ (ringRefused c detail s).engine.active = s.engine.active ∧ (ringRefused c detail s).engine.due = s.engine.due
    ∧ (ringRefused c detail s).engine.survey = s.engine.survey ∧ (ringRefused c detail s).ring.steps = s.ring.steps
    ∧ (ringRefused c detail s).ring.len = s.ring.len ∧ (ringRefused c detail s).ring.ptr = s.ring.ptr
    ∧ (ringRefused c detail s).ring.visit = s.ring.visit ∧ (ringRefused c detail s).ring.pass = s.ring.pass
    ∧ (ringRefused c detail s).ring.markTimer = s.ring.markTimer
    ∧ (ringRefused c detail s).ring.report = s.ring.report ∧ (ringRefused c detail s).bus = s.bus
    ∧ (ringRefused c detail s).cards = s.cards ∧ (ringRefused c detail s).fixtures = s.fixtures
    ∧ (ringRefused c detail s).loops = s.loops ∧ (ringRefused c detail s).latch = s.latch
    ∧ (ringRefused c detail s).records = s.records ∧ (ringRefused c detail s).muteAck = s.muteAck := by
  first
  | (simp [ringRefused]; done)
  | (simp only [ringRefused]; (repeat' split) <;> simp_all; done)
  | (unfold ringRefused; simp only []; (repeat' split) <;> simp_all; done)

@[simp] theorem ringDropped_keeps (gone : List Nat) (s : State) :
    (ringDropped gone s).pending = s.pending ∧ (ringDropped gone s).phase = s.phase
    ∧ (ringDropped gone s).cause = s.cause ∧ (ringDropped gone s).free = s.free
    ∧ (ringDropped gone s).link.lines = s.link.lines ∧ (ringDropped gone s).link.held = s.link.held
    ∧ (ringDropped gone s).link.slot = s.link.slot ∧ (ringDropped gone s).link.owed = s.link.owed
    ∧ (ringDropped gone s).link.tx = s.link.tx ∧ (ringDropped gone s).link.enabled = s.link.enabled
    ∧ (ringDropped gone s).link.gap = s.link.gap ∧ (ringDropped gone s).site = s.site
    ∧ (ringDropped gone s).rate = s.rate ∧ (ringDropped gone s).lock = s.lock ∧ (ringDropped gone s).store = s.store
    ∧ (ringDropped gone s).failed = s.failed ∧ (ringDropped gone s).images = s.images
    ∧ (ringDropped gone s).net = s.net ∧ (ringDropped gone s).routes = s.routes
    ∧ (ringDropped gone s).engine.applied = s.engine.applied ∧ (ringDropped gone s).engine.number = s.engine.number
    ∧ (ringDropped gone s).engine.trans = s.engine.trans ∧ (ringDropped gone s).engine.mute = s.engine.mute
    ∧ (ringDropped gone s).engine.muteTimer = s.engine.muteTimer
    ∧ (ringDropped gone s).engine.dropHeld = s.engine.dropHeld
    ∧ (ringDropped gone s).engine.waiting = s.engine.waiting ∧ (ringDropped gone s).engine.active = s.engine.active
    ∧ (ringDropped gone s).engine.due = s.engine.due ∧ (ringDropped gone s).engine.survey = s.engine.survey
    ∧ (ringDropped gone s).ring.steps = s.ring.steps ∧ (ringDropped gone s).ring.len = s.ring.len
    ∧ (ringDropped gone s).ring.ptr = s.ring.ptr ∧ (ringDropped gone s).ring.visit = s.ring.visit
    ∧ (ringDropped gone s).ring.pass = s.ring.pass ∧ (ringDropped gone s).ring.markTimer = s.ring.markTimer
    ∧ (ringDropped gone s).ring.report = s.ring.report ∧ (ringDropped gone s).bus = s.bus
    ∧ (ringDropped gone s).cards = s.cards ∧ (ringDropped gone s).fixtures = s.fixtures
    ∧ (ringDropped gone s).loops = s.loops ∧ (ringDropped gone s).latch = s.latch
    ∧ (ringDropped gone s).records = s.records ∧ (ringDropped gone s).muteAck = s.muteAck := by
  first
  | (simp [ringDropped]; done)
  | (simp only [ringDropped]; (repeat' split) <;> simp_all; done)
  | (unfold ringDropped; simp only []; (repeat' split) <;> simp_all; done)

@[simp] theorem accept_keeps (q : Request) (s : State) :
    (accept q s).pending = s.pending ∧ (accept q s).phase = s.phase ∧ (accept q s).cause = s.cause
    ∧ (accept q s).free = s.free ∧ (accept q s).link = s.link ∧ (accept q s).site = s.site
    ∧ (accept q s).rate = s.rate ∧ (accept q s).lock = s.lock ∧ (accept q s).store = s.store
    ∧ (accept q s).failed = s.failed ∧ (accept q s).images = s.images ∧ (accept q s).net = s.net
    ∧ (accept q s).engine.applied = s.engine.applied ∧ (accept q s).engine.dropHeld = s.engine.dropHeld
    ∧ (accept q s).engine.waiting = s.engine.waiting ∧ (accept q s).engine.active = s.engine.active
    ∧ (accept q s).engine.due = s.engine.due ∧ (accept q s).engine.staging = s.engine.staging
    ∧ (accept q s).engine.survey = s.engine.survey ∧ (accept q s).engine.holder = s.engine.holder
    ∧ (accept q s).ring = s.ring ∧ (accept q s).bus = s.bus ∧ (accept q s).cards = s.cards
    ∧ (accept q s).fixtures = s.fixtures ∧ (accept q s).loops = s.loops ∧ (accept q s).latch = s.latch
    ∧ (accept q s).records = s.records ∧ (accept q s).muteAck = s.muteAck := by
  first
  | (simp [accept]; done)
  | (simp only [accept]; (repeat' split) <;> simp_all; done)
  | (unfold accept; simp only []; (repeat' split) <;> simp_all; done)

@[simp] theorem updTrans_keeps (f : Trans → Trans) (s : State) :
    (updTrans f s).pending = s.pending ∧ (updTrans f s).phase = s.phase ∧ (updTrans f s).cause = s.cause
    ∧ (updTrans f s).free = s.free ∧ (updTrans f s).link = s.link ∧ (updTrans f s).site = s.site
    ∧ (updTrans f s).rate = s.rate ∧ (updTrans f s).lock = s.lock ∧ (updTrans f s).store = s.store
    ∧ (updTrans f s).failed = s.failed ∧ (updTrans f s).images = s.images ∧ (updTrans f s).net = s.net
    ∧ (updTrans f s).routes = s.routes ∧ (updTrans f s).engine.mode = s.engine.mode
    ∧ (updTrans f s).engine.applied = s.engine.applied ∧ (updTrans f s).engine.number = s.engine.number
    ∧ (updTrans f s).engine.mute = s.engine.mute ∧ (updTrans f s).engine.muteTimer = s.engine.muteTimer
    ∧ (updTrans f s).engine.dropHeld = s.engine.dropHeld ∧ (updTrans f s).engine.waiting = s.engine.waiting
    ∧ (updTrans f s).engine.active = s.engine.active ∧ (updTrans f s).engine.due = s.engine.due
    ∧ (updTrans f s).engine.staging = s.engine.staging ∧ (updTrans f s).engine.survey = s.engine.survey
    ∧ (updTrans f s).engine.holder = s.engine.holder ∧ (updTrans f s).ring = s.ring ∧ (updTrans f s).bus = s.bus
    ∧ (updTrans f s).cards = s.cards ∧ (updTrans f s).fixtures = s.fixtures ∧ (updTrans f s).loops = s.loops
    ∧ (updTrans f s).latch = s.latch ∧ (updTrans f s).records = s.records ∧ (updTrans f s).muteAck = s.muteAck := by
  first
  | (simp [updTrans]; done)
  | (simp only [updTrans]; (repeat' split) <;> simp_all; done)
  | (unfold updTrans; simp only []; (repeat' split) <;> simp_all; done)

@[simp] theorem endTransition_keeps (completed : Bool) (s : State) :
    (endTransition completed s).1.pending = s.pending ∧ (endTransition completed s).1.phase = s.phase
    ∧ (endTransition completed s).1.cause = s.cause ∧ (endTransition completed s).1.link.lines = s.link.lines
    ∧ (endTransition completed s).1.link.held = s.link.held ∧ (endTransition completed s).1.link.slot = s.link.slot
    ∧ (endTransition completed s).1.link.owed = s.link.owed ∧ (endTransition completed s).1.link.tx = s.link.tx
    ∧ (endTransition completed s).1.link.enabled = s.link.enabled ∧ (endTransition completed s).1.site = s.site
    ∧ (endTransition completed s).1.rate = s.rate ∧ (endTransition completed s).1.lock = s.lock
    ∧ (endTransition completed s).1.failed = s.failed ∧ (endTransition completed s).1.net = s.net
    ∧ (endTransition completed s).1.engine.number = s.engine.number
    ∧ (endTransition completed s).1.engine.dropHeld = s.engine.dropHeld
    ∧ (endTransition completed s).1.engine.waiting = s.engine.waiting
    ∧ (endTransition completed s).1.engine.active = s.engine.active
    ∧ (endTransition completed s).1.engine.due = s.engine.due
    ∧ (endTransition completed s).1.engine.survey = s.engine.survey
    ∧ (endTransition completed s).1.ring.steps = s.ring.steps ∧ (endTransition completed s).1.ring.len = s.ring.len
    ∧ (endTransition completed s).1.bus = s.bus ∧ (endTransition completed s).1.cards = s.cards
    ∧ (endTransition completed s).1.fixtures = s.fixtures ∧ (endTransition completed s).1.loops = s.loops
    ∧ (endTransition completed s).1.records = s.records ∧ (endTransition completed s).1.muteAck = s.muteAck := by
  first
  | (simp [endTransition]; done)
  | (simp only [endTransition]; (repeat' split) <;> simp_all; done)
  | (unfold endTransition; simp only []; (repeat' split) <;> simp_all; done)

@[simp] theorem phaseAdvance_keeps (s : State) :
    (phaseAdvance s).1.pending = s.pending ∧ (phaseAdvance s).1.phase = s.phase ∧ (phaseAdvance s).1.cause = s.cause
    ∧ (phaseAdvance s).1.link.lines = s.link.lines ∧ (phaseAdvance s).1.link.held = s.link.held
    ∧ (phaseAdvance s).1.link.slot = s.link.slot ∧ (phaseAdvance s).1.link.owed = s.link.owed
    ∧ (phaseAdvance s).1.link.tx = s.link.tx ∧ (phaseAdvance s).1.link.enabled = s.link.enabled
    ∧ (phaseAdvance s).1.site = s.site ∧ (phaseAdvance s).1.rate = s.rate ∧ (phaseAdvance s).1.lock = s.lock
    ∧ (phaseAdvance s).1.failed = s.failed ∧ (phaseAdvance s).1.net = s.net
    ∧ (phaseAdvance s).1.engine.number = s.engine.number ∧ (phaseAdvance s).1.engine.dropHeld = s.engine.dropHeld
    ∧ (phaseAdvance s).1.engine.waiting = s.engine.waiting ∧ (phaseAdvance s).1.engine.active = s.engine.active
    ∧ (phaseAdvance s).1.engine.due = s.engine.due ∧ (phaseAdvance s).1.engine.survey = s.engine.survey
    ∧ (phaseAdvance s).1.ring.steps = s.ring.steps ∧ (phaseAdvance s).1.ring.len = s.ring.len
    ∧ (phaseAdvance s).1.bus = s.bus ∧ (phaseAdvance s).1.cards = s.cards ∧ (phaseAdvance s).1.fixtures = s.fixtures
    ∧ (phaseAdvance s).1.loops = s.loops ∧ (phaseAdvance s).1.records = s.records
    ∧ (phaseAdvance s).1.muteAck = s.muteAck := by
  first
  | (simp [phaseAdvance]; done)
  | (simp only [phaseAdvance]; (repeat' split) <;> simp_all; done)
  | (unfold phaseAdvance; simp only []; (repeat' split) <;> simp_all; done)

@[simp] theorem leaveOld_keeps (t : Trans) (s : State) :
    (leaveOld t s).pending = s.pending ∧ (leaveOld t s).phase = s.phase ∧ (leaveOld t s).cause = s.cause
    ∧ (leaveOld t s).free = s.free ∧ (leaveOld t s).link.lines = s.link.lines
    ∧ (leaveOld t s).link.held = s.link.held ∧ (leaveOld t s).link.slot = s.link.slot
    ∧ (leaveOld t s).link.owed = s.link.owed ∧ (leaveOld t s).link.tx = s.link.tx
    ∧ (leaveOld t s).link.enabled = s.link.enabled ∧ (leaveOld t s).link.gap = s.link.gap
    ∧ (leaveOld t s).site = s.site ∧ (leaveOld t s).rate = s.rate ∧ (leaveOld t s).lock = s.lock
    ∧ (leaveOld t s).store = s.store ∧ (leaveOld t s).failed = s.failed ∧ (leaveOld t s).images = s.images
    ∧ (leaveOld t s).net = s.net ∧ (leaveOld t s).engine.number = s.engine.number
    ∧ (leaveOld t s).engine.trans = s.engine.trans ∧ (leaveOld t s).engine.mute = s.engine.mute
    ∧ (leaveOld t s).engine.muteTimer = s.engine.muteTimer ∧ (leaveOld t s).engine.dropHeld = s.engine.dropHeld
    ∧ (leaveOld t s).engine.waiting = s.engine.waiting ∧ (leaveOld t s).engine.active = s.engine.active
    ∧ (leaveOld t s).engine.due = s.engine.due ∧ (leaveOld t s).engine.survey = s.engine.survey
    ∧ (leaveOld t s).ring.steps = s.ring.steps ∧ (leaveOld t s).ring.len = s.ring.len
    ∧ (leaveOld t s).ring.ptr = s.ring.ptr ∧ (leaveOld t s).ring.visit = s.ring.visit
    ∧ (leaveOld t s).ring.pass = s.ring.pass ∧ (leaveOld t s).ring.markTimer = s.ring.markTimer
    ∧ (leaveOld t s).ring.report = s.ring.report ∧ (leaveOld t s).bus = s.bus ∧ (leaveOld t s).cards = s.cards
    ∧ (leaveOld t s).fixtures = s.fixtures ∧ (leaveOld t s).loops = s.loops ∧ (leaveOld t s).latch = s.latch
    ∧ (leaveOld t s).records = s.records ∧ (leaveOld t s).muteAck = s.muteAck := by
  first
  | (simp [leaveOld]; done)
  | (simp only [leaveOld]; (repeat' split) <;> simp_all; done)
  | (unfold leaveOld; simp only []; (repeat' split) <;> simp_all; done)

@[simp] theorem startBreak_keeps (s : State) :
    (startBreak s).1.pending = s.pending ∧ (startBreak s).1.phase = s.phase ∧ (startBreak s).1.cause = s.cause
    ∧ (startBreak s).1.link.lines = s.link.lines ∧ (startBreak s).1.link.held = s.link.held
    ∧ (startBreak s).1.link.slot = s.link.slot ∧ (startBreak s).1.link.owed = s.link.owed
    ∧ (startBreak s).1.link.tx = s.link.tx ∧ (startBreak s).1.link.enabled = s.link.enabled
    ∧ (startBreak s).1.site = s.site ∧ (startBreak s).1.rate = s.rate ∧ (startBreak s).1.lock = s.lock
    ∧ (startBreak s).1.failed = s.failed ∧ (startBreak s).1.net = s.net
    ∧ (startBreak s).1.engine.number = s.engine.number ∧ (startBreak s).1.engine.dropHeld = s.engine.dropHeld
    ∧ (startBreak s).1.engine.waiting = s.engine.waiting ∧ (startBreak s).1.engine.active = s.engine.active
    ∧ (startBreak s).1.engine.due = s.engine.due ∧ (startBreak s).1.engine.survey = s.engine.survey
    ∧ (startBreak s).1.ring.steps = s.ring.steps ∧ (startBreak s).1.ring.len = s.ring.len
    ∧ (startBreak s).1.bus = s.bus ∧ (startBreak s).1.cards = s.cards ∧ (startBreak s).1.fixtures = s.fixtures
    ∧ (startBreak s).1.loops = s.loops ∧ (startBreak s).1.records = s.records ∧ (startBreak s).1.muteAck = s.muteAck
    := by
  first
  | (simp [startBreak]; done)
  | (simp only [startBreak]; (repeat' split) <;> simp_all; done)
  | (unfold startBreak; simp only []; (repeat' split) <;> simp_all; done)

@[simp] theorem proceed_keeps (s : State) :
    (proceed s).1.pending = s.pending ∧ (proceed s).1.phase = s.phase ∧ (proceed s).1.cause = s.cause
    ∧ (proceed s).1.link.lines = s.link.lines ∧ (proceed s).1.link.held = s.link.held
    ∧ (proceed s).1.link.slot = s.link.slot ∧ (proceed s).1.link.owed = s.link.owed
    ∧ (proceed s).1.link.tx = s.link.tx ∧ (proceed s).1.link.enabled = s.link.enabled ∧ (proceed s).1.site = s.site
    ∧ (proceed s).1.rate = s.rate ∧ (proceed s).1.lock = s.lock ∧ (proceed s).1.failed = s.failed
    ∧ (proceed s).1.net = s.net ∧ (proceed s).1.engine.number = s.engine.number
    ∧ (proceed s).1.engine.dropHeld = s.engine.dropHeld ∧ (proceed s).1.engine.waiting = s.engine.waiting
    ∧ (proceed s).1.engine.active = s.engine.active ∧ (proceed s).1.engine.due = s.engine.due
    ∧ (proceed s).1.engine.survey = s.engine.survey ∧ (proceed s).1.ring.steps = s.ring.steps
    ∧ (proceed s).1.ring.len = s.ring.len ∧ (proceed s).1.bus = s.bus ∧ (proceed s).1.cards = s.cards
    ∧ (proceed s).1.fixtures = s.fixtures ∧ (proceed s).1.loops = s.loops ∧ (proceed s).1.records = s.records
    ∧ (proceed s).1.muteAck = s.muteAck := by
  first
  | (simp [proceed]; done)
  | (simp only [proceed]; (repeat' split) <;> simp_all; done)
  | (unfold proceed; simp only []; (repeat' split) <;> simp_all; done)

@[simp] theorem stopTransition_keeps (c : Stop) (s : State) :
    (stopTransition c s).pending = s.pending ∧ (stopTransition c s).phase = s.phase
    ∧ (stopTransition c s).cause = s.cause ∧ (stopTransition c s).free = s.free ∧ (stopTransition c s).link = s.link
    ∧ (stopTransition c s).site = s.site ∧ (stopTransition c s).rate = s.rate ∧ (stopTransition c s).lock = s.lock
    ∧ (stopTransition c s).store = s.store ∧ (stopTransition c s).failed = s.failed
    ∧ (stopTransition c s).images = s.images ∧ (stopTransition c s).net = s.net
    ∧ (stopTransition c s).routes = s.routes ∧ (stopTransition c s).engine.mode = s.engine.mode
    ∧ (stopTransition c s).engine.applied = s.engine.applied ∧ (stopTransition c s).engine.number = s.engine.number
    ∧ (stopTransition c s).engine.mute = s.engine.mute ∧ (stopTransition c s).engine.muteTimer = s.engine.muteTimer
    ∧ (stopTransition c s).engine.dropHeld = s.engine.dropHeld
    ∧ (stopTransition c s).engine.waiting = s.engine.waiting ∧ (stopTransition c s).engine.active = s.engine.active
    ∧ (stopTransition c s).engine.due = s.engine.due ∧ (stopTransition c s).engine.staging = s.engine.staging
    ∧ (stopTransition c s).engine.survey = s.engine.survey ∧ (stopTransition c s).engine.holder = s.engine.holder
    ∧ (stopTransition c s).ring = s.ring ∧ (stopTransition c s).bus = s.bus ∧ (stopTransition c s).cards = s.cards
    ∧ (stopTransition c s).fixtures = s.fixtures ∧ (stopTransition c s).loops = s.loops
    ∧ (stopTransition c s).records = s.records ∧ (stopTransition c s).muteAck = s.muteAck := by
  first
  | (simp [stopTransition]; done)
  | (simp only [stopTransition]; (repeat' split) <;> simp_all; done)
  | (unfold stopTransition; simp only []; (repeat' split) <;> simp_all; done)

@[simp] theorem stopMuting_keeps (c : Stop) (s : State) :
    (stopMuting c s).1.pending = s.pending ∧ (stopMuting c s).1.phase = s.phase ∧ (stopMuting c s).1.cause = s.cause
    ∧ (stopMuting c s).1.link.lines = s.link.lines ∧ (stopMuting c s).1.link.held = s.link.held
    ∧ (stopMuting c s).1.link.slot = s.link.slot ∧ (stopMuting c s).1.link.owed = s.link.owed
    ∧ (stopMuting c s).1.link.tx = s.link.tx ∧ (stopMuting c s).1.link.enabled = s.link.enabled
    ∧ (stopMuting c s).1.site = s.site ∧ (stopMuting c s).1.rate = s.rate ∧ (stopMuting c s).1.lock = s.lock
    ∧ (stopMuting c s).1.failed = s.failed ∧ (stopMuting c s).1.net = s.net
    ∧ (stopMuting c s).1.engine.number = s.engine.number ∧ (stopMuting c s).1.engine.dropHeld = s.engine.dropHeld
    ∧ (stopMuting c s).1.engine.waiting = s.engine.waiting ∧ (stopMuting c s).1.engine.active = s.engine.active
    ∧ (stopMuting c s).1.engine.due = s.engine.due ∧ (stopMuting c s).1.engine.survey = s.engine.survey
    ∧ (stopMuting c s).1.ring.steps = s.ring.steps ∧ (stopMuting c s).1.ring.len = s.ring.len
    ∧ (stopMuting c s).1.bus = s.bus ∧ (stopMuting c s).1.cards = s.cards ∧ (stopMuting c s).1.fixtures = s.fixtures
    ∧ (stopMuting c s).1.loops = s.loops ∧ (stopMuting c s).1.records = s.records
    ∧ (stopMuting c s).1.muteAck = s.muteAck := by
  first
  | (simp [stopMuting]; done)
  | (simp only [stopMuting]; (repeat' split) <;> simp_all; done)
  | (unfold stopMuting; simp only []; (repeat' split) <;> simp_all; done)

@[simp] theorem promoteHolder_keeps (s : State) :
    (promoteHolder s).pending = s.pending ∧ (promoteHolder s).phase = s.phase ∧ (promoteHolder s).cause = s.cause
    ∧ (promoteHolder s).free = s.free ∧ (promoteHolder s).link.lines = s.link.lines
    ∧ (promoteHolder s).link.hold = s.link.hold ∧ (promoteHolder s).link.held = s.link.held
    ∧ (promoteHolder s).link.slot = s.link.slot ∧ (promoteHolder s).link.owed = s.link.owed
    ∧ (promoteHolder s).link.tx = s.link.tx ∧ (promoteHolder s).link.enabled = s.link.enabled
    ∧ (promoteHolder s).link.gap = s.link.gap ∧ (promoteHolder s).site = s.site ∧ (promoteHolder s).rate = s.rate
    ∧ (promoteHolder s).lock = s.lock ∧ (promoteHolder s).store = s.store ∧ (promoteHolder s).failed = s.failed
    ∧ (promoteHolder s).images = s.images ∧ (promoteHolder s).net.ports = s.net.ports
    ∧ (promoteHolder s).net.legs = s.net.legs ∧ (promoteHolder s).net.released = s.net.released
    ∧ (promoteHolder s).net.locked = s.net.locked ∧ (promoteHolder s).routes = s.routes
    ∧ (promoteHolder s).engine.mode = s.engine.mode ∧ (promoteHolder s).engine.applied = s.engine.applied
    ∧ (promoteHolder s).engine.number = s.engine.number ∧ (promoteHolder s).engine.trans = s.engine.trans
    ∧ (promoteHolder s).engine.mute = s.engine.mute ∧ (promoteHolder s).engine.muteTimer = s.engine.muteTimer
    ∧ (promoteHolder s).engine.dropHeld = s.engine.dropHeld ∧ (promoteHolder s).engine.waiting = s.engine.waiting
    ∧ (promoteHolder s).engine.active = s.engine.active ∧ (promoteHolder s).engine.due = s.engine.due
    ∧ (promoteHolder s).engine.staging = s.engine.staging ∧ (promoteHolder s).engine.survey = s.engine.survey
    ∧ (promoteHolder s).ring = s.ring ∧ (promoteHolder s).bus = s.bus ∧ (promoteHolder s).cards = s.cards
    ∧ (promoteHolder s).fixtures = s.fixtures ∧ (promoteHolder s).loops = s.loops ∧ (promoteHolder s).latch = s.latch
    ∧ (promoteHolder s).records.late = s.records.late ∧ (promoteHolder s).records.wear = s.records.wear
    ∧ (promoteHolder s).muteAck = s.muteAck := by
  first
  | (simp [promoteHolder]; done)
  | (simp only [promoteHolder]; (repeat' split) <;> simp_all; done)
  | (unfold promoteHolder; simp only []; (repeat' split) <;> simp_all; done)

@[simp] theorem decideRequest_keeps (q : Request) (s : State) :
    (decideRequest q s).1.pending = s.pending ∧ (decideRequest q s).1.phase = s.phase
    ∧ (decideRequest q s).1.cause = s.cause ∧ (decideRequest q s).1.free = s.free
    ∧ (decideRequest q s).1.link.lines = s.link.lines ∧ (decideRequest q s).1.link.hold = s.link.hold
    ∧ (decideRequest q s).1.link.held = s.link.held ∧ (decideRequest q s).1.link.slot = s.link.slot
    ∧ (decideRequest q s).1.link.owed = s.link.owed ∧ (decideRequest q s).1.link.tx = s.link.tx
    ∧ (decideRequest q s).1.link.enabled = s.link.enabled ∧ (decideRequest q s).1.link.gap = s.link.gap
    ∧ (decideRequest q s).1.site = s.site ∧ (decideRequest q s).1.rate = s.rate ∧ (decideRequest q s).1.lock = s.lock
    ∧ (decideRequest q s).1.store = s.store ∧ (decideRequest q s).1.failed = s.failed
    ∧ (decideRequest q s).1.images = s.images ∧ (decideRequest q s).1.net.ports = s.net.ports
    ∧ (decideRequest q s).1.net.legs = s.net.legs ∧ (decideRequest q s).1.net.released = s.net.released
    ∧ (decideRequest q s).1.net.locked = s.net.locked ∧ (decideRequest q s).1.engine.applied = s.engine.applied
    ∧ (decideRequest q s).1.engine.dropHeld = s.engine.dropHeld
    ∧ (decideRequest q s).1.engine.waiting = s.engine.waiting ∧ (decideRequest q s).1.engine.active = s.engine.active
    ∧ (decideRequest q s).1.engine.due = s.engine.due ∧ (decideRequest q s).1.engine.staging = s.engine.staging
    ∧ (decideRequest q s).1.engine.survey = s.engine.survey ∧ (decideRequest q s).1.ring = s.ring
    ∧ (decideRequest q s).1.bus = s.bus ∧ (decideRequest q s).1.cards = s.cards
    ∧ (decideRequest q s).1.fixtures = s.fixtures ∧ (decideRequest q s).1.loops = s.loops
    ∧ (decideRequest q s).1.latch = s.latch ∧ (decideRequest q s).1.records.late = s.records.late
    ∧ (decideRequest q s).1.records.wear = s.records.wear ∧ (decideRequest q s).1.muteAck = s.muteAck := by
  first
  | (simp [decideRequest]; done)
  | (simp only [decideRequest]; (repeat' split) <;> simp_all; done)
  | (unfold decideRequest; simp only []; (repeat' split) <;> simp_all; done)

@[simp] theorem takeRequest_keeps (q : Request) (s : State) :
    (takeRequest q s).1.pending = s.pending ∧ (takeRequest q s).1.phase = s.phase
    ∧ (takeRequest q s).1.cause = s.cause ∧ (takeRequest q s).1.free = s.free
    ∧ (takeRequest q s).1.link.lines = s.link.lines ∧ (takeRequest q s).1.link.held = s.link.held
    ∧ (takeRequest q s).1.link.slot = s.link.slot ∧ (takeRequest q s).1.link.owed = s.link.owed
    ∧ (takeRequest q s).1.link.tx = s.link.tx ∧ (takeRequest q s).1.link.enabled = s.link.enabled
    ∧ (takeRequest q s).1.link.gap = s.link.gap ∧ (takeRequest q s).1.site = s.site
    ∧ (takeRequest q s).1.rate = s.rate ∧ (takeRequest q s).1.lock = s.lock ∧ (takeRequest q s).1.store = s.store
    ∧ (takeRequest q s).1.failed = s.failed ∧ (takeRequest q s).1.images = s.images
    ∧ (takeRequest q s).1.net.ports = s.net.ports ∧ (takeRequest q s).1.net.legs = s.net.legs
    ∧ (takeRequest q s).1.net.released = s.net.released ∧ (takeRequest q s).1.net.locked = s.net.locked
    ∧ (takeRequest q s).1.engine.applied = s.engine.applied ∧ (takeRequest q s).1.engine.dropHeld = s.engine.dropHeld
    ∧ (takeRequest q s).1.engine.active = s.engine.active ∧ (takeRequest q s).1.engine.due = s.engine.due
    ∧ (takeRequest q s).1.engine.survey = s.engine.survey ∧ (takeRequest q s).1.ring = s.ring
    ∧ (takeRequest q s).1.bus = s.bus ∧ (takeRequest q s).1.cards = s.cards
    ∧ (takeRequest q s).1.fixtures = s.fixtures ∧ (takeRequest q s).1.loops = s.loops
    ∧ (takeRequest q s).1.latch = s.latch ∧ (takeRequest q s).1.records.late = s.records.late
    ∧ (takeRequest q s).1.records.wear = s.records.wear ∧ (takeRequest q s).1.muteAck = s.muteAck := by
  first
  | (simp [takeRequest]; done)
  | (simp only [takeRequest]; (repeat' split) <;> simp_all; done)
  | (unfold takeRequest; simp only []; (repeat' split) <;> simp_all; done)

@[simp] theorem answerGo_keeps (r : Reply) (s : State) :
    (answerGo r s).pending = s.pending ∧ (answerGo r s).phase = s.phase ∧ (answerGo r s).cause = s.cause
    ∧ (answerGo r s).free = s.free ∧ (answerGo r s).link.lines = s.link.lines
    ∧ (answerGo r s).link.notices = s.link.notices ∧ (answerGo r s).link.owed = s.link.owed
    ∧ (answerGo r s).link.tx = s.link.tx ∧ (answerGo r s).link.lost = s.link.lost
    ∧ (answerGo r s).link.enabled = s.link.enabled ∧ (answerGo r s).link.gap = s.link.gap
    ∧ (answerGo r s).site = s.site ∧ (answerGo r s).rate = s.rate ∧ (answerGo r s).lock = s.lock
    ∧ (answerGo r s).store = s.store ∧ (answerGo r s).failed = s.failed ∧ (answerGo r s).images = s.images
    ∧ (answerGo r s).net = s.net ∧ (answerGo r s).routes = s.routes ∧ (answerGo r s).engine = s.engine
    ∧ (answerGo r s).ring = s.ring ∧ (answerGo r s).bus = s.bus ∧ (answerGo r s).cards = s.cards
    ∧ (answerGo r s).fixtures = s.fixtures ∧ (answerGo r s).loops = s.loops ∧ (answerGo r s).latch = s.latch
    ∧ (answerGo r s).records = s.records ∧ (answerGo r s).muteAck = s.muteAck := by
  first
  | (simp [answerGo]; done)
  | (simp only [answerGo]; (repeat' split) <;> simp_all; done)
  | (unfold answerGo; simp only []; (repeat' split) <;> simp_all; done)

@[simp] theorem makeDrop_keeps (s : State) :
    (makeDrop s).pending = s.pending ∧ (makeDrop s).phase = s.phase ∧ (makeDrop s).cause = s.cause
    ∧ (makeDrop s).link.lines = s.link.lines ∧ (makeDrop s).link.held = s.link.held
    ∧ (makeDrop s).link.slot = s.link.slot ∧ (makeDrop s).link.owed = s.link.owed ∧ (makeDrop s).link.tx = s.link.tx
    ∧ (makeDrop s).link.enabled = s.link.enabled ∧ (makeDrop s).site = s.site ∧ (makeDrop s).rate = s.rate
    ∧ (makeDrop s).lock = s.lock ∧ (makeDrop s).failed = s.failed ∧ (makeDrop s).net.ports = s.net.ports
    ∧ (makeDrop s).net.legs = s.net.legs ∧ (makeDrop s).net.released = s.net.released
    ∧ (makeDrop s).net.locked = s.net.locked ∧ (makeDrop s).engine.dropHeld = s.engine.dropHeld
    ∧ (makeDrop s).engine.active = s.engine.active ∧ (makeDrop s).engine.due = s.engine.due
    ∧ (makeDrop s).engine.survey = s.engine.survey ∧ (makeDrop s).ring.steps = s.ring.steps
    ∧ (makeDrop s).ring.len = s.ring.len ∧ (makeDrop s).bus = s.bus ∧ (makeDrop s).cards = s.cards
    ∧ (makeDrop s).fixtures = s.fixtures ∧ (makeDrop s).loops = s.loops ∧ (makeDrop s).records.late = s.records.late
    ∧ (makeDrop s).records.wear = s.records.wear ∧ (makeDrop s).muteAck = s.muteAck := by
  first
  | (simp [makeDrop]; done)
  | (simp only [makeDrop]; (repeat' split) <;> simp_all; done)
  | (unfold makeDrop; simp only []; (repeat' split) <;> simp_all; done)

@[simp] theorem takeHeldDrop_keeps (s : State) :
    (takeHeldDrop s).pending = s.pending ∧ (takeHeldDrop s).phase = s.phase ∧ (takeHeldDrop s).cause = s.cause
    ∧ (takeHeldDrop s).link.lines = s.link.lines ∧ (takeHeldDrop s).link.held = s.link.held
    ∧ (takeHeldDrop s).link.slot = s.link.slot ∧ (takeHeldDrop s).link.owed = s.link.owed
    ∧ (takeHeldDrop s).link.tx = s.link.tx ∧ (takeHeldDrop s).link.enabled = s.link.enabled
    ∧ (takeHeldDrop s).site = s.site ∧ (takeHeldDrop s).rate = s.rate ∧ (takeHeldDrop s).lock = s.lock
    ∧ (takeHeldDrop s).failed = s.failed ∧ (takeHeldDrop s).net.ports = s.net.ports
    ∧ (takeHeldDrop s).net.legs = s.net.legs ∧ (takeHeldDrop s).net.released = s.net.released
    ∧ (takeHeldDrop s).net.locked = s.net.locked ∧ (takeHeldDrop s).engine.active = s.engine.active
    ∧ (takeHeldDrop s).engine.due = s.engine.due ∧ (takeHeldDrop s).engine.survey = s.engine.survey
    ∧ (takeHeldDrop s).ring.steps = s.ring.steps ∧ (takeHeldDrop s).ring.len = s.ring.len
    ∧ (takeHeldDrop s).bus = s.bus ∧ (takeHeldDrop s).cards = s.cards ∧ (takeHeldDrop s).fixtures = s.fixtures
    ∧ (takeHeldDrop s).loops = s.loops ∧ (takeHeldDrop s).records.late = s.records.late
    ∧ (takeHeldDrop s).records.wear = s.records.wear ∧ (takeHeldDrop s).muteAck = s.muteAck := by
  first
  | (simp [takeHeldDrop]; done)
  | (simp only [takeHeldDrop]; (repeat' split) <;> simp_all; done)
  | (unfold takeHeldDrop; simp only []; (repeat' split) <;> simp_all; done)

@[simp] theorem callDrop_keeps (s : State) :
    (callDrop s).pending = s.pending ∧ (callDrop s).phase = s.phase ∧ (callDrop s).cause = s.cause
    ∧ (callDrop s).link.lines = s.link.lines ∧ (callDrop s).link.held = s.link.held
    ∧ (callDrop s).link.slot = s.link.slot ∧ (callDrop s).link.owed = s.link.owed ∧ (callDrop s).link.tx = s.link.tx
    ∧ (callDrop s).link.enabled = s.link.enabled ∧ (callDrop s).site = s.site ∧ (callDrop s).rate = s.rate
    ∧ (callDrop s).lock = s.lock ∧ (callDrop s).failed = s.failed ∧ (callDrop s).net.ports = s.net.ports
    ∧ (callDrop s).net.legs = s.net.legs ∧ (callDrop s).net.released = s.net.released
    ∧ (callDrop s).net.locked = s.net.locked ∧ (callDrop s).engine.active = s.engine.active
    ∧ (callDrop s).engine.due = s.engine.due ∧ (callDrop s).engine.survey = s.engine.survey
    ∧ (callDrop s).ring.steps = s.ring.steps ∧ (callDrop s).ring.len = s.ring.len ∧ (callDrop s).bus = s.bus
    ∧ (callDrop s).cards = s.cards ∧ (callDrop s).fixtures = s.fixtures ∧ (callDrop s).loops = s.loops
    ∧ (callDrop s).records.late = s.records.late ∧ (callDrop s).records.wear = s.records.wear
    ∧ (callDrop s).muteAck = s.muteAck := by
  first
  | (simp [callDrop]; done)
  | (simp only [callDrop]; (repeat' split) <;> simp_all; done)
  | (unfold callDrop; simp only []; (repeat' split) <;> simp_all; done)

@[simp] theorem beginEntry_keeps (s : State) :
    (beginEntry s).1.pending = s.pending ∧ (beginEntry s).1.phase = s.phase ∧ (beginEntry s).1.cause = s.cause
    ∧ (beginEntry s).1.free = s.free ∧ (beginEntry s).1.link.lines = s.link.lines
    ∧ (beginEntry s).1.link.held = s.link.held ∧ (beginEntry s).1.link.slot = s.link.slot
    ∧ (beginEntry s).1.link.owed = s.link.owed ∧ (beginEntry s).1.link.tx = s.link.tx
    ∧ (beginEntry s).1.link.enabled = s.link.enabled ∧ (beginEntry s).1.link.gap = s.link.gap
    ∧ (beginEntry s).1.site = s.site ∧ (beginEntry s).1.rate = s.rate ∧ (beginEntry s).1.lock = s.lock
    ∧ (beginEntry s).1.store = s.store ∧ (beginEntry s).1.failed = s.failed ∧ (beginEntry s).1.images = s.images
    ∧ (beginEntry s).1.net.ports = s.net.ports ∧ (beginEntry s).1.net.legs = s.net.legs
    ∧ (beginEntry s).1.net.released = s.net.released ∧ (beginEntry s).1.net.locked = s.net.locked
    ∧ (beginEntry s).1.engine.applied = s.engine.applied ∧ (beginEntry s).1.engine.dropHeld = s.engine.dropHeld
    ∧ (beginEntry s).1.engine.active = s.engine.active ∧ (beginEntry s).1.engine.due = s.engine.due
    ∧ (beginEntry s).1.engine.survey = s.engine.survey ∧ (beginEntry s).1.ring.steps = s.ring.steps
    ∧ (beginEntry s).1.ring.len = s.ring.len ∧ (beginEntry s).1.ring.ptr = s.ring.ptr
    ∧ (beginEntry s).1.ring.pass = s.ring.pass ∧ (beginEntry s).1.ring.markTimer = s.ring.markTimer
    ∧ (beginEntry s).1.ring.report = s.ring.report ∧ (beginEntry s).1.bus = s.bus ∧ (beginEntry s).1.cards = s.cards
    ∧ (beginEntry s).1.fixtures = s.fixtures ∧ (beginEntry s).1.loops = s.loops ∧ (beginEntry s).1.latch = s.latch
    ∧ (beginEntry s).1.records.late = s.records.late ∧ (beginEntry s).1.records.wear = s.records.wear
    ∧ (beginEntry s).1.muteAck = s.muteAck := by
  first
  | (simp [beginEntry]; done)
  | (simp only [beginEntry]; (repeat' split) <;> simp_all; done)
  | (unfold beginEntry; simp only []; (repeat' split) <;> simp_all; done)

@[simp] theorem continueEntry_keeps (r : State × Bool) :
    (continueEntry r).1.pending = r.1.pending ∧ (continueEntry r).1.phase = r.1.phase
    ∧ (continueEntry r).1.cause = r.1.cause ∧ (continueEntry r).1.link.lines = r.1.link.lines
    ∧ (continueEntry r).1.link.held = r.1.link.held ∧ (continueEntry r).1.link.slot = r.1.link.slot
    ∧ (continueEntry r).1.link.owed = r.1.link.owed ∧ (continueEntry r).1.link.tx = r.1.link.tx
    ∧ (continueEntry r).1.link.enabled = r.1.link.enabled ∧ (continueEntry r).1.site = r.1.site
    ∧ (continueEntry r).1.rate = r.1.rate ∧ (continueEntry r).1.lock = r.1.lock
    ∧ (continueEntry r).1.failed = r.1.failed ∧ (continueEntry r).1.net = r.1.net
    ∧ (continueEntry r).1.engine.number = r.1.engine.number
    ∧ (continueEntry r).1.engine.dropHeld = r.1.engine.dropHeld
    ∧ (continueEntry r).1.engine.waiting = r.1.engine.waiting ∧ (continueEntry r).1.engine.active = r.1.engine.active
    ∧ (continueEntry r).1.engine.due = r.1.engine.due ∧ (continueEntry r).1.engine.survey = r.1.engine.survey
    ∧ (continueEntry r).1.ring.steps = r.1.ring.steps ∧ (continueEntry r).1.ring.len = r.1.ring.len
    ∧ (continueEntry r).1.bus = r.1.bus ∧ (continueEntry r).1.cards = r.1.cards
    ∧ (continueEntry r).1.fixtures = r.1.fixtures ∧ (continueEntry r).1.loops = r.1.loops
    ∧ (continueEntry r).1.records = r.1.records ∧ (continueEntry r).1.muteAck = r.1.muteAck := by
  first
  | (simp [continueEntry]; done)
  | (simp only [continueEntry]; (repeat' split) <;> simp_all; done)
  | (unfold continueEntry; simp only []; (repeat' split) <;> simp_all; done)

@[simp] theorem stageGroup_keeps (group : List Nat) (s : State) :
    (stageGroup group s).pending = s.pending ∧ (stageGroup group s).phase = s.phase
    ∧ (stageGroup group s).cause = s.cause ∧ (stageGroup group s).free = s.free ∧ (stageGroup group s).link = s.link
    ∧ (stageGroup group s).site = s.site ∧ (stageGroup group s).rate = s.rate ∧ (stageGroup group s).lock = s.lock
    ∧ (stageGroup group s).store = s.store ∧ (stageGroup group s).failed = s.failed
    ∧ (stageGroup group s).images = s.images ∧ (stageGroup group s).net = s.net
    ∧ (stageGroup group s).routes = s.routes ∧ (stageGroup group s).engine.applied = s.engine.applied
    ∧ (stageGroup group s).engine.number = s.engine.number ∧ (stageGroup group s).engine.trans = s.engine.trans
    ∧ (stageGroup group s).engine.mute = s.engine.mute ∧ (stageGroup group s).engine.muteTimer = s.engine.muteTimer
    ∧ (stageGroup group s).engine.dropHeld = s.engine.dropHeld
    ∧ (stageGroup group s).engine.waiting = s.engine.waiting ∧ (stageGroup group s).engine.active = s.engine.active
    ∧ (stageGroup group s).engine.due = s.engine.due ∧ (stageGroup group s).engine.survey = s.engine.survey
    ∧ (stageGroup group s).engine.holder = s.engine.holder ∧ (stageGroup group s).ring = s.ring
    ∧ (stageGroup group s).bus = s.bus ∧ (stageGroup group s).cards = s.cards
    ∧ (stageGroup group s).fixtures = s.fixtures ∧ (stageGroup group s).loops = s.loops
    ∧ (stageGroup group s).latch = s.latch ∧ (stageGroup group s).records = s.records
    ∧ (stageGroup group s).muteAck = s.muteAck := by
  first
  | (simp [stageGroup]; done)
  | (simp only [stageGroup]; (repeat' split) <;> simp_all; done)
  | (unfold stageGroup; simp only []; (repeat' split) <;> simp_all; done)

@[simp] theorem stageNext_keeps (s : State) :
    (stageNext s).pending = s.pending ∧ (stageNext s).phase = s.phase ∧ (stageNext s).cause = s.cause
    ∧ (stageNext s).free = s.free ∧ (stageNext s).link = s.link ∧ (stageNext s).site = s.site
    ∧ (stageNext s).rate = s.rate ∧ (stageNext s).lock = s.lock ∧ (stageNext s).store = s.store
    ∧ (stageNext s).failed = s.failed ∧ (stageNext s).images = s.images ∧ (stageNext s).net = s.net
    ∧ (stageNext s).routes = s.routes ∧ (stageNext s).engine.applied = s.engine.applied
    ∧ (stageNext s).engine.number = s.engine.number ∧ (stageNext s).engine.trans = s.engine.trans
    ∧ (stageNext s).engine.mute = s.engine.mute ∧ (stageNext s).engine.muteTimer = s.engine.muteTimer
    ∧ (stageNext s).engine.dropHeld = s.engine.dropHeld ∧ (stageNext s).engine.waiting = s.engine.waiting
    ∧ (stageNext s).engine.active = s.engine.active ∧ (stageNext s).engine.due = s.engine.due
    ∧ (stageNext s).engine.survey = s.engine.survey ∧ (stageNext s).engine.holder = s.engine.holder
    ∧ (stageNext s).ring = s.ring ∧ (stageNext s).bus = s.bus ∧ (stageNext s).cards = s.cards
    ∧ (stageNext s).fixtures = s.fixtures ∧ (stageNext s).loops = s.loops ∧ (stageNext s).latch = s.latch
    ∧ (stageNext s).records = s.records ∧ (stageNext s).muteAck = s.muteAck := by
  first
  | (simp [stageNext]; done)
  | (simp only [stageNext]; (repeat' split) <;> simp_all; done)
  | (unfold stageNext; simp only []; (repeat' split) <;> simp_all; done)

@[simp] theorem resolveCheck_keeps (s : State) :
    (resolveCheck s).1.pending = s.pending ∧ (resolveCheck s).1.phase = s.phase ∧ (resolveCheck s).1.cause = s.cause
    ∧ (resolveCheck s).1.link.lines = s.link.lines ∧ (resolveCheck s).1.link.owed = s.link.owed
    ∧ (resolveCheck s).1.link.tx = s.link.tx ∧ (resolveCheck s).1.link.enabled = s.link.enabled
    ∧ (resolveCheck s).1.site = s.site ∧ (resolveCheck s).1.rate = s.rate ∧ (resolveCheck s).1.lock = s.lock
    ∧ (resolveCheck s).1.failed = s.failed ∧ (resolveCheck s).1.net.ports = s.net.ports
    ∧ (resolveCheck s).1.net.legs = s.net.legs ∧ (resolveCheck s).1.net.released = s.net.released
    ∧ (resolveCheck s).1.net.locked = s.net.locked ∧ (resolveCheck s).1.engine.dropHeld = s.engine.dropHeld
    ∧ (resolveCheck s).1.engine.active = s.engine.active ∧ (resolveCheck s).1.engine.due = s.engine.due
    ∧ (resolveCheck s).1.engine.survey = s.engine.survey ∧ (resolveCheck s).1.ring.steps = s.ring.steps
    ∧ (resolveCheck s).1.ring.len = s.ring.len ∧ (resolveCheck s).1.bus = s.bus ∧ (resolveCheck s).1.cards = s.cards
    ∧ (resolveCheck s).1.fixtures = s.fixtures ∧ (resolveCheck s).1.loops = s.loops
    ∧ (resolveCheck s).1.records.late = s.records.late ∧ (resolveCheck s).1.records.wear = s.records.wear
    ∧ (resolveCheck s).1.muteAck = s.muteAck := by
  first
  | (simp [resolveCheck]; done)
  | (simp only [resolveCheck]; (repeat' split) <;> simp_all; done)
  | (unfold resolveCheck; simp only []; (repeat' split) <;> simp_all; done)

@[simp] theorem surveyAdvance_keeps (s : State) :
    (surveyAdvance s).pending = s.pending ∧ (surveyAdvance s).phase = s.phase ∧ (surveyAdvance s).cause = s.cause
    ∧ (surveyAdvance s).free = s.free ∧ (surveyAdvance s).link.lines = s.link.lines
    ∧ (surveyAdvance s).link.held = s.link.held ∧ (surveyAdvance s).link.slot = s.link.slot
    ∧ (surveyAdvance s).link.notices = s.link.notices ∧ (surveyAdvance s).link.owed = s.link.owed
    ∧ (surveyAdvance s).link.tx = s.link.tx ∧ (surveyAdvance s).link.lost = s.link.lost
    ∧ (surveyAdvance s).link.enabled = s.link.enabled ∧ (surveyAdvance s).link.gap = s.link.gap
    ∧ (surveyAdvance s).site = s.site ∧ (surveyAdvance s).rate = s.rate ∧ (surveyAdvance s).lock = s.lock
    ∧ (surveyAdvance s).store = s.store ∧ (surveyAdvance s).failed = s.failed ∧ (surveyAdvance s).images = s.images
    ∧ (surveyAdvance s).net = s.net ∧ (surveyAdvance s).routes = s.routes
    ∧ (surveyAdvance s).engine.applied = s.engine.applied ∧ (surveyAdvance s).engine.number = s.engine.number
    ∧ (surveyAdvance s).engine.trans = s.engine.trans ∧ (surveyAdvance s).engine.mute = s.engine.mute
    ∧ (surveyAdvance s).engine.muteTimer = s.engine.muteTimer ∧ (surveyAdvance s).engine.dropHeld = s.engine.dropHeld
    ∧ (surveyAdvance s).engine.waiting = s.engine.waiting ∧ (surveyAdvance s).engine.active = s.engine.active
    ∧ (surveyAdvance s).engine.due = s.engine.due ∧ (surveyAdvance s).engine.staging = s.engine.staging
    ∧ (surveyAdvance s).engine.holder = s.engine.holder ∧ (surveyAdvance s).ring = s.ring
    ∧ (surveyAdvance s).bus = s.bus ∧ (surveyAdvance s).cards = s.cards ∧ (surveyAdvance s).fixtures = s.fixtures
    ∧ (surveyAdvance s).loops = s.loops ∧ (surveyAdvance s).latch = s.latch ∧ (surveyAdvance s).records = s.records
    ∧ (surveyAdvance s).muteAck = s.muteAck := by
  first
  | (simp [surveyAdvance]; done)
  | (simp only [surveyAdvance]; (repeat' split) <;> simp_all; done)
  | (unfold surveyAdvance; simp only []; (repeat' split) <;> simp_all; done)

@[simp] theorem advance_keeps (s : State) :
    (advance s).1.pending = s.pending ∧ (advance s).1.phase = s.phase ∧ (advance s).1.cause = s.cause
    ∧ (advance s).1.link.lines = s.link.lines ∧ (advance s).1.link.owed = s.link.owed
    ∧ (advance s).1.link.tx = s.link.tx ∧ (advance s).1.link.enabled = s.link.enabled ∧ (advance s).1.site = s.site
    ∧ (advance s).1.rate = s.rate ∧ (advance s).1.lock = s.lock ∧ (advance s).1.failed = s.failed
    ∧ (advance s).1.net.ports = s.net.ports ∧ (advance s).1.net.legs = s.net.legs
    ∧ (advance s).1.net.released = s.net.released ∧ (advance s).1.net.locked = s.net.locked
    ∧ (advance s).1.engine.dropHeld = s.engine.dropHeld ∧ (advance s).1.engine.active = s.engine.active
    ∧ (advance s).1.engine.due = s.engine.due ∧ (advance s).1.ring.steps = s.ring.steps
    ∧ (advance s).1.ring.len = s.ring.len ∧ (advance s).1.bus = s.bus ∧ (advance s).1.cards = s.cards
    ∧ (advance s).1.fixtures = s.fixtures ∧ (advance s).1.loops = s.loops
    ∧ (advance s).1.records.late = s.records.late ∧ (advance s).1.records.wear = s.records.wear
    ∧ (advance s).1.muteAck = s.muteAck := by
  first
  | (simp [advance]; done)
  | (simp only [advance]; (repeat' split) <;> simp_all; done)
  | (unfold advance; simp only []; (repeat' split) <;> simp_all; done)

@[simp] theorem abandonWaiting_keeps (c : EndCause) (s : State) :
    (abandonWaiting c s).pending = s.pending ∧ (abandonWaiting c s).phase = s.phase
    ∧ (abandonWaiting c s).cause = s.cause ∧ (abandonWaiting c s).free = s.free
    ∧ (abandonWaiting c s).link.lines = s.link.lines ∧ (abandonWaiting c s).link.owed = s.link.owed
    ∧ (abandonWaiting c s).link.tx = s.link.tx ∧ (abandonWaiting c s).link.enabled = s.link.enabled
    ∧ (abandonWaiting c s).link.gap = s.link.gap ∧ (abandonWaiting c s).site = s.site
    ∧ (abandonWaiting c s).rate = s.rate ∧ (abandonWaiting c s).lock = s.lock ∧ (abandonWaiting c s).store = s.store
    ∧ (abandonWaiting c s).failed = s.failed ∧ (abandonWaiting c s).images = s.images
    ∧ (abandonWaiting c s).net = s.net ∧ (abandonWaiting c s).routes = s.routes
    ∧ (abandonWaiting c s).engine.applied = s.engine.applied ∧ (abandonWaiting c s).engine.number = s.engine.number
    ∧ (abandonWaiting c s).engine.trans = s.engine.trans ∧ (abandonWaiting c s).engine.mute = s.engine.mute
    ∧ (abandonWaiting c s).engine.muteTimer = s.engine.muteTimer
    ∧ (abandonWaiting c s).engine.dropHeld = s.engine.dropHeld ∧ (abandonWaiting c s).engine.active = s.engine.active
    ∧ (abandonWaiting c s).engine.due = s.engine.due ∧ (abandonWaiting c s).engine.survey = s.engine.survey
    ∧ (abandonWaiting c s).ring.steps = s.ring.steps ∧ (abandonWaiting c s).ring.len = s.ring.len
    ∧ (abandonWaiting c s).ring.ptr = s.ring.ptr ∧ (abandonWaiting c s).ring.visit = s.ring.visit
    ∧ (abandonWaiting c s).ring.pass = s.ring.pass ∧ (abandonWaiting c s).ring.markTimer = s.ring.markTimer
    ∧ (abandonWaiting c s).ring.report = s.ring.report ∧ (abandonWaiting c s).bus = s.bus
    ∧ (abandonWaiting c s).cards = s.cards ∧ (abandonWaiting c s).fixtures = s.fixtures
    ∧ (abandonWaiting c s).loops = s.loops ∧ (abandonWaiting c s).latch = s.latch
    ∧ (abandonWaiting c s).records = s.records ∧ (abandonWaiting c s).muteAck = s.muteAck := by
  first
  | (simp [abandonWaiting]; done)
  | (simp only [abandonWaiting]; (repeat' split) <;> simp_all; done)
  | (unfold abandonWaiting; simp only []; (repeat' split) <;> simp_all; done)

@[simp] theorem tearAtOnce_keeps (c : TearCause) (r : Nat) (s : State) :
    (tearAtOnce c r s).pending = s.pending ∧ (tearAtOnce c r s).phase = s.phase ∧ (tearAtOnce c r s).cause = s.cause
    ∧ (tearAtOnce c r s).free = s.free ∧ (tearAtOnce c r s).link.lines = s.link.lines
    ∧ (tearAtOnce c r s).link.held = s.link.held ∧ (tearAtOnce c r s).link.slot = s.link.slot
    ∧ (tearAtOnce c r s).link.owed = s.link.owed ∧ (tearAtOnce c r s).link.tx = s.link.tx
    ∧ (tearAtOnce c r s).link.enabled = s.link.enabled ∧ (tearAtOnce c r s).link.gap = s.link.gap
    ∧ (tearAtOnce c r s).site = s.site ∧ (tearAtOnce c r s).rate = s.rate ∧ (tearAtOnce c r s).lock = s.lock
    ∧ (tearAtOnce c r s).store = s.store ∧ (tearAtOnce c r s).failed = s.failed
    ∧ (tearAtOnce c r s).images = s.images ∧ (tearAtOnce c r s).net = s.net
    ∧ (tearAtOnce c r s).engine.number = s.engine.number ∧ (tearAtOnce c r s).engine.trans = s.engine.trans
    ∧ (tearAtOnce c r s).engine.mute = s.engine.mute ∧ (tearAtOnce c r s).engine.muteTimer = s.engine.muteTimer
    ∧ (tearAtOnce c r s).engine.dropHeld = s.engine.dropHeld ∧ (tearAtOnce c r s).engine.active = s.engine.active
    ∧ (tearAtOnce c r s).engine.due = s.engine.due ∧ (tearAtOnce c r s).engine.survey = s.engine.survey
    ∧ (tearAtOnce c r s).ring.steps = s.ring.steps ∧ (tearAtOnce c r s).ring.len = s.ring.len
    ∧ (tearAtOnce c r s).ring.ptr = s.ring.ptr ∧ (tearAtOnce c r s).ring.visit = s.ring.visit
    ∧ (tearAtOnce c r s).ring.pass = s.ring.pass ∧ (tearAtOnce c r s).ring.markTimer = s.ring.markTimer
    ∧ (tearAtOnce c r s).ring.report = s.ring.report ∧ (tearAtOnce c r s).bus = s.bus
    ∧ (tearAtOnce c r s).cards = s.cards ∧ (tearAtOnce c r s).fixtures = s.fixtures
    ∧ (tearAtOnce c r s).loops = s.loops ∧ (tearAtOnce c r s).latch = s.latch
    ∧ (tearAtOnce c r s).records = s.records ∧ (tearAtOnce c r s).muteAck = s.muteAck := by
  first
  | (simp [tearAtOnce]; done)
  | (simp only [tearAtOnce]; (repeat' split) <;> simp_all; done)
  | (unfold tearAtOnce; simp only []; (repeat' split) <;> simp_all; done)

@[simp] theorem tearAll_keeps (c : TearCause) (l : List Nat) (s : State) :
    (tearAll c l s).pending = s.pending ∧ (tearAll c l s).phase = s.phase ∧ (tearAll c l s).cause = s.cause
    ∧ (tearAll c l s).free = s.free ∧ (tearAll c l s).link.lines = s.link.lines
    ∧ (tearAll c l s).link.held = s.link.held ∧ (tearAll c l s).link.slot = s.link.slot
    ∧ (tearAll c l s).link.owed = s.link.owed ∧ (tearAll c l s).link.tx = s.link.tx
    ∧ (tearAll c l s).link.enabled = s.link.enabled ∧ (tearAll c l s).link.gap = s.link.gap
    ∧ (tearAll c l s).site = s.site ∧ (tearAll c l s).rate = s.rate ∧ (tearAll c l s).lock = s.lock
    ∧ (tearAll c l s).store = s.store ∧ (tearAll c l s).failed = s.failed ∧ (tearAll c l s).images = s.images
    ∧ (tearAll c l s).net = s.net ∧ (tearAll c l s).engine.number = s.engine.number
    ∧ (tearAll c l s).engine.trans = s.engine.trans ∧ (tearAll c l s).engine.mute = s.engine.mute
    ∧ (tearAll c l s).engine.muteTimer = s.engine.muteTimer ∧ (tearAll c l s).engine.dropHeld = s.engine.dropHeld
    ∧ (tearAll c l s).engine.active = s.engine.active ∧ (tearAll c l s).engine.due = s.engine.due
    ∧ (tearAll c l s).engine.survey = s.engine.survey ∧ (tearAll c l s).ring.steps = s.ring.steps
    ∧ (tearAll c l s).ring.len = s.ring.len ∧ (tearAll c l s).ring.ptr = s.ring.ptr
    ∧ (tearAll c l s).ring.visit = s.ring.visit ∧ (tearAll c l s).ring.pass = s.ring.pass
    ∧ (tearAll c l s).ring.markTimer = s.ring.markTimer ∧ (tearAll c l s).ring.report = s.ring.report
    ∧ (tearAll c l s).bus = s.bus ∧ (tearAll c l s).cards = s.cards ∧ (tearAll c l s).fixtures = s.fixtures
    ∧ (tearAll c l s).loops = s.loops ∧ (tearAll c l s).records = s.records ∧ (tearAll c l s).muteAck = s.muteAck :=
    by
  first
  | (simp [tearAll]; done)
  | (simp only [tearAll]; (repeat' split) <;> simp_all; done)
  | (unfold tearAll; simp only []; (repeat' split) <;> simp_all; done)

@[simp] theorem dropCardDrives_keeps (n : Nat) (s : State) :
    (dropCardDrives n s).pending = s.pending ∧ (dropCardDrives n s).phase = s.phase
    ∧ (dropCardDrives n s).cause = s.cause ∧ (dropCardDrives n s).free = s.free ∧ (dropCardDrives n s).link = s.link
    ∧ (dropCardDrives n s).site = s.site ∧ (dropCardDrives n s).rate = s.rate ∧ (dropCardDrives n s).lock = s.lock
    ∧ (dropCardDrives n s).store = s.store ∧ (dropCardDrives n s).failed = s.failed
    ∧ (dropCardDrives n s).images = s.images ∧ (dropCardDrives n s).net.ports = s.net.ports
    ∧ (dropCardDrives n s).net.legs = s.net.legs ∧ (dropCardDrives n s).net.released = s.net.released
    ∧ (dropCardDrives n s).net.locked = s.net.locked ∧ (dropCardDrives n s).routes = s.routes
    ∧ (dropCardDrives n s).engine.mode = s.engine.mode ∧ (dropCardDrives n s).engine.applied = s.engine.applied
    ∧ (dropCardDrives n s).engine.number = s.engine.number ∧ (dropCardDrives n s).engine.mute = s.engine.mute
    ∧ (dropCardDrives n s).engine.muteTimer = s.engine.muteTimer
    ∧ (dropCardDrives n s).engine.dropHeld = s.engine.dropHeld
    ∧ (dropCardDrives n s).engine.waiting = s.engine.waiting ∧ (dropCardDrives n s).engine.holder = s.engine.holder
    ∧ (dropCardDrives n s).ring = s.ring ∧ (dropCardDrives n s).bus = s.bus ∧ (dropCardDrives n s).cards = s.cards
    ∧ (dropCardDrives n s).fixtures = s.fixtures ∧ (dropCardDrives n s).loops = s.loops
    ∧ (dropCardDrives n s).latch = s.latch ∧ (dropCardDrives n s).records = s.records
    ∧ (dropCardDrives n s).muteAck = s.muteAck := by
  first
  | (simp [dropCardDrives]; done)
  | (simp only [dropCardDrives]; (repeat' split) <;> simp_all; done)
  | (unfold dropCardDrives; simp only []; (repeat' split) <;> simp_all; done)

@[simp] theorem fixtureLeft_keeps (n : Nat) (s : State) :
    (fixtureLeft n s).pending = s.pending ∧ (fixtureLeft n s).phase = s.phase ∧ (fixtureLeft n s).cause = s.cause
    ∧ (fixtureLeft n s).free = s.free ∧ (fixtureLeft n s).link.lines = s.link.lines
    ∧ (fixtureLeft n s).link.held = s.link.held ∧ (fixtureLeft n s).link.slot = s.link.slot
    ∧ (fixtureLeft n s).link.owed = s.link.owed ∧ (fixtureLeft n s).link.tx = s.link.tx
    ∧ (fixtureLeft n s).link.enabled = s.link.enabled ∧ (fixtureLeft n s).link.gap = s.link.gap
    ∧ (fixtureLeft n s).site = s.site ∧ (fixtureLeft n s).rate = s.rate ∧ (fixtureLeft n s).lock = s.lock
    ∧ (fixtureLeft n s).store = s.store ∧ (fixtureLeft n s).failed = s.failed ∧ (fixtureLeft n s).images = s.images
    ∧ (fixtureLeft n s).net = s.net ∧ (fixtureLeft n s).engine.number = s.engine.number
    ∧ (fixtureLeft n s).engine.mute = s.engine.mute ∧ (fixtureLeft n s).engine.muteTimer = s.engine.muteTimer
    ∧ (fixtureLeft n s).engine.dropHeld = s.engine.dropHeld ∧ (fixtureLeft n s).engine.active = s.engine.active
    ∧ (fixtureLeft n s).engine.due = s.engine.due ∧ (fixtureLeft n s).engine.survey = s.engine.survey
    ∧ (fixtureLeft n s).ring.steps = s.ring.steps ∧ (fixtureLeft n s).ring.len = s.ring.len
    ∧ (fixtureLeft n s).ring.ptr = s.ring.ptr ∧ (fixtureLeft n s).ring.visit = s.ring.visit
    ∧ (fixtureLeft n s).ring.pass = s.ring.pass ∧ (fixtureLeft n s).ring.markTimer = s.ring.markTimer
    ∧ (fixtureLeft n s).ring.report = s.ring.report ∧ (fixtureLeft n s).bus = s.bus
    ∧ (fixtureLeft n s).cards = s.cards ∧ (fixtureLeft n s).fixtures = s.fixtures ∧ (fixtureLeft n s).loops = s.loops
    ∧ (fixtureLeft n s).records = s.records ∧ (fixtureLeft n s).muteAck = s.muteAck := by
  first
  | (simp [fixtureLeft]; done)
  | (simp only [fixtureLeft]; (repeat' split) <;> simp_all; done)
  | (unfold fixtureLeft; simp only []; (repeat' split) <;> simp_all; done)

@[simp] theorem setTx_keeps (t : Option BusTx) (s : State) :
    (setTx t s).pending = s.pending ∧ (setTx t s).phase = s.phase ∧ (setTx t s).cause = s.cause
    ∧ (setTx t s).free = s.free ∧ (setTx t s).link = s.link ∧ (setTx t s).site = s.site ∧ (setTx t s).rate = s.rate
    ∧ (setTx t s).lock = s.lock ∧ (setTx t s).store = s.store ∧ (setTx t s).failed = s.failed
    ∧ (setTx t s).images = s.images ∧ (setTx t s).net = s.net ∧ (setTx t s).routes = s.routes
    ∧ (setTx t s).engine = s.engine ∧ (setTx t s).ring = s.ring ∧ (setTx t s).bus.round = s.bus.round
    ∧ (setTx t s).bus.pollTimer = s.bus.pollTimer ∧ (setTx t s).bus.discovery = s.bus.discovery
    ∧ (setTx t s).cards = s.cards ∧ (setTx t s).fixtures = s.fixtures ∧ (setTx t s).loops = s.loops
    ∧ (setTx t s).latch = s.latch ∧ (setTx t s).records = s.records ∧ (setTx t s).muteAck = s.muteAck := by
  first
  | (simp [setTx]; done)
  | (simp only [setTx]; (repeat' split) <;> simp_all; done)
  | (unfold setTx; simp only []; (repeat' split) <;> simp_all; done)

@[simp] theorem setPulses_keeps (n : Nat) (f : Nat → Nat) (s : State) :
    (setPulses n f s).pending = s.pending ∧ (setPulses n f s).phase = s.phase ∧ (setPulses n f s).cause = s.cause
    ∧ (setPulses n f s).free = s.free ∧ (setPulses n f s).link = s.link ∧ (setPulses n f s).site = s.site
    ∧ (setPulses n f s).rate = s.rate ∧ (setPulses n f s).lock = s.lock ∧ (setPulses n f s).store = s.store
    ∧ (setPulses n f s).failed = s.failed ∧ (setPulses n f s).images = s.images ∧ (setPulses n f s).net = s.net
    ∧ (setPulses n f s).routes = s.routes ∧ (setPulses n f s).engine = s.engine ∧ (setPulses n f s).ring = s.ring
    ∧ (setPulses n f s).bus = s.bus ∧ (setPulses n f s).fixtures = s.fixtures ∧ (setPulses n f s).loops = s.loops
    ∧ (setPulses n f s).latch = s.latch ∧ (setPulses n f s).records = s.records
    ∧ (setPulses n f s).muteAck = s.muteAck := by
  first
  | (simp [setPulses]; done)
  | (simp only [setPulses]; (repeat' split) <;> simp_all; done)
  | (unfold setPulses; simp only []; (repeat' split) <;> simp_all; done)

@[simp] theorem setStage_keeps (e : Nat) (g : DriveStage) (s : State) :
    (setStage e g s).pending = s.pending ∧ (setStage e g s).phase = s.phase ∧ (setStage e g s).cause = s.cause
    ∧ (setStage e g s).free = s.free ∧ (setStage e g s).link = s.link ∧ (setStage e g s).site = s.site
    ∧ (setStage e g s).rate = s.rate ∧ (setStage e g s).lock = s.lock ∧ (setStage e g s).store = s.store
    ∧ (setStage e g s).failed = s.failed ∧ (setStage e g s).images = s.images ∧ (setStage e g s).net = s.net
    ∧ (setStage e g s).routes = s.routes ∧ (setStage e g s).engine.mode = s.engine.mode
    ∧ (setStage e g s).engine.applied = s.engine.applied ∧ (setStage e g s).engine.number = s.engine.number
    ∧ (setStage e g s).engine.trans = s.engine.trans ∧ (setStage e g s).engine.mute = s.engine.mute
    ∧ (setStage e g s).engine.muteTimer = s.engine.muteTimer ∧ (setStage e g s).engine.dropHeld = s.engine.dropHeld
    ∧ (setStage e g s).engine.waiting = s.engine.waiting ∧ (setStage e g s).engine.due = s.engine.due
    ∧ (setStage e g s).engine.staging = s.engine.staging ∧ (setStage e g s).engine.survey = s.engine.survey
    ∧ (setStage e g s).engine.holder = s.engine.holder ∧ (setStage e g s).ring = s.ring
    ∧ (setStage e g s).bus = s.bus ∧ (setStage e g s).cards = s.cards ∧ (setStage e g s).fixtures = s.fixtures
    ∧ (setStage e g s).loops = s.loops ∧ (setStage e g s).latch = s.latch ∧ (setStage e g s).records = s.records
    ∧ (setStage e g s).muteAck = s.muteAck := by
  first
  | (simp [setStage]; done)
  | (simp only [setStage]; (repeat' split) <;> simp_all; done)
  | (unfold setStage; simp only []; (repeat' split) <;> simp_all; done)

@[simp] theorem issueDrive_keeps (e : Nat) (target : Nat) (x : Elem) (s : State) :
    (issueDrive e target x s).pending = s.pending ∧ (issueDrive e target x s).phase = s.phase
    ∧ (issueDrive e target x s).cause = s.cause ∧ (issueDrive e target x s).free = s.free
    ∧ (issueDrive e target x s).link.lines = s.link.lines ∧ (issueDrive e target x s).link.hold = s.link.hold
    ∧ (issueDrive e target x s).link.held = s.link.held ∧ (issueDrive e target x s).link.slot = s.link.slot
    ∧ (issueDrive e target x s).link.owed = s.link.owed ∧ (issueDrive e target x s).link.tx = s.link.tx
    ∧ (issueDrive e target x s).link.enabled = s.link.enabled ∧ (issueDrive e target x s).link.gap = s.link.gap
    ∧ (issueDrive e target x s).site = s.site ∧ (issueDrive e target x s).rate = s.rate
    ∧ (issueDrive e target x s).lock = s.lock ∧ (issueDrive e target x s).store = s.store
    ∧ (issueDrive e target x s).failed = s.failed ∧ (issueDrive e target x s).images = s.images
    ∧ (issueDrive e target x s).net.ports = s.net.ports ∧ (issueDrive e target x s).net.legs = s.net.legs
    ∧ (issueDrive e target x s).net.released = s.net.released ∧ (issueDrive e target x s).net.locked = s.net.locked
    ∧ (issueDrive e target x s).routes = s.routes ∧ (issueDrive e target x s).engine.mode = s.engine.mode
    ∧ (issueDrive e target x s).engine.applied = s.engine.applied
    ∧ (issueDrive e target x s).engine.number = s.engine.number
    ∧ (issueDrive e target x s).engine.mute = s.engine.mute
    ∧ (issueDrive e target x s).engine.muteTimer = s.engine.muteTimer
    ∧ (issueDrive e target x s).engine.dropHeld = s.engine.dropHeld
    ∧ (issueDrive e target x s).engine.waiting = s.engine.waiting
    ∧ (issueDrive e target x s).engine.due = s.engine.due
    ∧ (issueDrive e target x s).engine.staging = s.engine.staging
    ∧ (issueDrive e target x s).engine.survey = s.engine.survey
    ∧ (issueDrive e target x s).engine.holder = s.engine.holder ∧ (issueDrive e target x s).ring = s.ring
    ∧ (issueDrive e target x s).bus.round = s.bus.round ∧ (issueDrive e target x s).bus.pollTimer = s.bus.pollTimer
    ∧ (issueDrive e target x s).bus.discovery = s.bus.discovery ∧ (issueDrive e target x s).fixtures = s.fixtures
    ∧ (issueDrive e target x s).loops = s.loops ∧ (issueDrive e target x s).latch = s.latch
    ∧ (issueDrive e target x s).records.fault = s.records.fault
    ∧ (issueDrive e target x s).records.more = s.records.more
    ∧ (issueDrive e target x s).records.late = s.records.late ∧ (issueDrive e target x s).muteAck = s.muteAck := by
  first
  | (simp [issueDrive]; done)
  | (simp only [issueDrive]; (repeat' split) <;> simp_all; done)
  | (unfold issueDrive; simp only []; (repeat' split) <;> simp_all; done)

@[simp] theorem takeWaiting_keeps (e : Nat) (s : State) :
    (takeWaiting e s).pending = s.pending ∧ (takeWaiting e s).phase = s.phase ∧ (takeWaiting e s).cause = s.cause
    ∧ (takeWaiting e s).free = s.free ∧ (takeWaiting e s).link = s.link ∧ (takeWaiting e s).site = s.site
    ∧ (takeWaiting e s).rate = s.rate ∧ (takeWaiting e s).lock = s.lock ∧ (takeWaiting e s).store = s.store
    ∧ (takeWaiting e s).failed = s.failed ∧ (takeWaiting e s).images = s.images ∧ (takeWaiting e s).net = s.net
    ∧ (takeWaiting e s).routes = s.routes ∧ (takeWaiting e s).engine.mode = s.engine.mode
    ∧ (takeWaiting e s).engine.applied = s.engine.applied ∧ (takeWaiting e s).engine.number = s.engine.number
    ∧ (takeWaiting e s).engine.mute = s.engine.mute ∧ (takeWaiting e s).engine.muteTimer = s.engine.muteTimer
    ∧ (takeWaiting e s).engine.dropHeld = s.engine.dropHeld ∧ (takeWaiting e s).engine.waiting = s.engine.waiting
    ∧ (takeWaiting e s).engine.active = s.engine.active ∧ (takeWaiting e s).engine.due = s.engine.due
    ∧ (takeWaiting e s).engine.survey = s.engine.survey ∧ (takeWaiting e s).engine.holder = s.engine.holder
    ∧ (takeWaiting e s).ring = s.ring ∧ (takeWaiting e s).bus = s.bus ∧ (takeWaiting e s).cards = s.cards
    ∧ (takeWaiting e s).fixtures = s.fixtures ∧ (takeWaiting e s).loops = s.loops ∧ (takeWaiting e s).latch = s.latch
    ∧ (takeWaiting e s).records = s.records ∧ (takeWaiting e s).muteAck = s.muteAck := by
  first
  | (simp [takeWaiting]; done)
  | (simp only [takeWaiting]; (repeat' split) <;> simp_all; done)
  | (unfold takeWaiting; simp only []; (repeat' split) <;> simp_all; done)

@[simp] theorem issueSense_keeps (e : Nat) (l : List Nat) (s : State) :
    (issueSense e l s).pending = s.pending ∧ (issueSense e l s).phase = s.phase ∧ (issueSense e l s).cause = s.cause
    ∧ (issueSense e l s).free = s.free ∧ (issueSense e l s).link = s.link ∧ (issueSense e l s).site = s.site
    ∧ (issueSense e l s).rate = s.rate ∧ (issueSense e l s).lock = s.lock ∧ (issueSense e l s).store = s.store
    ∧ (issueSense e l s).failed = s.failed ∧ (issueSense e l s).images = s.images ∧ (issueSense e l s).net = s.net
    ∧ (issueSense e l s).routes = s.routes ∧ (issueSense e l s).engine.mode = s.engine.mode
    ∧ (issueSense e l s).engine.applied = s.engine.applied ∧ (issueSense e l s).engine.number = s.engine.number
    ∧ (issueSense e l s).engine.trans = s.engine.trans ∧ (issueSense e l s).engine.mute = s.engine.mute
    ∧ (issueSense e l s).engine.muteTimer = s.engine.muteTimer
    ∧ (issueSense e l s).engine.dropHeld = s.engine.dropHeld ∧ (issueSense e l s).engine.waiting = s.engine.waiting
    ∧ (issueSense e l s).engine.staging = s.engine.staging ∧ (issueSense e l s).engine.survey = s.engine.survey
    ∧ (issueSense e l s).engine.holder = s.engine.holder ∧ (issueSense e l s).ring = s.ring
    ∧ (issueSense e l s).bus.round = s.bus.round ∧ (issueSense e l s).bus.pollTimer = s.bus.pollTimer
    ∧ (issueSense e l s).bus.discovery = s.bus.discovery ∧ (issueSense e l s).cards = s.cards
    ∧ (issueSense e l s).fixtures = s.fixtures ∧ (issueSense e l s).loops = s.loops
    ∧ (issueSense e l s).latch = s.latch ∧ (issueSense e l s).records = s.records
    ∧ (issueSense e l s).muteAck = s.muteAck := by
  first
  | (simp [issueSense]; done)
  | (simp only [issueSense]; (repeat' split) <;> simp_all; done)
  | (unfold issueSense; simp only []; (repeat' split) <;> simp_all; done)

@[simp] theorem issueSurveySense_keeps (e : Nat) (l : List Nat) (x : Elem) (s : State) :
    (issueSurveySense e l x s).pending = s.pending ∧ (issueSurveySense e l x s).phase = s.phase
    ∧ (issueSurveySense e l x s).cause = s.cause ∧ (issueSurveySense e l x s).free = s.free
    ∧ (issueSurveySense e l x s).link = s.link ∧ (issueSurveySense e l x s).site = s.site
    ∧ (issueSurveySense e l x s).rate = s.rate ∧ (issueSurveySense e l x s).lock = s.lock
    ∧ (issueSurveySense e l x s).store = s.store ∧ (issueSurveySense e l x s).failed = s.failed
    ∧ (issueSurveySense e l x s).images = s.images ∧ (issueSurveySense e l x s).net = s.net
    ∧ (issueSurveySense e l x s).routes = s.routes ∧ (issueSurveySense e l x s).engine.mode = s.engine.mode
    ∧ (issueSurveySense e l x s).engine.applied = s.engine.applied
    ∧ (issueSurveySense e l x s).engine.number = s.engine.number
    ∧ (issueSurveySense e l x s).engine.trans = s.engine.trans
    ∧ (issueSurveySense e l x s).engine.mute = s.engine.mute
    ∧ (issueSurveySense e l x s).engine.muteTimer = s.engine.muteTimer
    ∧ (issueSurveySense e l x s).engine.dropHeld = s.engine.dropHeld
    ∧ (issueSurveySense e l x s).engine.waiting = s.engine.waiting
    ∧ (issueSurveySense e l x s).engine.active = s.engine.active
    ∧ (issueSurveySense e l x s).engine.due = s.engine.due
    ∧ (issueSurveySense e l x s).engine.staging = s.engine.staging
    ∧ (issueSurveySense e l x s).engine.holder = s.engine.holder ∧ (issueSurveySense e l x s).ring = s.ring
    ∧ (issueSurveySense e l x s).bus.round = s.bus.round ∧ (issueSurveySense e l x s).bus.pollTimer = s.bus.pollTimer
    ∧ (issueSurveySense e l x s).bus.discovery = s.bus.discovery ∧ (issueSurveySense e l x s).cards = s.cards
    ∧ (issueSurveySense e l x s).fixtures = s.fixtures ∧ (issueSurveySense e l x s).loops = s.loops
    ∧ (issueSurveySense e l x s).latch = s.latch ∧ (issueSurveySense e l x s).records = s.records
    ∧ (issueSurveySense e l x s).muteAck = s.muteAck := by
  first
  | (simp [issueSurveySense]; done)
  | (simp only [issueSurveySense]; (repeat' split) <;> simp_all; done)
  | (unfold issueSurveySense; simp only []; (repeat' split) <;> simp_all; done)

@[simp] theorem restartIssues_keeps (n : Nat) (s : State) :
    (restartIssues n s).pending = s.pending ∧ (restartIssues n s).phase = s.phase
    ∧ (restartIssues n s).cause = s.cause ∧ (restartIssues n s).free = s.free ∧ (restartIssues n s).link = s.link
    ∧ (restartIssues n s).site = s.site ∧ (restartIssues n s).rate = s.rate ∧ (restartIssues n s).lock = s.lock
    ∧ (restartIssues n s).store = s.store ∧ (restartIssues n s).failed = s.failed
    ∧ (restartIssues n s).images = s.images ∧ (restartIssues n s).net = s.net ∧ (restartIssues n s).routes = s.routes
    ∧ (restartIssues n s).engine = s.engine ∧ (restartIssues n s).ring = s.ring
    ∧ (restartIssues n s).bus.round = s.bus.round ∧ (restartIssues n s).bus.pollTimer = s.bus.pollTimer
    ∧ (restartIssues n s).bus.discovery = s.bus.discovery ∧ (restartIssues n s).fixtures = s.fixtures
    ∧ (restartIssues n s).loops = s.loops ∧ (restartIssues n s).latch = s.latch
    ∧ (restartIssues n s).records = s.records ∧ (restartIssues n s).muteAck = s.muteAck := by
  first
  | (simp [restartIssues]; done)
  | (simp only [restartIssues]; (repeat' split) <;> simp_all; done)
  | (unfold restartIssues; simp only []; (repeat' split) <;> simp_all; done)

@[simp] theorem roundAt_keeps (k : Nat) (s : State) :
    (roundAt k s).pending = s.pending ∧ (roundAt k s).phase = s.phase ∧ (roundAt k s).cause = s.cause
    ∧ (roundAt k s).free = s.free ∧ (roundAt k s).link = s.link ∧ (roundAt k s).site = s.site
    ∧ (roundAt k s).rate = s.rate ∧ (roundAt k s).lock = s.lock ∧ (roundAt k s).store = s.store
    ∧ (roundAt k s).failed = s.failed ∧ (roundAt k s).images = s.images ∧ (roundAt k s).net = s.net
    ∧ (roundAt k s).routes = s.routes ∧ (roundAt k s).engine = s.engine ∧ (roundAt k s).ring = s.ring
    ∧ (roundAt k s).bus.tx = s.bus.tx ∧ (roundAt k s).bus.discovery = s.bus.discovery ∧ (roundAt k s).cards = s.cards
    ∧ (roundAt k s).fixtures = s.fixtures ∧ (roundAt k s).loops = s.loops ∧ (roundAt k s).latch = s.latch
    ∧ (roundAt k s).records = s.records ∧ (roundAt k s).muteAck = s.muteAck := by
  first
  | (simp [roundAt]; done)
  | (simp only [roundAt]; (repeat' split) <;> simp_all; done)
  | (unfold roundAt; simp only []; (repeat' split) <;> simp_all; done)

@[simp] theorem roundIssues_keeps (k : Nat) (s : State) :
    (roundIssues k s).pending = s.pending ∧ (roundIssues k s).phase = s.phase ∧ (roundIssues k s).cause = s.cause
    ∧ (roundIssues k s).free = s.free ∧ (roundIssues k s).link = s.link ∧ (roundIssues k s).site = s.site
    ∧ (roundIssues k s).rate = s.rate ∧ (roundIssues k s).lock = s.lock ∧ (roundIssues k s).store = s.store
    ∧ (roundIssues k s).failed = s.failed ∧ (roundIssues k s).images = s.images ∧ (roundIssues k s).net = s.net
    ∧ (roundIssues k s).routes = s.routes ∧ (roundIssues k s).engine = s.engine ∧ (roundIssues k s).ring = s.ring
    ∧ (roundIssues k s).bus.discovery = s.bus.discovery ∧ (roundIssues k s).cards = s.cards
    ∧ (roundIssues k s).fixtures = s.fixtures ∧ (roundIssues k s).loops = s.loops ∧ (roundIssues k s).latch = s.latch
    ∧ (roundIssues k s).records = s.records ∧ (roundIssues k s).muteAck = s.muteAck := by
  first
  | (simp [roundIssues]; done)
  | (simp only [roundIssues]; (repeat' split) <;> simp_all; done)
  | (unfold roundIssues; simp only []; (repeat' split) <;> simp_all; done)

@[simp] theorem queueLost_keeps (s : State) :
    (queueLost s).pending = s.pending ∧ (queueLost s).phase = s.phase ∧ (queueLost s).cause = s.cause
    ∧ (queueLost s).free = s.free ∧ (queueLost s).link.lines = s.link.lines ∧ (queueLost s).link.hold = s.link.hold
    ∧ (queueLost s).link.held = s.link.held ∧ (queueLost s).link.slot = s.link.slot
    ∧ (queueLost s).link.owed = s.link.owed ∧ (queueLost s).link.tx = s.link.tx
    ∧ (queueLost s).link.enabled = s.link.enabled ∧ (queueLost s).link.gap = s.link.gap ∧ (queueLost s).site = s.site
    ∧ (queueLost s).rate = s.rate ∧ (queueLost s).lock = s.lock ∧ (queueLost s).store = s.store
    ∧ (queueLost s).failed = s.failed ∧ (queueLost s).images = s.images ∧ (queueLost s).net = s.net
    ∧ (queueLost s).routes = s.routes ∧ (queueLost s).engine = s.engine ∧ (queueLost s).ring = s.ring
    ∧ (queueLost s).bus = s.bus ∧ (queueLost s).cards = s.cards ∧ (queueLost s).fixtures = s.fixtures
    ∧ (queueLost s).loops = s.loops ∧ (queueLost s).latch = s.latch ∧ (queueLost s).records = s.records
    ∧ (queueLost s).muteAck = s.muteAck := by
  first
  | (simp [queueLost]; done)
  | (simp only [queueLost]; (repeat' split) <;> simp_all; done)
  | (unfold queueLost; simp only []; (repeat' split) <;> simp_all; done)

@[simp] theorem startLine_keeps (s : State) :
    (startLine s).pending = s.pending ∧ (startLine s).phase = s.phase ∧ (startLine s).cause = s.cause
    ∧ (startLine s).free = s.free ∧ (startLine s).link.lines = s.link.lines ∧ (startLine s).link.hold = s.link.hold
    ∧ (startLine s).link.held = s.link.held ∧ (startLine s).link.slot = s.link.slot
    ∧ (startLine s).link.lost = s.link.lost ∧ (startLine s).link.enabled = s.link.enabled
    ∧ (startLine s).link.gap = s.link.gap ∧ (startLine s).site = s.site ∧ (startLine s).rate = s.rate
    ∧ (startLine s).lock = s.lock ∧ (startLine s).store = s.store ∧ (startLine s).failed = s.failed
    ∧ (startLine s).images = s.images ∧ (startLine s).net = s.net ∧ (startLine s).routes = s.routes
    ∧ (startLine s).engine = s.engine ∧ (startLine s).ring = s.ring ∧ (startLine s).bus = s.bus
    ∧ (startLine s).cards = s.cards ∧ (startLine s).fixtures = s.fixtures ∧ (startLine s).loops = s.loops
    ∧ (startLine s).latch = s.latch ∧ (startLine s).records = s.records ∧ (startLine s).muteAck = s.muteAck := by
  first
  | (simp [startLine]; done)
  | (simp only [startLine]; (repeat' split) <;> simp_all; done)
  | (unfold startLine; simp only []; (repeat' split) <;> simp_all; done)

@[simp] theorem releaseSync_keeps (s : State) :
    (releaseSync s).pending = s.pending ∧ (releaseSync s).phase = s.phase ∧ (releaseSync s).cause = s.cause
    ∧ (releaseSync s).free = s.free ∧ (releaseSync s).link.lines = s.link.lines
    ∧ (releaseSync s).link.notices = s.link.notices ∧ (releaseSync s).link.owed = s.link.owed
    ∧ (releaseSync s).link.tx = s.link.tx ∧ (releaseSync s).link.lost = s.link.lost
    ∧ (releaseSync s).link.enabled = s.link.enabled ∧ (releaseSync s).link.gap = s.link.gap
    ∧ (releaseSync s).site = s.site ∧ (releaseSync s).rate = s.rate ∧ (releaseSync s).lock = s.lock
    ∧ (releaseSync s).store = s.store ∧ (releaseSync s).failed = s.failed ∧ (releaseSync s).images = s.images
    ∧ (releaseSync s).net = s.net ∧ (releaseSync s).routes = s.routes ∧ (releaseSync s).engine = s.engine
    ∧ (releaseSync s).ring = s.ring ∧ (releaseSync s).bus = s.bus ∧ (releaseSync s).cards = s.cards
    ∧ (releaseSync s).fixtures = s.fixtures ∧ (releaseSync s).loops = s.loops ∧ (releaseSync s).latch = s.latch
    ∧ (releaseSync s).records = s.records ∧ (releaseSync s).muteAck = s.muteAck := by
  first
  | (simp [releaseSync]; done)
  | (simp only [releaseSync]; (repeat' split) <;> simp_all; done)
  | (unfold releaseSync; simp only []; (repeat' split) <;> simp_all; done)

@[simp] theorem dropDrive_keeps (e : Nat) (s : State) :
    (dropDrive e s).pending = s.pending ∧ (dropDrive e s).phase = s.phase ∧ (dropDrive e s).cause = s.cause
    ∧ (dropDrive e s).free = s.free ∧ (dropDrive e s).link = s.link ∧ (dropDrive e s).site = s.site
    ∧ (dropDrive e s).rate = s.rate ∧ (dropDrive e s).lock = s.lock ∧ (dropDrive e s).store = s.store
    ∧ (dropDrive e s).failed = s.failed ∧ (dropDrive e s).images = s.images ∧ (dropDrive e s).net = s.net
    ∧ (dropDrive e s).routes = s.routes ∧ (dropDrive e s).engine.mode = s.engine.mode
    ∧ (dropDrive e s).engine.applied = s.engine.applied ∧ (dropDrive e s).engine.number = s.engine.number
    ∧ (dropDrive e s).engine.trans = s.engine.trans ∧ (dropDrive e s).engine.mute = s.engine.mute
    ∧ (dropDrive e s).engine.muteTimer = s.engine.muteTimer ∧ (dropDrive e s).engine.dropHeld = s.engine.dropHeld
    ∧ (dropDrive e s).engine.waiting = s.engine.waiting ∧ (dropDrive e s).engine.due = s.engine.due
    ∧ (dropDrive e s).engine.staging = s.engine.staging ∧ (dropDrive e s).engine.survey = s.engine.survey
    ∧ (dropDrive e s).engine.holder = s.engine.holder ∧ (dropDrive e s).ring = s.ring ∧ (dropDrive e s).bus = s.bus
    ∧ (dropDrive e s).cards = s.cards ∧ (dropDrive e s).fixtures = s.fixtures ∧ (dropDrive e s).loops = s.loops
    ∧ (dropDrive e s).latch = s.latch ∧ (dropDrive e s).records = s.records ∧ (dropDrive e s).muteAck = s.muteAck :=
    by
  first
  | (simp [dropDrive]; done)
  | (simp only [dropDrive]; (repeat' split) <;> simp_all; done)
  | (unfold dropDrive; simp only []; (repeat' split) <;> simp_all; done)

@[simp] theorem driveReached_keeps (d : Drive) (s : State) :
    (driveReached d s).pending = s.pending ∧ (driveReached d s).phase = s.phase ∧ (driveReached d s).cause = s.cause
    ∧ (driveReached d s).free = s.free ∧ (driveReached d s).link = s.link ∧ (driveReached d s).site = s.site
    ∧ (driveReached d s).rate = s.rate ∧ (driveReached d s).lock = s.lock ∧ (driveReached d s).store = s.store
    ∧ (driveReached d s).failed = s.failed ∧ (driveReached d s).images = s.images
    ∧ (driveReached d s).net.ports = s.net.ports ∧ (driveReached d s).net.legs = s.net.legs
    ∧ (driveReached d s).net.released = s.net.released ∧ (driveReached d s).net.locked = s.net.locked
    ∧ (driveReached d s).routes = s.routes ∧ (driveReached d s).engine.mode = s.engine.mode
    ∧ (driveReached d s).engine.applied = s.engine.applied ∧ (driveReached d s).engine.number = s.engine.number
    ∧ (driveReached d s).engine.trans = s.engine.trans ∧ (driveReached d s).engine.mute = s.engine.mute
    ∧ (driveReached d s).engine.muteTimer = s.engine.muteTimer
    ∧ (driveReached d s).engine.dropHeld = s.engine.dropHeld ∧ (driveReached d s).engine.waiting = s.engine.waiting
    ∧ (driveReached d s).engine.due = s.engine.due ∧ (driveReached d s).engine.staging = s.engine.staging
    ∧ (driveReached d s).engine.survey = s.engine.survey ∧ (driveReached d s).engine.holder = s.engine.holder
    ∧ (driveReached d s).ring = s.ring ∧ (driveReached d s).bus = s.bus ∧ (driveReached d s).cards = s.cards
    ∧ (driveReached d s).fixtures = s.fixtures ∧ (driveReached d s).loops = s.loops
    ∧ (driveReached d s).latch = s.latch ∧ (driveReached d s).records = s.records
    ∧ (driveReached d s).muteAck = s.muteAck := by
  first
  | (simp [driveReached]; done)
  | (simp only [driveReached]; (repeat' split) <;> simp_all; done)
  | (unfold driveReached; simp only []; (repeat' split) <;> simp_all; done)

@[simp] theorem readbackFailed_keeps (d : Drive) (got : Option Nat) (s : State) :
    (readbackFailed d got s).pending = s.pending ∧ (readbackFailed d got s).phase = s.phase
    ∧ (readbackFailed d got s).cause = s.cause ∧ (readbackFailed d got s).free = s.free
    ∧ (readbackFailed d got s).link.lines = s.link.lines ∧ (readbackFailed d got s).link.hold = s.link.hold
    ∧ (readbackFailed d got s).link.held = s.link.held ∧ (readbackFailed d got s).link.slot = s.link.slot
    ∧ (readbackFailed d got s).link.owed = s.link.owed ∧ (readbackFailed d got s).link.tx = s.link.tx
    ∧ (readbackFailed d got s).link.enabled = s.link.enabled ∧ (readbackFailed d got s).link.gap = s.link.gap
    ∧ (readbackFailed d got s).site = s.site ∧ (readbackFailed d got s).rate = s.rate
    ∧ (readbackFailed d got s).lock = s.lock ∧ (readbackFailed d got s).store = s.store
    ∧ (readbackFailed d got s).failed = s.failed ∧ (readbackFailed d got s).images = s.images
    ∧ (readbackFailed d got s).net.ports = s.net.ports ∧ (readbackFailed d got s).net.legs = s.net.legs
    ∧ (readbackFailed d got s).net.released = s.net.released ∧ (readbackFailed d got s).net.locked = s.net.locked
    ∧ (readbackFailed d got s).routes = s.routes ∧ (readbackFailed d got s).engine.mode = s.engine.mode
    ∧ (readbackFailed d got s).engine.applied = s.engine.applied
    ∧ (readbackFailed d got s).engine.number = s.engine.number ∧ (readbackFailed d got s).engine.mute = s.engine.mute
    ∧ (readbackFailed d got s).engine.muteTimer = s.engine.muteTimer
    ∧ (readbackFailed d got s).engine.dropHeld = s.engine.dropHeld
    ∧ (readbackFailed d got s).engine.waiting = s.engine.waiting ∧ (readbackFailed d got s).engine.due = s.engine.due
    ∧ (readbackFailed d got s).engine.staging = s.engine.staging
    ∧ (readbackFailed d got s).engine.survey = s.engine.survey
    ∧ (readbackFailed d got s).engine.holder = s.engine.holder ∧ (readbackFailed d got s).ring = s.ring
    ∧ (readbackFailed d got s).bus = s.bus ∧ (readbackFailed d got s).cards = s.cards
    ∧ (readbackFailed d got s).fixtures = s.fixtures ∧ (readbackFailed d got s).loops = s.loops
    ∧ (readbackFailed d got s).records.late = s.records.late ∧ (readbackFailed d got s).records.wear = s.records.wear
    ∧ (readbackFailed d got s).muteAck = s.muteAck := by
  first
  | (simp [readbackFailed]; done)
  | (simp only [readbackFailed]; (repeat' split) <;> simp_all; done)
  | (unfold readbackFailed; simp only []; (repeat' split) <;> simp_all; done)

@[simp] theorem stagingFailed_keeps (d : Drive) (got : Option Nat) (s : State) :
    (stagingFailed d got s).pending = s.pending ∧ (stagingFailed d got s).phase = s.phase
    ∧ (stagingFailed d got s).cause = s.cause ∧ (stagingFailed d got s).free = s.free
    ∧ (stagingFailed d got s).link = s.link ∧ (stagingFailed d got s).site = s.site
    ∧ (stagingFailed d got s).rate = s.rate ∧ (stagingFailed d got s).lock = s.lock
    ∧ (stagingFailed d got s).store = s.store ∧ (stagingFailed d got s).failed = s.failed
    ∧ (stagingFailed d got s).images = s.images ∧ (stagingFailed d got s).net.ports = s.net.ports
    ∧ (stagingFailed d got s).net.legs = s.net.legs ∧ (stagingFailed d got s).net.released = s.net.released
    ∧ (stagingFailed d got s).net.locked = s.net.locked ∧ (stagingFailed d got s).routes = s.routes
    ∧ (stagingFailed d got s).engine.mode = s.engine.mode ∧ (stagingFailed d got s).engine.applied = s.engine.applied
    ∧ (stagingFailed d got s).engine.number = s.engine.number ∧ (stagingFailed d got s).engine.trans = s.engine.trans
    ∧ (stagingFailed d got s).engine.mute = s.engine.mute
    ∧ (stagingFailed d got s).engine.muteTimer = s.engine.muteTimer
    ∧ (stagingFailed d got s).engine.dropHeld = s.engine.dropHeld
    ∧ (stagingFailed d got s).engine.waiting = s.engine.waiting ∧ (stagingFailed d got s).engine.due = s.engine.due
    ∧ (stagingFailed d got s).engine.staging = s.engine.staging
    ∧ (stagingFailed d got s).engine.survey = s.engine.survey ∧ (stagingFailed d got s).ring = s.ring
    ∧ (stagingFailed d got s).bus = s.bus ∧ (stagingFailed d got s).cards = s.cards
    ∧ (stagingFailed d got s).fixtures = s.fixtures ∧ (stagingFailed d got s).loops = s.loops
    ∧ (stagingFailed d got s).latch = s.latch ∧ (stagingFailed d got s).records = s.records
    ∧ (stagingFailed d got s).muteAck = s.muteAck := by
  first
  | (simp [stagingFailed]; done)
  | (simp only [stagingFailed]; (repeat' split) <;> simp_all; done)
  | (unfold stagingFailed; simp only []; (repeat' split) <;> simp_all; done)

@[simp] theorem changeCard_keeps (n : Nat) (new : CardState) (s : State) :
    (changeCard n new s).pending = s.pending ∧ (changeCard n new s).phase = s.phase
    ∧ (changeCard n new s).cause = s.cause ∧ (changeCard n new s).free = s.free
    ∧ (changeCard n new s).link.lines = s.link.lines ∧ (changeCard n new s).link.hold = s.link.hold
    ∧ (changeCard n new s).link.held = s.link.held ∧ (changeCard n new s).link.slot = s.link.slot
    ∧ (changeCard n new s).link.owed = s.link.owed ∧ (changeCard n new s).link.tx = s.link.tx
    ∧ (changeCard n new s).link.enabled = s.link.enabled ∧ (changeCard n new s).link.gap = s.link.gap
    ∧ (changeCard n new s).site = s.site ∧ (changeCard n new s).rate = s.rate ∧ (changeCard n new s).lock = s.lock
    ∧ (changeCard n new s).store = s.store ∧ (changeCard n new s).failed = s.failed
    ∧ (changeCard n new s).images = s.images ∧ (changeCard n new s).net = s.net
    ∧ (changeCard n new s).routes = s.routes ∧ (changeCard n new s).engine = s.engine
    ∧ (changeCard n new s).ring = s.ring ∧ (changeCard n new s).bus = s.bus
    ∧ (changeCard n new s).fixtures = s.fixtures ∧ (changeCard n new s).loops = s.loops
    ∧ (changeCard n new s).latch = s.latch ∧ (changeCard n new s).records = s.records
    ∧ (changeCard n new s).muteAck = s.muteAck := by
  first
  | (simp [changeCard]; done)
  | (simp only [changeCard]; (repeat' split) <;> simp_all; done)
  | (unfold changeCard; simp only []; (repeat' split) <;> simp_all; done)

@[simp] theorem cardFault_keeps (c : FaultCause) (n : Nat) (s : State) :
    (cardFault c n s).pending = s.pending ∧ (cardFault c n s).phase = s.phase ∧ (cardFault c n s).cause = s.cause
    ∧ (cardFault c n s).free = s.free ∧ (cardFault c n s).link.lines = s.link.lines
    ∧ (cardFault c n s).link.hold = s.link.hold ∧ (cardFault c n s).link.held = s.link.held
    ∧ (cardFault c n s).link.slot = s.link.slot ∧ (cardFault c n s).link.owed = s.link.owed
    ∧ (cardFault c n s).link.tx = s.link.tx ∧ (cardFault c n s).link.enabled = s.link.enabled
    ∧ (cardFault c n s).link.gap = s.link.gap ∧ (cardFault c n s).site = s.site ∧ (cardFault c n s).rate = s.rate
    ∧ (cardFault c n s).lock = s.lock ∧ (cardFault c n s).store = s.store ∧ (cardFault c n s).failed = s.failed
    ∧ (cardFault c n s).images = s.images ∧ (cardFault c n s).net = s.net ∧ (cardFault c n s).routes = s.routes
    ∧ (cardFault c n s).engine = s.engine ∧ (cardFault c n s).ring = s.ring ∧ (cardFault c n s).bus = s.bus
    ∧ (cardFault c n s).cards = s.cards ∧ (cardFault c n s).fixtures = s.fixtures ∧ (cardFault c n s).loops = s.loops
    ∧ (cardFault c n s).latch = s.latch ∧ (cardFault c n s).records.late = s.records.late
    ∧ (cardFault c n s).records.wear = s.records.wear ∧ (cardFault c n s).muteAck = s.muteAck := by
  first
  | (simp [cardFault]; done)
  | (simp only [cardFault]; (repeat' split) <;> simp_all; done)
  | (unfold cardFault; simp only []; (repeat' split) <;> simp_all; done)

@[simp] theorem setLast_keeps (n : Nat) (p : PollResult) (s : State) :
    (setLast n p s).pending = s.pending ∧ (setLast n p s).phase = s.phase ∧ (setLast n p s).cause = s.cause
    ∧ (setLast n p s).free = s.free ∧ (setLast n p s).link = s.link ∧ (setLast n p s).site = s.site
    ∧ (setLast n p s).rate = s.rate ∧ (setLast n p s).lock = s.lock ∧ (setLast n p s).store = s.store
    ∧ (setLast n p s).failed = s.failed ∧ (setLast n p s).images = s.images ∧ (setLast n p s).net = s.net
    ∧ (setLast n p s).routes = s.routes ∧ (setLast n p s).engine = s.engine ∧ (setLast n p s).ring = s.ring
    ∧ (setLast n p s).bus = s.bus ∧ (setLast n p s).fixtures = s.fixtures ∧ (setLast n p s).loops = s.loops
    ∧ (setLast n p s).latch = s.latch ∧ (setLast n p s).records = s.records ∧ (setLast n p s).muteAck = s.muteAck :=
    by
  first
  | (simp [setLast]; done)
  | (simp only [setLast]; (repeat' split) <;> simp_all; done)
  | (unfold setLast; simp only []; (repeat' split) <;> simp_all; done)

@[simp] theorem endRestart_keeps (n : Nat) (new : CardState) (s : State) :
    (endRestart n new s).pending = s.pending ∧ (endRestart n new s).phase = s.phase
    ∧ (endRestart n new s).cause = s.cause ∧ (endRestart n new s).free = s.free
    ∧ (endRestart n new s).link.lines = s.link.lines ∧ (endRestart n new s).link.held = s.link.held
    ∧ (endRestart n new s).link.slot = s.link.slot ∧ (endRestart n new s).link.owed = s.link.owed
    ∧ (endRestart n new s).link.tx = s.link.tx ∧ (endRestart n new s).link.enabled = s.link.enabled
    ∧ (endRestart n new s).link.gap = s.link.gap ∧ (endRestart n new s).site = s.site
    ∧ (endRestart n new s).rate = s.rate ∧ (endRestart n new s).lock = s.lock ∧ (endRestart n new s).store = s.store
    ∧ (endRestart n new s).failed = s.failed ∧ (endRestart n new s).images = s.images
    ∧ (endRestart n new s).net = s.net ∧ (endRestart n new s).routes = s.routes
    ∧ (endRestart n new s).engine = s.engine ∧ (endRestart n new s).ring = s.ring ∧ (endRestart n new s).bus = s.bus
    ∧ (endRestart n new s).fixtures = s.fixtures ∧ (endRestart n new s).loops = s.loops
    ∧ (endRestart n new s).latch = s.latch ∧ (endRestart n new s).records = s.records
    ∧ (endRestart n new s).muteAck = s.muteAck := by
  first
  | (simp [endRestart]; done)
  | (simp only [endRestart]; (repeat' split) <;> simp_all; done)
  | (unfold endRestart; simp only []; (repeat' split) <;> simp_all; done)

@[simp] theorem restartPolled_keeps (n : Nat) (p : PollResult) (s : State) :
    (restartPolled n p s).pending = s.pending ∧ (restartPolled n p s).phase = s.phase
    ∧ (restartPolled n p s).cause = s.cause ∧ (restartPolled n p s).free = s.free
    ∧ (restartPolled n p s).link.lines = s.link.lines ∧ (restartPolled n p s).link.held = s.link.held
    ∧ (restartPolled n p s).link.slot = s.link.slot ∧ (restartPolled n p s).link.owed = s.link.owed
    ∧ (restartPolled n p s).link.tx = s.link.tx ∧ (restartPolled n p s).link.enabled = s.link.enabled
    ∧ (restartPolled n p s).link.gap = s.link.gap ∧ (restartPolled n p s).site = s.site
    ∧ (restartPolled n p s).rate = s.rate ∧ (restartPolled n p s).lock = s.lock
    ∧ (restartPolled n p s).store = s.store ∧ (restartPolled n p s).failed = s.failed
    ∧ (restartPolled n p s).images = s.images ∧ (restartPolled n p s).net = s.net
    ∧ (restartPolled n p s).routes = s.routes ∧ (restartPolled n p s).engine = s.engine
    ∧ (restartPolled n p s).ring = s.ring ∧ (restartPolled n p s).bus = s.bus
    ∧ (restartPolled n p s).fixtures = s.fixtures ∧ (restartPolled n p s).loops = s.loops
    ∧ (restartPolled n p s).latch = s.latch ∧ (restartPolled n p s).records = s.records
    ∧ (restartPolled n p s).muteAck = s.muteAck := by
  first
  | (simp [restartPolled]; done)
  | (simp only [restartPolled]; (repeat' split) <;> simp_all; done)
  | (unfold restartPolled; simp only []; (repeat' split) <;> simp_all; done)

@[simp] theorem discoveryAfter_keeps (n : Nat) (s : State) :
    (discoveryAfter n s).pending = s.pending ∧ (discoveryAfter n s).phase = s.phase
    ∧ (discoveryAfter n s).cause = s.cause ∧ (discoveryAfter n s).free = s.free ∧ (discoveryAfter n s).link = s.link
    ∧ (discoveryAfter n s).site = s.site ∧ (discoveryAfter n s).rate = s.rate ∧ (discoveryAfter n s).lock = s.lock
    ∧ (discoveryAfter n s).store = s.store ∧ (discoveryAfter n s).failed = s.failed
    ∧ (discoveryAfter n s).images = s.images ∧ (discoveryAfter n s).net = s.net
    ∧ (discoveryAfter n s).routes = s.routes ∧ (discoveryAfter n s).engine = s.engine
    ∧ (discoveryAfter n s).ring = s.ring ∧ (discoveryAfter n s).bus.tx = s.bus.tx
    ∧ (discoveryAfter n s).bus.round = s.bus.round ∧ (discoveryAfter n s).bus.pollTimer = s.bus.pollTimer
    ∧ (discoveryAfter n s).cards = s.cards ∧ (discoveryAfter n s).fixtures = s.fixtures
    ∧ (discoveryAfter n s).loops = s.loops ∧ (discoveryAfter n s).latch = s.latch
    ∧ (discoveryAfter n s).records = s.records ∧ (discoveryAfter n s).muteAck = s.muteAck := by
  first
  | (simp [discoveryAfter]; done)
  | (simp only [discoveryAfter]; (repeat' split) <;> simp_all; done)
  | (unfold discoveryAfter; simp only []; (repeat' split) <;> simp_all; done)

@[simp] theorem clearVolatile_keeps (s : State) :
    (clearVolatile s).pending = s.pending ∧ (clearVolatile s).phase = s.phase ∧ (clearVolatile s).cause = s.cause
    ∧ (clearVolatile s).free = s.free ∧ (clearVolatile s).site = s.site ∧ (clearVolatile s).rate = s.rate
    ∧ (clearVolatile s).lock = s.lock ∧ (clearVolatile s).store = s.store ∧ (clearVolatile s).failed = s.failed
    ∧ (clearVolatile s).images = s.images ∧ (clearVolatile s).records.wear = s.records.wear
    ∧ (clearVolatile s).muteAck = s.muteAck := by
  first
  | (simp [clearVolatile]; done)
  | (simp only [clearVolatile]; (repeat' split) <;> simp_all; done)
  | (unfold clearVolatile; simp only []; (repeat' split) <;> simp_all; done)

@[simp] theorem beginReset_keeps (c : ResetCause) (s : State) :
    (beginReset c s).pending = s.pending ∧ (beginReset c s).site = s.site ∧ (beginReset c s).rate = s.rate
    ∧ (beginReset c s).lock = s.lock ∧ (beginReset c s).failed = s.failed
    ∧ (beginReset c s).records.wear = s.records.wear ∧ (beginReset c s).muteAck = s.muteAck := by
  first
  | (simp [beginReset]; done)
  | (simp only [beginReset]; (repeat' split) <;> simp_all; done)
  | (unfold beginReset; simp only []; (repeat' split) <;> simp_all; done)

@[simp] theorem storeLoad_keeps (s : State) :
    (storeLoad s).pending = s.pending ∧ (storeLoad s).phase = s.phase ∧ (storeLoad s).cause = s.cause
    ∧ (storeLoad s).free = s.free ∧ (storeLoad s).link = s.link ∧ (storeLoad s).store = s.store
    ∧ (storeLoad s).net = s.net ∧ (storeLoad s).routes = s.routes ∧ (storeLoad s).engine = s.engine
    ∧ (storeLoad s).ring = s.ring ∧ (storeLoad s).bus = s.bus ∧ (storeLoad s).cards = s.cards
    ∧ (storeLoad s).fixtures = s.fixtures ∧ (storeLoad s).loops = s.loops ∧ (storeLoad s).latch = s.latch
    ∧ (storeLoad s).records.fault = s.records.fault ∧ (storeLoad s).records.more = s.records.more
    ∧ (storeLoad s).records.late = s.records.late ∧ (storeLoad s).muteAck = s.muteAck := by
  first
  | (simp [storeLoad]; done)
  | (simp only [storeLoad]; (repeat' split) <;> simp_all; done)
  | (unfold storeLoad; simp only []; (repeat' split) <;> simp_all; done)

@[simp] theorem startFilters_keeps (s : State) :
    (startFilters s).pending = s.pending ∧ (startFilters s).phase = s.phase ∧ (startFilters s).cause = s.cause
    ∧ (startFilters s).free = s.free ∧ (startFilters s).link = s.link ∧ (startFilters s).site = s.site
    ∧ (startFilters s).rate = s.rate ∧ (startFilters s).lock = s.lock ∧ (startFilters s).store = s.store
    ∧ (startFilters s).failed = s.failed ∧ (startFilters s).images = s.images ∧ (startFilters s).net = s.net
    ∧ (startFilters s).routes = s.routes ∧ (startFilters s).engine = s.engine ∧ (startFilters s).ring = s.ring
    ∧ (startFilters s).bus = s.bus ∧ (startFilters s).cards = s.cards ∧ (startFilters s).latch = s.latch
    ∧ (startFilters s).records = s.records ∧ (startFilters s).muteAck = s.muteAck := by
  first
  | (simp [startFilters]; done)
  | (simp only [startFilters]; (repeat' split) <;> simp_all; done)
  | (unfold startFilters; simp only []; (repeat' split) <;> simp_all; done)

@[simp] theorem startUp_keeps (s : State) :
    (startUp s).pending = s.pending ∧ (startUp s).cause = s.cause ∧ (startUp s).free = s.free
    ∧ (startUp s).store = s.store ∧ (startUp s).muteAck = s.muteAck := by
  first
  | (simp [startUp]; done)
  | (simp only [startUp]; (repeat' split) <;> simp_all; done)
  | (unfold startUp; simp only []; (repeat' split) <;> simp_all; done)

@[simp] theorem placeBoot_keeps (s : State) :
    (placeBoot s).pending = s.pending ∧ (placeBoot s).phase = s.phase ∧ (placeBoot s).cause = s.cause
    ∧ (placeBoot s).free = s.free ∧ (placeBoot s).link.lines = s.link.lines ∧ (placeBoot s).link.hold = s.link.hold
    ∧ (placeBoot s).link.held = s.link.held ∧ (placeBoot s).link.slot = s.link.slot
    ∧ (placeBoot s).link.owed = s.link.owed ∧ (placeBoot s).link.tx = s.link.tx
    ∧ (placeBoot s).link.enabled = s.link.enabled ∧ (placeBoot s).link.gap = s.link.gap ∧ (placeBoot s).site = s.site
    ∧ (placeBoot s).rate = s.rate ∧ (placeBoot s).lock = s.lock ∧ (placeBoot s).store = s.store
    ∧ (placeBoot s).failed = s.failed ∧ (placeBoot s).images = s.images ∧ (placeBoot s).net = s.net
    ∧ (placeBoot s).routes = s.routes ∧ (placeBoot s).engine = s.engine ∧ (placeBoot s).ring = s.ring
    ∧ (placeBoot s).bus = s.bus ∧ (placeBoot s).cards = s.cards ∧ (placeBoot s).fixtures = s.fixtures
    ∧ (placeBoot s).loops = s.loops ∧ (placeBoot s).latch = s.latch ∧ (placeBoot s).records = s.records
    ∧ (placeBoot s).muteAck = s.muteAck := by
  first
  | (simp [placeBoot]; done)
  | (simp only [placeBoot]; (repeat' split) <;> simp_all; done)
  | (unfold placeBoot; simp only []; (repeat' split) <;> simp_all; done)

@[simp] theorem endDiscovery_keeps (s : State) :
    (endDiscovery s).pending = s.pending ∧ (endDiscovery s).cause = s.cause ∧ (endDiscovery s).free = s.free
    ∧ (endDiscovery s).link.lines = s.link.lines ∧ (endDiscovery s).link.hold = s.link.hold
    ∧ (endDiscovery s).link.held = s.link.held ∧ (endDiscovery s).link.slot = s.link.slot
    ∧ (endDiscovery s).link.owed = s.link.owed ∧ (endDiscovery s).link.tx = s.link.tx
    ∧ (endDiscovery s).link.enabled = s.link.enabled ∧ (endDiscovery s).link.gap = s.link.gap
    ∧ (endDiscovery s).site = s.site ∧ (endDiscovery s).rate = s.rate ∧ (endDiscovery s).lock = s.lock
    ∧ (endDiscovery s).store = s.store ∧ (endDiscovery s).failed = s.failed ∧ (endDiscovery s).images = s.images
    ∧ (endDiscovery s).net = s.net ∧ (endDiscovery s).routes = s.routes ∧ (endDiscovery s).engine = s.engine
    ∧ (endDiscovery s).ring = s.ring ∧ (endDiscovery s).bus.tx = s.bus.tx ∧ (endDiscovery s).bus.round = s.bus.round
    ∧ (endDiscovery s).bus.discovery = s.bus.discovery ∧ (endDiscovery s).cards = s.cards
    ∧ (endDiscovery s).fixtures = s.fixtures ∧ (endDiscovery s).loops = s.loops ∧ (endDiscovery s).latch = s.latch
    ∧ (endDiscovery s).records = s.records ∧ (endDiscovery s).muteAck = s.muteAck := by
  first
  | (simp [endDiscovery]; done)
  | (simp only [endDiscovery]; (repeat' split) <;> simp_all; done)
  | (unfold endDiscovery; simp only []; (repeat' split) <;> simp_all; done)

@[simp] theorem queueLine_keeps (l : Line) (s : State) :
    (queueLine l s).pending = s.pending ∧ (queueLine l s).phase = s.phase ∧ (queueLine l s).cause = s.cause
    ∧ (queueLine l s).free = s.free ∧ (queueLine l s).link.hold = s.link.hold
    ∧ (queueLine l s).link.held = s.link.held ∧ (queueLine l s).link.slot = s.link.slot
    ∧ (queueLine l s).link.notices = s.link.notices ∧ (queueLine l s).link.owed = s.link.owed
    ∧ (queueLine l s).link.tx = s.link.tx ∧ (queueLine l s).link.enabled = s.link.enabled
    ∧ (queueLine l s).link.gap = s.link.gap ∧ (queueLine l s).site = s.site ∧ (queueLine l s).rate = s.rate
    ∧ (queueLine l s).lock = s.lock ∧ (queueLine l s).store = s.store ∧ (queueLine l s).failed = s.failed
    ∧ (queueLine l s).images = s.images ∧ (queueLine l s).net = s.net ∧ (queueLine l s).routes = s.routes
    ∧ (queueLine l s).engine = s.engine ∧ (queueLine l s).ring = s.ring ∧ (queueLine l s).bus = s.bus
    ∧ (queueLine l s).cards = s.cards ∧ (queueLine l s).fixtures = s.fixtures ∧ (queueLine l s).loops = s.loops
    ∧ (queueLine l s).latch = s.latch ∧ (queueLine l s).records = s.records ∧ (queueLine l s).muteAck = s.muteAck :=
    by
  first
  | (simp [queueLine]; done)
  | (simp only [queueLine]; (repeat' split) <;> simp_all; done)
  | (unfold queueLine; simp only []; (repeat' split) <;> simp_all; done)

@[simp] theorem lineLeft_keeps (s : State) :
    (lineLeft s).pending = s.pending ∧ (lineLeft s).site = s.site ∧ (lineLeft s).rate = s.rate
    ∧ (lineLeft s).lock = s.lock ∧ (lineLeft s).failed = s.failed ∧ (lineLeft s).records.wear = s.records.wear
    ∧ (lineLeft s).muteAck = s.muteAck := by
  first
  | (simp [lineLeft]; done)
  | (simp only [lineLeft]; (repeat' split) <;> simp_all; done)
  | (unfold lineLeft; simp only []; (repeat' split) <;> simp_all; done)

@[simp] theorem gapExpires_keeps (s : State) :
    (gapExpires s).pending = s.pending ∧ (gapExpires s).phase = s.phase ∧ (gapExpires s).cause = s.cause
    ∧ (gapExpires s).free = s.free ∧ (gapExpires s).link.lines = s.link.lines
    ∧ (gapExpires s).link.hold = s.link.hold ∧ (gapExpires s).link.held = s.link.held
    ∧ (gapExpires s).link.slot = s.link.slot ∧ (gapExpires s).link.owed = s.link.owed
    ∧ (gapExpires s).link.tx = s.link.tx ∧ (gapExpires s).link.enabled = s.link.enabled
    ∧ (gapExpires s).site = s.site ∧ (gapExpires s).rate = s.rate ∧ (gapExpires s).lock = s.lock
    ∧ (gapExpires s).store = s.store ∧ (gapExpires s).failed = s.failed ∧ (gapExpires s).images = s.images
    ∧ (gapExpires s).net = s.net ∧ (gapExpires s).routes = s.routes ∧ (gapExpires s).engine = s.engine
    ∧ (gapExpires s).ring = s.ring ∧ (gapExpires s).bus = s.bus ∧ (gapExpires s).cards = s.cards
    ∧ (gapExpires s).fixtures = s.fixtures ∧ (gapExpires s).loops = s.loops ∧ (gapExpires s).latch = s.latch
    ∧ (gapExpires s).records = s.records ∧ (gapExpires s).muteAck = s.muteAck := by
  first
  | (simp [gapExpires]; done)
  | (simp only [gapExpires]; (repeat' split) <;> simp_all; done)
  | (unfold gapExpires; simp only []; (repeat' split) <;> simp_all; done)

@[simp] theorem beginWrite_keeps (plus : Bool) (w : StoreWrite) (s : State) :
    (beginWrite plus w s).pending = s.pending ∧ (beginWrite plus w s).phase = s.phase
    ∧ (beginWrite plus w s).cause = s.cause ∧ (beginWrite plus w s).free = s.free
    ∧ (beginWrite plus w s).link.lines = s.link.lines ∧ (beginWrite plus w s).link.held = s.link.held
    ∧ (beginWrite plus w s).link.slot = s.link.slot ∧ (beginWrite plus w s).link.notices = s.link.notices
    ∧ (beginWrite plus w s).link.owed = s.link.owed ∧ (beginWrite plus w s).link.tx = s.link.tx
    ∧ (beginWrite plus w s).link.lost = s.link.lost ∧ (beginWrite plus w s).link.enabled = s.link.enabled
    ∧ (beginWrite plus w s).link.gap = s.link.gap ∧ (beginWrite plus w s).site = s.site
    ∧ (beginWrite plus w s).rate = s.rate ∧ (beginWrite plus w s).lock = s.lock
    ∧ (beginWrite plus w s).store = s.store ∧ (beginWrite plus w s).failed = s.failed
    ∧ (beginWrite plus w s).images = s.images ∧ (beginWrite plus w s).net = s.net
    ∧ (beginWrite plus w s).routes = s.routes ∧ (beginWrite plus w s).engine = s.engine
    ∧ (beginWrite plus w s).ring = s.ring ∧ (beginWrite plus w s).bus = s.bus ∧ (beginWrite plus w s).cards = s.cards
    ∧ (beginWrite plus w s).fixtures = s.fixtures ∧ (beginWrite plus w s).loops = s.loops
    ∧ (beginWrite plus w s).latch = s.latch ∧ (beginWrite plus w s).records = s.records
    ∧ (beginWrite plus w s).muteAck = s.muteAck := by
  first
  | (simp [beginWrite]; done)
  | (simp only [beginWrite]; (repeat' split) <;> simp_all; done)
  | (unfold beginWrite; simp only []; (repeat' split) <;> simp_all; done)

@[simp] theorem writeEnds_keeps (r : WriteResult) (s : State) :
    (writeEnds r s).pending = s.pending ∧ (writeEnds r s).phase = s.phase ∧ (writeEnds r s).cause = s.cause
    ∧ (writeEnds r s).free = s.free ∧ (writeEnds r s).link.lines = s.link.lines
    ∧ (writeEnds r s).link.notices = s.link.notices ∧ (writeEnds r s).link.owed = s.link.owed
    ∧ (writeEnds r s).link.tx = s.link.tx ∧ (writeEnds r s).link.lost = s.link.lost
    ∧ (writeEnds r s).link.enabled = s.link.enabled ∧ (writeEnds r s).link.gap = s.link.gap
    ∧ (writeEnds r s).rate = s.rate ∧ (writeEnds r s).failed = s.failed ∧ (writeEnds r s).net = s.net
    ∧ (writeEnds r s).routes = s.routes ∧ (writeEnds r s).engine = s.engine ∧ (writeEnds r s).ring = s.ring
    ∧ (writeEnds r s).bus = s.bus ∧ (writeEnds r s).cards = s.cards ∧ (writeEnds r s).fixtures = s.fixtures
    ∧ (writeEnds r s).loops = s.loops ∧ (writeEnds r s).latch = s.latch ∧ (writeEnds r s).records = s.records
    ∧ (writeEnds r s).muteAck = s.muteAck := by
  first
  | (simp [writeEnds]; done)
  | (simp only [writeEnds]; (repeat' split) <;> simp_all; done)
  | (unfold writeEnds; simp only []; (repeat' split) <;> simp_all; done)

@[simp] theorem cutLeg_keeps (a : Terminal) (s : State) :
    (cutLeg a s).pending = s.pending ∧ (cutLeg a s).phase = s.phase ∧ (cutLeg a s).cause = s.cause
    ∧ (cutLeg a s).free = s.free ∧ (cutLeg a s).link = s.link ∧ (cutLeg a s).site = s.site
    ∧ (cutLeg a s).rate = s.rate ∧ (cutLeg a s).lock = s.lock ∧ (cutLeg a s).store = s.store
    ∧ (cutLeg a s).failed = s.failed ∧ (cutLeg a s).images = s.images ∧ (cutLeg a s).net.elems = s.net.elems
    ∧ (cutLeg a s).net.ports = s.net.ports ∧ (cutLeg a s).net.released = s.net.released
    ∧ (cutLeg a s).net.locked = s.net.locked ∧ (cutLeg a s).routes = s.routes ∧ (cutLeg a s).engine = s.engine
    ∧ (cutLeg a s).ring = s.ring ∧ (cutLeg a s).bus = s.bus ∧ (cutLeg a s).cards = s.cards
    ∧ (cutLeg a s).fixtures = s.fixtures ∧ (cutLeg a s).loops = s.loops ∧ (cutLeg a s).latch = s.latch
    ∧ (cutLeg a s).records = s.records ∧ (cutLeg a s).muteAck = s.muteAck := by
  first
  | (simp [cutLeg]; done)
  | (simp only [cutLeg]; (repeat' split) <;> simp_all; done)
  | (unfold cutLeg; simp only []; (repeat' split) <;> simp_all; done)

@[simp] theorem cutLegs_keeps (l : List Terminal) (s : State) :
    (cutLegs l s).pending = s.pending ∧ (cutLegs l s).phase = s.phase ∧ (cutLegs l s).cause = s.cause
    ∧ (cutLegs l s).free = s.free ∧ (cutLegs l s).link = s.link ∧ (cutLegs l s).site = s.site
    ∧ (cutLegs l s).rate = s.rate ∧ (cutLegs l s).lock = s.lock ∧ (cutLegs l s).store = s.store
    ∧ (cutLegs l s).failed = s.failed ∧ (cutLegs l s).images = s.images ∧ (cutLegs l s).net.elems = s.net.elems
    ∧ (cutLegs l s).net.ports = s.net.ports ∧ (cutLegs l s).net.released = s.net.released
    ∧ (cutLegs l s).net.locked = s.net.locked ∧ (cutLegs l s).routes = s.routes ∧ (cutLegs l s).engine = s.engine
    ∧ (cutLegs l s).ring = s.ring ∧ (cutLegs l s).bus = s.bus ∧ (cutLegs l s).cards = s.cards
    ∧ (cutLegs l s).fixtures = s.fixtures ∧ (cutLegs l s).loops = s.loops ∧ (cutLegs l s).latch = s.latch
    ∧ (cutLegs l s).records = s.records ∧ (cutLegs l s).muteAck = s.muteAck := by
  first
  | (simp [cutLegs]; done)
  | (simp only [cutLegs]; (repeat' split) <;> simp_all; done)
  | (unfold cutLegs; simp only []; (repeat' split) <;> simp_all; done)

@[simp] theorem noticeOfEdit_keeps (n : Edit) (s : State) :
    (noticeOfEdit n s).pending = s.pending ∧ (noticeOfEdit n s).phase = s.phase ∧ (noticeOfEdit n s).cause = s.cause
    ∧ (noticeOfEdit n s).free = s.free ∧ (noticeOfEdit n s).link = s.link ∧ (noticeOfEdit n s).site = s.site
    ∧ (noticeOfEdit n s).rate = s.rate ∧ (noticeOfEdit n s).lock = s.lock ∧ (noticeOfEdit n s).store = s.store
    ∧ (noticeOfEdit n s).failed = s.failed ∧ (noticeOfEdit n s).images = s.images ∧ (noticeOfEdit n s).net = s.net
    ∧ (noticeOfEdit n s).engine = s.engine ∧ (noticeOfEdit n s).ring = s.ring ∧ (noticeOfEdit n s).bus = s.bus
    ∧ (noticeOfEdit n s).cards = s.cards ∧ (noticeOfEdit n s).fixtures = s.fixtures
    ∧ (noticeOfEdit n s).loops = s.loops ∧ (noticeOfEdit n s).latch = s.latch
    ∧ (noticeOfEdit n s).records = s.records ∧ (noticeOfEdit n s).muteAck = s.muteAck := by
  first
  | (simp [noticeOfEdit]; done)
  | (simp only [noticeOfEdit]; (repeat' split) <;> simp_all; done)
  | (unfold noticeOfEdit; simp only []; (repeat' split) <;> simp_all; done)

@[simp] theorem dropElemUse_keeps (e : Nat) (s : State) :
    (dropElemUse e s).pending = s.pending ∧ (dropElemUse e s).phase = s.phase ∧ (dropElemUse e s).cause = s.cause
    ∧ (dropElemUse e s).free = s.free ∧ (dropElemUse e s).link = s.link ∧ (dropElemUse e s).site = s.site
    ∧ (dropElemUse e s).rate = s.rate ∧ (dropElemUse e s).lock = s.lock ∧ (dropElemUse e s).store = s.store
    ∧ (dropElemUse e s).failed = s.failed ∧ (dropElemUse e s).images = s.images
    ∧ (dropElemUse e s).net.elems = s.net.elems ∧ (dropElemUse e s).net.ports = s.net.ports
    ∧ (dropElemUse e s).net.locked = s.net.locked ∧ (dropElemUse e s).routes = s.routes
    ∧ (dropElemUse e s).engine = s.engine ∧ (dropElemUse e s).ring = s.ring ∧ (dropElemUse e s).bus = s.bus
    ∧ (dropElemUse e s).cards = s.cards ∧ (dropElemUse e s).fixtures = s.fixtures ∧ (dropElemUse e s).loops = s.loops
    ∧ (dropElemUse e s).latch = s.latch ∧ (dropElemUse e s).records = s.records
    ∧ (dropElemUse e s).muteAck = s.muteAck := by
  first
  | (simp [dropElemUse]; done)
  | (simp only [dropElemUse]; (repeat' split) <;> simp_all; done)
  | (unfold dropElemUse; simp only []; (repeat' split) <;> simp_all; done)

@[simp] theorem elemEdit_keeps (before : State) (e : Nat) (s : State) :
    (elemEdit before e s).pending = s.pending ∧ (elemEdit before e s).phase = s.phase
    ∧ (elemEdit before e s).cause = s.cause ∧ (elemEdit before e s).free = s.free
    ∧ (elemEdit before e s).link = s.link ∧ (elemEdit before e s).site = s.site ∧ (elemEdit before e s).rate = s.rate
    ∧ (elemEdit before e s).lock = s.lock ∧ (elemEdit before e s).store = s.store
    ∧ (elemEdit before e s).failed = s.failed ∧ (elemEdit before e s).images = s.images
    ∧ (elemEdit before e s).net = s.net ∧ (elemEdit before e s).engine = s.engine
    ∧ (elemEdit before e s).ring = s.ring ∧ (elemEdit before e s).bus = s.bus ∧ (elemEdit before e s).cards = s.cards
    ∧ (elemEdit before e s).fixtures = s.fixtures ∧ (elemEdit before e s).loops = s.loops
    ∧ (elemEdit before e s).latch = s.latch ∧ (elemEdit before e s).records = s.records
    ∧ (elemEdit before e s).muteAck = s.muteAck := by
  first
  | (simp [elemEdit]; done)
  | (simp only [elemEdit]; (repeat' split) <;> simp_all; done)
  | (unfold elemEdit; simp only []; (repeat' split) <;> simp_all; done)

@[simp] theorem forgetElem_keeps (e : Nat) (s : State) :
    (forgetElem e s).pending = s.pending ∧ (forgetElem e s).phase = s.phase ∧ (forgetElem e s).cause = s.cause
    ∧ (forgetElem e s).free = s.free ∧ (forgetElem e s).link = s.link ∧ (forgetElem e s).site = s.site
    ∧ (forgetElem e s).rate = s.rate ∧ (forgetElem e s).lock = s.lock ∧ (forgetElem e s).store = s.store
    ∧ (forgetElem e s).failed = s.failed ∧ (forgetElem e s).images = s.images ∧ (forgetElem e s).net = s.net
    ∧ (forgetElem e s).routes = s.routes ∧ (forgetElem e s).engine.mode = s.engine.mode
    ∧ (forgetElem e s).engine.applied = s.engine.applied ∧ (forgetElem e s).engine.number = s.engine.number
    ∧ (forgetElem e s).engine.trans = s.engine.trans ∧ (forgetElem e s).engine.mute = s.engine.mute
    ∧ (forgetElem e s).engine.muteTimer = s.engine.muteTimer ∧ (forgetElem e s).engine.dropHeld = s.engine.dropHeld
    ∧ (forgetElem e s).engine.waiting = s.engine.waiting ∧ (forgetElem e s).engine.active = s.engine.active
    ∧ (forgetElem e s).engine.due = s.engine.due ∧ (forgetElem e s).ring = s.ring ∧ (forgetElem e s).bus = s.bus
    ∧ (forgetElem e s).cards = s.cards ∧ (forgetElem e s).fixtures = s.fixtures ∧ (forgetElem e s).loops = s.loops
    ∧ (forgetElem e s).latch = s.latch ∧ (forgetElem e s).records = s.records ∧ (forgetElem e s).muteAck = s.muteAck
    := by
  first
  | (simp [forgetElem]; done)
  | (simp only [forgetElem]; (repeat' split) <;> simp_all; done)
  | (unfold forgetElem; simp only []; (repeat' split) <;> simp_all; done)

@[simp] theorem definePort_keeps (p : Nat) (cls : PortClass) (fixture : Option Nat) (s : State) :
    (definePort p cls fixture s).pending = s.pending ∧ (definePort p cls fixture s).phase = s.phase
    ∧ (definePort p cls fixture s).cause = s.cause ∧ (definePort p cls fixture s).free = s.free
    ∧ (definePort p cls fixture s).link = s.link ∧ (definePort p cls fixture s).site = s.site
    ∧ (definePort p cls fixture s).rate = s.rate ∧ (definePort p cls fixture s).lock = s.lock
    ∧ (definePort p cls fixture s).store = s.store ∧ (definePort p cls fixture s).failed = s.failed
    ∧ (definePort p cls fixture s).images = s.images ∧ (definePort p cls fixture s).net.elems = s.net.elems
    ∧ (definePort p cls fixture s).net.legs = s.net.legs ∧ (definePort p cls fixture s).net.released = s.net.released
    ∧ (definePort p cls fixture s).net.locked = s.net.locked ∧ (definePort p cls fixture s).engine = s.engine
    ∧ (definePort p cls fixture s).ring = s.ring ∧ (definePort p cls fixture s).bus = s.bus
    ∧ (definePort p cls fixture s).cards = s.cards ∧ (definePort p cls fixture s).fixtures = s.fixtures
    ∧ (definePort p cls fixture s).loops = s.loops ∧ (definePort p cls fixture s).latch = s.latch
    ∧ (definePort p cls fixture s).records = s.records ∧ (definePort p cls fixture s).muteAck = s.muteAck := by
  first
  | (simp [definePort]; done)
  | (simp only [definePort]; (repeat' split) <;> simp_all; done)
  | (unfold definePort; simp only []; (repeat' split) <;> simp_all; done)

@[simp] theorem deletePort_keeps (p : Nat) (s : State) :
    (deletePort p s).pending = s.pending ∧ (deletePort p s).phase = s.phase ∧ (deletePort p s).cause = s.cause
    ∧ (deletePort p s).free = s.free ∧ (deletePort p s).link = s.link ∧ (deletePort p s).site = s.site
    ∧ (deletePort p s).rate = s.rate ∧ (deletePort p s).lock = s.lock ∧ (deletePort p s).store = s.store
    ∧ (deletePort p s).failed = s.failed ∧ (deletePort p s).images = s.images
    ∧ (deletePort p s).net.elems = s.net.elems ∧ (deletePort p s).net.released = s.net.released
    ∧ (deletePort p s).net.locked = s.net.locked ∧ (deletePort p s).engine = s.engine
    ∧ (deletePort p s).ring = s.ring ∧ (deletePort p s).bus = s.bus ∧ (deletePort p s).cards = s.cards
    ∧ (deletePort p s).fixtures = s.fixtures ∧ (deletePort p s).loops = s.loops ∧ (deletePort p s).latch = s.latch
    ∧ (deletePort p s).records = s.records ∧ (deletePort p s).muteAck = s.muteAck := by
  first
  | (simp [deletePort]; done)
  | (simp only [deletePort]; (repeat' split) <;> simp_all; done)
  | (unfold deletePort; simp only []; (repeat' split) <;> simp_all; done)

@[simp] theorem joinLeg_keeps (a : Terminal) (b : Terminal) (s : State) :
    (joinLeg a b s).pending = s.pending ∧ (joinLeg a b s).phase = s.phase ∧ (joinLeg a b s).cause = s.cause
    ∧ (joinLeg a b s).free = s.free ∧ (joinLeg a b s).link = s.link ∧ (joinLeg a b s).site = s.site
    ∧ (joinLeg a b s).rate = s.rate ∧ (joinLeg a b s).lock = s.lock ∧ (joinLeg a b s).store = s.store
    ∧ (joinLeg a b s).failed = s.failed ∧ (joinLeg a b s).images = s.images ∧ (joinLeg a b s).net.elems = s.net.elems
    ∧ (joinLeg a b s).net.ports = s.net.ports ∧ (joinLeg a b s).net.released = s.net.released
    ∧ (joinLeg a b s).net.locked = s.net.locked ∧ (joinLeg a b s).engine = s.engine ∧ (joinLeg a b s).ring = s.ring
    ∧ (joinLeg a b s).bus = s.bus ∧ (joinLeg a b s).cards = s.cards ∧ (joinLeg a b s).fixtures = s.fixtures
    ∧ (joinLeg a b s).loops = s.loops ∧ (joinLeg a b s).latch = s.latch ∧ (joinLeg a b s).records = s.records
    ∧ (joinLeg a b s).muteAck = s.muteAck := by
  first
  | (simp [joinLeg]; done)
  | (simp only [joinLeg]; (repeat' split) <;> simp_all; done)
  | (unfold joinLeg; simp only []; (repeat' split) <;> simp_all; done)

@[simp] theorem removeLeg_keeps (a : Terminal) (s : State) :
    (removeLeg a s).pending = s.pending ∧ (removeLeg a s).phase = s.phase ∧ (removeLeg a s).cause = s.cause
    ∧ (removeLeg a s).free = s.free ∧ (removeLeg a s).link = s.link ∧ (removeLeg a s).site = s.site
    ∧ (removeLeg a s).rate = s.rate ∧ (removeLeg a s).lock = s.lock ∧ (removeLeg a s).store = s.store
    ∧ (removeLeg a s).failed = s.failed ∧ (removeLeg a s).images = s.images ∧ (removeLeg a s).net.elems = s.net.elems
    ∧ (removeLeg a s).net.ports = s.net.ports ∧ (removeLeg a s).net.released = s.net.released
    ∧ (removeLeg a s).net.locked = s.net.locked ∧ (removeLeg a s).engine = s.engine ∧ (removeLeg a s).ring = s.ring
    ∧ (removeLeg a s).bus = s.bus ∧ (removeLeg a s).cards = s.cards ∧ (removeLeg a s).fixtures = s.fixtures
    ∧ (removeLeg a s).loops = s.loops ∧ (removeLeg a s).latch = s.latch ∧ (removeLeg a s).records = s.records
    ∧ (removeLeg a s).muteAck = s.muteAck := by
  first
  | (simp [removeLeg]; done)
  | (simp only [removeLeg]; (repeat' split) <;> simp_all; done)
  | (unfold removeLeg; simp only []; (repeat' split) <;> simp_all; done)

@[simp] theorem setRoute_keeps (r : Nat) (x : Route) (s : State) :
    (setRoute r x s).pending = s.pending ∧ (setRoute r x s).phase = s.phase ∧ (setRoute r x s).cause = s.cause
    ∧ (setRoute r x s).free = s.free ∧ (setRoute r x s).link = s.link ∧ (setRoute r x s).site = s.site
    ∧ (setRoute r x s).rate = s.rate ∧ (setRoute r x s).lock = s.lock ∧ (setRoute r x s).store = s.store
    ∧ (setRoute r x s).failed = s.failed ∧ (setRoute r x s).images = s.images ∧ (setRoute r x s).net = s.net
    ∧ (setRoute r x s).engine = s.engine ∧ (setRoute r x s).ring = s.ring ∧ (setRoute r x s).bus = s.bus
    ∧ (setRoute r x s).cards = s.cards ∧ (setRoute r x s).fixtures = s.fixtures ∧ (setRoute r x s).loops = s.loops
    ∧ (setRoute r x s).latch = s.latch ∧ (setRoute r x s).records = s.records ∧ (setRoute r x s).muteAck = s.muteAck
    := by
  first
  | (simp [setRoute]; done)
  | (simp only [setRoute]; (repeat' split) <;> simp_all; done)
  | (unfold setRoute; simp only []; (repeat' split) <;> simp_all; done)

@[simp] theorem deleteRoute_keeps (r : Nat) (s : State) :
    (deleteRoute r s).2.pending = s.pending ∧ (deleteRoute r s).2.phase = s.phase
    ∧ (deleteRoute r s).2.cause = s.cause ∧ (deleteRoute r s).2.free = s.free ∧ (deleteRoute r s).2.link = s.link
    ∧ (deleteRoute r s).2.site = s.site ∧ (deleteRoute r s).2.rate = s.rate ∧ (deleteRoute r s).2.lock = s.lock
    ∧ (deleteRoute r s).2.store = s.store ∧ (deleteRoute r s).2.failed = s.failed
    ∧ (deleteRoute r s).2.images = s.images ∧ (deleteRoute r s).2.net = s.net ∧ (deleteRoute r s).2.engine = s.engine
    ∧ (deleteRoute r s).2.ring = s.ring ∧ (deleteRoute r s).2.bus = s.bus ∧ (deleteRoute r s).2.cards = s.cards
    ∧ (deleteRoute r s).2.fixtures = s.fixtures ∧ (deleteRoute r s).2.loops = s.loops
    ∧ (deleteRoute r s).2.latch = s.latch ∧ (deleteRoute r s).2.records = s.records
    ∧ (deleteRoute r s).2.muteAck = s.muteAck := by
  first
  | (simp [deleteRoute]; done)
  | (simp only [deleteRoute]; (repeat' split) <;> simp_all; done)
  | (unfold deleteRoute; simp only []; (repeat' split) <;> simp_all; done)

@[simp] theorem pulseEnds_keeps (e : Nat) (s : State) :
    (pulseEnds e s).pending = s.pending ∧ (pulseEnds e s).phase = s.phase ∧ (pulseEnds e s).cause = s.cause
    ∧ (pulseEnds e s).free = s.free ∧ (pulseEnds e s).link = s.link ∧ (pulseEnds e s).site = s.site
    ∧ (pulseEnds e s).rate = s.rate ∧ (pulseEnds e s).lock = s.lock ∧ (pulseEnds e s).store = s.store
    ∧ (pulseEnds e s).failed = s.failed ∧ (pulseEnds e s).images = s.images ∧ (pulseEnds e s).net = s.net
    ∧ (pulseEnds e s).routes = s.routes ∧ (pulseEnds e s).engine.mode = s.engine.mode
    ∧ (pulseEnds e s).engine.applied = s.engine.applied ∧ (pulseEnds e s).engine.number = s.engine.number
    ∧ (pulseEnds e s).engine.trans = s.engine.trans ∧ (pulseEnds e s).engine.mute = s.engine.mute
    ∧ (pulseEnds e s).engine.muteTimer = s.engine.muteTimer ∧ (pulseEnds e s).engine.dropHeld = s.engine.dropHeld
    ∧ (pulseEnds e s).engine.waiting = s.engine.waiting ∧ (pulseEnds e s).engine.due = s.engine.due
    ∧ (pulseEnds e s).engine.staging = s.engine.staging ∧ (pulseEnds e s).engine.survey = s.engine.survey
    ∧ (pulseEnds e s).engine.holder = s.engine.holder ∧ (pulseEnds e s).ring = s.ring ∧ (pulseEnds e s).bus = s.bus
    ∧ (pulseEnds e s).fixtures = s.fixtures ∧ (pulseEnds e s).loops = s.loops ∧ (pulseEnds e s).latch = s.latch
    ∧ (pulseEnds e s).records = s.records ∧ (pulseEnds e s).muteAck = s.muteAck := by
  first
  | (simp [pulseEnds]; done)
  | (simp only [pulseEnds]; (repeat' split) <;> simp_all; done)
  | (unfold pulseEnds; simp only []; (repeat' split) <;> simp_all; done)

@[simp] theorem senseFallsDue_keeps (e : Nat) (retry : Bool) (s : State) :
    (senseFallsDue e retry s).pending = s.pending ∧ (senseFallsDue e retry s).phase = s.phase
    ∧ (senseFallsDue e retry s).cause = s.cause ∧ (senseFallsDue e retry s).free = s.free
    ∧ (senseFallsDue e retry s).link = s.link ∧ (senseFallsDue e retry s).site = s.site
    ∧ (senseFallsDue e retry s).rate = s.rate ∧ (senseFallsDue e retry s).lock = s.lock
    ∧ (senseFallsDue e retry s).store = s.store ∧ (senseFallsDue e retry s).failed = s.failed
    ∧ (senseFallsDue e retry s).images = s.images ∧ (senseFallsDue e retry s).net = s.net
    ∧ (senseFallsDue e retry s).routes = s.routes ∧ (senseFallsDue e retry s).engine.mode = s.engine.mode
    ∧ (senseFallsDue e retry s).engine.applied = s.engine.applied
    ∧ (senseFallsDue e retry s).engine.number = s.engine.number
    ∧ (senseFallsDue e retry s).engine.trans = s.engine.trans ∧ (senseFallsDue e retry s).engine.mute = s.engine.mute
    ∧ (senseFallsDue e retry s).engine.muteTimer = s.engine.muteTimer
    ∧ (senseFallsDue e retry s).engine.dropHeld = s.engine.dropHeld
    ∧ (senseFallsDue e retry s).engine.waiting = s.engine.waiting
    ∧ (senseFallsDue e retry s).engine.staging = s.engine.staging
    ∧ (senseFallsDue e retry s).engine.survey = s.engine.survey
    ∧ (senseFallsDue e retry s).engine.holder = s.engine.holder ∧ (senseFallsDue e retry s).ring = s.ring
    ∧ (senseFallsDue e retry s).bus = s.bus ∧ (senseFallsDue e retry s).cards = s.cards
    ∧ (senseFallsDue e retry s).fixtures = s.fixtures ∧ (senseFallsDue e retry s).loops = s.loops
    ∧ (senseFallsDue e retry s).latch = s.latch ∧ (senseFallsDue e retry s).records = s.records
    ∧ (senseFallsDue e retry s).muteAck = s.muteAck := by
  first
  | (simp [senseFallsDue]; done)
  | (simp only [senseFallsDue]; (repeat' split) <;> simp_all; done)
  | (unfold senseFallsDue; simp only []; (repeat' split) <;> simp_all; done)

@[simp] theorem retryEnds_keeps (e : Nat) (s : State) :
    (retryEnds e s).pending = s.pending ∧ (retryEnds e s).phase = s.phase ∧ (retryEnds e s).cause = s.cause
    ∧ (retryEnds e s).free = s.free ∧ (retryEnds e s).link = s.link ∧ (retryEnds e s).site = s.site
    ∧ (retryEnds e s).rate = s.rate ∧ (retryEnds e s).lock = s.lock ∧ (retryEnds e s).store = s.store
    ∧ (retryEnds e s).failed = s.failed ∧ (retryEnds e s).images = s.images ∧ (retryEnds e s).net = s.net
    ∧ (retryEnds e s).routes = s.routes ∧ (retryEnds e s).engine.mode = s.engine.mode
    ∧ (retryEnds e s).engine.applied = s.engine.applied ∧ (retryEnds e s).engine.number = s.engine.number
    ∧ (retryEnds e s).engine.trans = s.engine.trans ∧ (retryEnds e s).engine.mute = s.engine.mute
    ∧ (retryEnds e s).engine.muteTimer = s.engine.muteTimer ∧ (retryEnds e s).engine.dropHeld = s.engine.dropHeld
    ∧ (retryEnds e s).engine.waiting = s.engine.waiting ∧ (retryEnds e s).engine.staging = s.engine.staging
    ∧ (retryEnds e s).engine.survey = s.engine.survey ∧ (retryEnds e s).engine.holder = s.engine.holder
    ∧ (retryEnds e s).ring = s.ring ∧ (retryEnds e s).bus = s.bus ∧ (retryEnds e s).cards = s.cards
    ∧ (retryEnds e s).fixtures = s.fixtures ∧ (retryEnds e s).loops = s.loops ∧ (retryEnds e s).latch = s.latch
    ∧ (retryEnds e s).records = s.records ∧ (retryEnds e s).muteAck = s.muteAck := by
  first
  | (simp [retryEnds]; done)
  | (simp only [retryEnds]; (repeat' split) <;> simp_all; done)
  | (unfold retryEnds; simp only []; (repeat' split) <;> simp_all; done)

@[simp] theorem beginSurvey_keeps (l : List Nat) (s : State) :
    (beginSurvey l s).pending = s.pending ∧ (beginSurvey l s).phase = s.phase ∧ (beginSurvey l s).cause = s.cause
    ∧ (beginSurvey l s).free = s.free ∧ (beginSurvey l s).link = s.link ∧ (beginSurvey l s).site = s.site
    ∧ (beginSurvey l s).rate = s.rate ∧ (beginSurvey l s).lock = s.lock ∧ (beginSurvey l s).store = s.store
    ∧ (beginSurvey l s).failed = s.failed ∧ (beginSurvey l s).images = s.images ∧ (beginSurvey l s).net = s.net
    ∧ (beginSurvey l s).routes = s.routes ∧ (beginSurvey l s).engine.applied = s.engine.applied
    ∧ (beginSurvey l s).engine.number = s.engine.number ∧ (beginSurvey l s).engine.trans = s.engine.trans
    ∧ (beginSurvey l s).engine.mute = s.engine.mute ∧ (beginSurvey l s).engine.muteTimer = s.engine.muteTimer
    ∧ (beginSurvey l s).engine.dropHeld = s.engine.dropHeld ∧ (beginSurvey l s).engine.waiting = s.engine.waiting
    ∧ (beginSurvey l s).engine.active = s.engine.active ∧ (beginSurvey l s).engine.due = s.engine.due
    ∧ (beginSurvey l s).engine.staging = s.engine.staging ∧ (beginSurvey l s).engine.holder = s.engine.holder
    ∧ (beginSurvey l s).ring = s.ring ∧ (beginSurvey l s).bus = s.bus ∧ (beginSurvey l s).cards = s.cards
    ∧ (beginSurvey l s).fixtures = s.fixtures ∧ (beginSurvey l s).loops = s.loops ∧ (beginSurvey l s).latch = s.latch
    ∧ (beginSurvey l s).records = s.records ∧ (beginSurvey l s).muteAck = s.muteAck := by
  first
  | (simp [beginSurvey]; done)
  | (simp only [beginSurvey]; (repeat' split) <;> simp_all; done)
  | (unfold beginSurvey; simp only []; (repeat' split) <;> simp_all; done)

@[simp] theorem afterStepEdit_keeps (i : Nat) (s : State) :
    (afterStepEdit i s).pending = s.pending ∧ (afterStepEdit i s).phase = s.phase
    ∧ (afterStepEdit i s).cause = s.cause ∧ (afterStepEdit i s).free = s.free
    ∧ (afterStepEdit i s).link.lines = s.link.lines ∧ (afterStepEdit i s).link.held = s.link.held
    ∧ (afterStepEdit i s).link.slot = s.link.slot ∧ (afterStepEdit i s).link.notices = s.link.notices
    ∧ (afterStepEdit i s).link.owed = s.link.owed ∧ (afterStepEdit i s).link.tx = s.link.tx
    ∧ (afterStepEdit i s).link.lost = s.link.lost ∧ (afterStepEdit i s).link.enabled = s.link.enabled
    ∧ (afterStepEdit i s).link.gap = s.link.gap ∧ (afterStepEdit i s).site = s.site
    ∧ (afterStepEdit i s).rate = s.rate ∧ (afterStepEdit i s).lock = s.lock ∧ (afterStepEdit i s).store = s.store
    ∧ (afterStepEdit i s).failed = s.failed ∧ (afterStepEdit i s).images = s.images ∧ (afterStepEdit i s).net = s.net
    ∧ (afterStepEdit i s).routes = s.routes ∧ (afterStepEdit i s).engine.applied = s.engine.applied
    ∧ (afterStepEdit i s).engine.number = s.engine.number ∧ (afterStepEdit i s).engine.trans = s.engine.trans
    ∧ (afterStepEdit i s).engine.mute = s.engine.mute ∧ (afterStepEdit i s).engine.muteTimer = s.engine.muteTimer
    ∧ (afterStepEdit i s).engine.dropHeld = s.engine.dropHeld ∧ (afterStepEdit i s).engine.waiting = s.engine.waiting
    ∧ (afterStepEdit i s).engine.active = s.engine.active ∧ (afterStepEdit i s).engine.due = s.engine.due
    ∧ (afterStepEdit i s).engine.survey = s.engine.survey ∧ (afterStepEdit i s).ring.steps = s.ring.steps
    ∧ (afterStepEdit i s).ring.state = s.ring.state ∧ (afterStepEdit i s).ring.len = s.ring.len
    ∧ (afterStepEdit i s).ring.ptr = s.ring.ptr ∧ (afterStepEdit i s).ring.pass = s.ring.pass
    ∧ (afterStepEdit i s).ring.pendingTrig = s.ring.pendingTrig ∧ (afterStepEdit i s).ring.overrun = s.ring.overrun
    ∧ (afterStepEdit i s).ring.holdPending = s.ring.holdPending ∧ (afterStepEdit i s).ring.halt = s.ring.halt
    ∧ (afterStepEdit i s).ring.dwellTimer = s.ring.dwellTimer ∧ (afterStepEdit i s).ring.keptDwell = s.ring.keptDwell
    ∧ (afterStepEdit i s).ring.markTimer = s.ring.markTimer ∧ (afterStepEdit i s).ring.report = s.ring.report
    ∧ (afterStepEdit i s).bus = s.bus ∧ (afterStepEdit i s).cards = s.cards
    ∧ (afterStepEdit i s).fixtures = s.fixtures ∧ (afterStepEdit i s).loops = s.loops
    ∧ (afterStepEdit i s).latch = s.latch ∧ (afterStepEdit i s).records = s.records
    ∧ (afterStepEdit i s).muteAck = s.muteAck := by
  first
  | (simp [afterStepEdit]; done)
  | (simp only [afterStepEdit]; (repeat' split) <;> simp_all; done)
  | (unfold afterStepEdit; simp only []; (repeat' split) <;> simp_all; done)

@[simp] theorem setSteps_keeps (t : Table StepRec) (s : State) :
    (setSteps t s).pending = s.pending ∧ (setSteps t s).phase = s.phase ∧ (setSteps t s).cause = s.cause
    ∧ (setSteps t s).free = s.free ∧ (setSteps t s).link = s.link ∧ (setSteps t s).site = s.site
    ∧ (setSteps t s).rate = s.rate ∧ (setSteps t s).lock = s.lock ∧ (setSteps t s).store = s.store
    ∧ (setSteps t s).failed = s.failed ∧ (setSteps t s).images = s.images ∧ (setSteps t s).net = s.net
    ∧ (setSteps t s).routes = s.routes ∧ (setSteps t s).engine = s.engine ∧ (setSteps t s).ring.state = s.ring.state
    ∧ (setSteps t s).ring.len = s.ring.len ∧ (setSteps t s).ring.ptr = s.ring.ptr
    ∧ (setSteps t s).ring.visit = s.ring.visit ∧ (setSteps t s).ring.pass = s.ring.pass
    ∧ (setSteps t s).ring.pendingTrig = s.ring.pendingTrig ∧ (setSteps t s).ring.overrun = s.ring.overrun
    ∧ (setSteps t s).ring.holdPending = s.ring.holdPending ∧ (setSteps t s).ring.halt = s.ring.halt
    ∧ (setSteps t s).ring.dwellTimer = s.ring.dwellTimer ∧ (setSteps t s).ring.keptDwell = s.ring.keptDwell
    ∧ (setSteps t s).ring.markTimer = s.ring.markTimer ∧ (setSteps t s).ring.report = s.ring.report
    ∧ (setSteps t s).bus = s.bus ∧ (setSteps t s).cards = s.cards ∧ (setSteps t s).fixtures = s.fixtures
    ∧ (setSteps t s).loops = s.loops ∧ (setSteps t s).latch = s.latch ∧ (setSteps t s).records = s.records
    ∧ (setSteps t s).muteAck = s.muteAck := by
  first
  | (simp [setSteps]; done)
  | (simp only [setSteps]; (repeat' split) <;> simp_all; done)
  | (unfold setSteps; simp only []; (repeat' split) <;> simp_all; done)

@[simp] theorem aimRing_keeps (i : Nat) (s : State) :
    (aimRing i s).pending = s.pending ∧ (aimRing i s).phase = s.phase ∧ (aimRing i s).cause = s.cause
    ∧ (aimRing i s).free = s.free ∧ (aimRing i s).link.lines = s.link.lines ∧ (aimRing i s).link.held = s.link.held
    ∧ (aimRing i s).link.slot = s.link.slot ∧ (aimRing i s).link.notices = s.link.notices
    ∧ (aimRing i s).link.owed = s.link.owed ∧ (aimRing i s).link.tx = s.link.tx
    ∧ (aimRing i s).link.lost = s.link.lost ∧ (aimRing i s).link.enabled = s.link.enabled
    ∧ (aimRing i s).link.gap = s.link.gap ∧ (aimRing i s).site = s.site ∧ (aimRing i s).rate = s.rate
    ∧ (aimRing i s).lock = s.lock ∧ (aimRing i s).store = s.store ∧ (aimRing i s).failed = s.failed
    ∧ (aimRing i s).images = s.images ∧ (aimRing i s).net = s.net ∧ (aimRing i s).routes = s.routes
    ∧ (aimRing i s).engine.applied = s.engine.applied ∧ (aimRing i s).engine.number = s.engine.number
    ∧ (aimRing i s).engine.trans = s.engine.trans ∧ (aimRing i s).engine.mute = s.engine.mute
    ∧ (aimRing i s).engine.muteTimer = s.engine.muteTimer ∧ (aimRing i s).engine.dropHeld = s.engine.dropHeld
    ∧ (aimRing i s).engine.waiting = s.engine.waiting ∧ (aimRing i s).engine.active = s.engine.active
    ∧ (aimRing i s).engine.due = s.engine.due ∧ (aimRing i s).engine.survey = s.engine.survey
    ∧ (aimRing i s).ring.steps = s.ring.steps ∧ (aimRing i s).ring.state = s.ring.state
    ∧ (aimRing i s).ring.len = s.ring.len ∧ (aimRing i s).ring.dwellTimer = s.ring.dwellTimer
    ∧ (aimRing i s).ring.keptDwell = s.ring.keptDwell ∧ (aimRing i s).ring.markTimer = s.ring.markTimer
    ∧ (aimRing i s).ring.report = s.ring.report ∧ (aimRing i s).bus = s.bus ∧ (aimRing i s).cards = s.cards
    ∧ (aimRing i s).fixtures = s.fixtures ∧ (aimRing i s).loops = s.loops ∧ (aimRing i s).latch = s.latch
    ∧ (aimRing i s).records = s.records ∧ (aimRing i s).muteAck = s.muteAck := by
  first
  | (simp [aimRing]; done)
  | (simp only [aimRing]; (repeat' split) <;> simp_all; done)
  | (unfold aimRing; simp only []; (repeat' split) <;> simp_all; done)

@[simp] theorem visitEnds_keeps (st : StepRec) (s : State) :
    (visitEnds st s).1.pending = s.pending ∧ (visitEnds st s).1.phase = s.phase ∧ (visitEnds st s).1.cause = s.cause
    ∧ (visitEnds st s).1.free = s.free ∧ (visitEnds st s).1.link.lines = s.link.lines
    ∧ (visitEnds st s).1.link.held = s.link.held ∧ (visitEnds st s).1.link.slot = s.link.slot
    ∧ (visitEnds st s).1.link.owed = s.link.owed ∧ (visitEnds st s).1.link.tx = s.link.tx
    ∧ (visitEnds st s).1.link.enabled = s.link.enabled ∧ (visitEnds st s).1.link.gap = s.link.gap
    ∧ (visitEnds st s).1.site = s.site ∧ (visitEnds st s).1.rate = s.rate ∧ (visitEnds st s).1.lock = s.lock
    ∧ (visitEnds st s).1.store = s.store ∧ (visitEnds st s).1.failed = s.failed
    ∧ (visitEnds st s).1.images = s.images ∧ (visitEnds st s).1.net.ports = s.net.ports
    ∧ (visitEnds st s).1.net.legs = s.net.legs ∧ (visitEnds st s).1.net.released = s.net.released
    ∧ (visitEnds st s).1.net.locked = s.net.locked ∧ (visitEnds st s).1.engine.applied = s.engine.applied
    ∧ (visitEnds st s).1.engine.dropHeld = s.engine.dropHeld ∧ (visitEnds st s).1.engine.active = s.engine.active
    ∧ (visitEnds st s).1.engine.due = s.engine.due ∧ (visitEnds st s).1.engine.survey = s.engine.survey
    ∧ (visitEnds st s).1.ring.steps = s.ring.steps ∧ (visitEnds st s).1.ring.len = s.ring.len
    ∧ (visitEnds st s).1.ring.markTimer = s.ring.markTimer ∧ (visitEnds st s).1.ring.report = s.ring.report
    ∧ (visitEnds st s).1.bus = s.bus ∧ (visitEnds st s).1.cards = s.cards ∧ (visitEnds st s).1.fixtures = s.fixtures
    ∧ (visitEnds st s).1.loops = s.loops ∧ (visitEnds st s).1.latch = s.latch
    ∧ (visitEnds st s).1.records.late = s.records.late ∧ (visitEnds st s).1.records.wear = s.records.wear
    ∧ (visitEnds st s).1.muteAck = s.muteAck := by
  first
  | (simp [visitEnds]; done)
  | (simp only [visitEnds]; (repeat' split) <;> simp_all; done)
  | (unfold visitEnds; simp only []; (repeat' split) <;> simp_all; done)

@[simp] theorem dwellEnds_keeps (s : State) :
    (dwellEnds s).1.pending = s.pending ∧ (dwellEnds s).1.phase = s.phase ∧ (dwellEnds s).1.cause = s.cause
    ∧ (dwellEnds s).1.free = s.free ∧ (dwellEnds s).1.link.lines = s.link.lines
    ∧ (dwellEnds s).1.link.held = s.link.held ∧ (dwellEnds s).1.link.slot = s.link.slot
    ∧ (dwellEnds s).1.link.owed = s.link.owed ∧ (dwellEnds s).1.link.tx = s.link.tx
    ∧ (dwellEnds s).1.link.enabled = s.link.enabled ∧ (dwellEnds s).1.link.gap = s.link.gap
    ∧ (dwellEnds s).1.site = s.site ∧ (dwellEnds s).1.rate = s.rate ∧ (dwellEnds s).1.lock = s.lock
    ∧ (dwellEnds s).1.store = s.store ∧ (dwellEnds s).1.failed = s.failed ∧ (dwellEnds s).1.images = s.images
    ∧ (dwellEnds s).1.net.ports = s.net.ports ∧ (dwellEnds s).1.net.legs = s.net.legs
    ∧ (dwellEnds s).1.net.released = s.net.released ∧ (dwellEnds s).1.net.locked = s.net.locked
    ∧ (dwellEnds s).1.engine.applied = s.engine.applied ∧ (dwellEnds s).1.engine.dropHeld = s.engine.dropHeld
    ∧ (dwellEnds s).1.engine.active = s.engine.active ∧ (dwellEnds s).1.engine.due = s.engine.due
    ∧ (dwellEnds s).1.engine.survey = s.engine.survey ∧ (dwellEnds s).1.ring.steps = s.ring.steps
    ∧ (dwellEnds s).1.ring.len = s.ring.len ∧ (dwellEnds s).1.ring.markTimer = s.ring.markTimer
    ∧ (dwellEnds s).1.ring.report = s.ring.report ∧ (dwellEnds s).1.bus = s.bus ∧ (dwellEnds s).1.cards = s.cards
    ∧ (dwellEnds s).1.fixtures = s.fixtures ∧ (dwellEnds s).1.loops = s.loops ∧ (dwellEnds s).1.latch = s.latch
    ∧ (dwellEnds s).1.records.late = s.records.late ∧ (dwellEnds s).1.records.wear = s.records.wear
    ∧ (dwellEnds s).1.muteAck = s.muteAck := by
  first
  | (simp [dwellEnds]; done)
  | (simp only [dwellEnds]; (repeat' split) <;> simp_all; done)
  | (unfold dwellEnds; simp only []; (repeat' split) <;> simp_all; done)

@[simp] theorem takeTrigger_keeps (s : State) :
    (takeTrigger s).1.1.pending = s.pending ∧ (takeTrigger s).1.1.phase = s.phase
    ∧ (takeTrigger s).1.1.cause = s.cause ∧ (takeTrigger s).1.1.free = s.free
    ∧ (takeTrigger s).1.1.link.lines = s.link.lines ∧ (takeTrigger s).1.1.link.held = s.link.held
    ∧ (takeTrigger s).1.1.link.slot = s.link.slot ∧ (takeTrigger s).1.1.link.owed = s.link.owed
    ∧ (takeTrigger s).1.1.link.tx = s.link.tx ∧ (takeTrigger s).1.1.link.enabled = s.link.enabled
    ∧ (takeTrigger s).1.1.link.gap = s.link.gap ∧ (takeTrigger s).1.1.site = s.site
    ∧ (takeTrigger s).1.1.rate = s.rate ∧ (takeTrigger s).1.1.lock = s.lock ∧ (takeTrigger s).1.1.store = s.store
    ∧ (takeTrigger s).1.1.failed = s.failed ∧ (takeTrigger s).1.1.images = s.images
    ∧ (takeTrigger s).1.1.net.ports = s.net.ports ∧ (takeTrigger s).1.1.net.legs = s.net.legs
    ∧ (takeTrigger s).1.1.net.released = s.net.released ∧ (takeTrigger s).1.1.net.locked = s.net.locked
    ∧ (takeTrigger s).1.1.engine.applied = s.engine.applied ∧ (takeTrigger s).1.1.engine.dropHeld = s.engine.dropHeld
    ∧ (takeTrigger s).1.1.engine.active = s.engine.active ∧ (takeTrigger s).1.1.engine.due = s.engine.due
    ∧ (takeTrigger s).1.1.engine.survey = s.engine.survey ∧ (takeTrigger s).1.1.ring.steps = s.ring.steps
    ∧ (takeTrigger s).1.1.ring.len = s.ring.len ∧ (takeTrigger s).1.1.ring.markTimer = s.ring.markTimer
    ∧ (takeTrigger s).1.1.ring.report = s.ring.report ∧ (takeTrigger s).1.1.bus = s.bus
    ∧ (takeTrigger s).1.1.cards = s.cards ∧ (takeTrigger s).1.1.fixtures = s.fixtures
    ∧ (takeTrigger s).1.1.loops = s.loops ∧ (takeTrigger s).1.1.latch = s.latch
    ∧ (takeTrigger s).1.1.records.late = s.records.late ∧ (takeTrigger s).1.1.records.wear = s.records.wear
    ∧ (takeTrigger s).1.1.muteAck = s.muteAck := by
  first
  | (simp [takeTrigger]; done)
  | (simp only [takeTrigger]; (repeat' split) <;> simp_all; done)
  | (unfold takeTrigger; simp only []; (repeat' split) <;> simp_all; done)

@[simp] theorem dwellRead_keeps (s : State) :
    (dwellRead s).pending = s.pending ∧ (dwellRead s).phase = s.phase ∧ (dwellRead s).cause = s.cause
    ∧ (dwellRead s).link = s.link ∧ (dwellRead s).site = s.site ∧ (dwellRead s).rate = s.rate
    ∧ (dwellRead s).lock = s.lock ∧ (dwellRead s).store = s.store ∧ (dwellRead s).failed = s.failed
    ∧ (dwellRead s).images = s.images ∧ (dwellRead s).net = s.net ∧ (dwellRead s).routes = s.routes
    ∧ (dwellRead s).engine = s.engine ∧ (dwellRead s).ring = s.ring ∧ (dwellRead s).bus = s.bus
    ∧ (dwellRead s).cards = s.cards ∧ (dwellRead s).fixtures = s.fixtures ∧ (dwellRead s).loops = s.loops
    ∧ (dwellRead s).latch = s.latch ∧ (dwellRead s).records = s.records ∧ (dwellRead s).muteAck = s.muteAck := by
  first
  | (simp [dwellRead]; done)
  | (simp only [dwellRead]; (repeat' split) <;> simp_all; done)
  | (unfold dwellRead; simp only []; (repeat' split) <;> simp_all; done)

@[simp] theorem holdRing_keeps (s : State) :
    (holdRing s).pending = s.pending ∧ (holdRing s).phase = s.phase ∧ (holdRing s).cause = s.cause
    ∧ (holdRing s).link.lines = s.link.lines ∧ (holdRing s).link.held = s.link.held
    ∧ (holdRing s).link.slot = s.link.slot ∧ (holdRing s).link.notices = s.link.notices
    ∧ (holdRing s).link.owed = s.link.owed ∧ (holdRing s).link.tx = s.link.tx ∧ (holdRing s).link.lost = s.link.lost
    ∧ (holdRing s).link.enabled = s.link.enabled ∧ (holdRing s).link.gap = s.link.gap ∧ (holdRing s).site = s.site
    ∧ (holdRing s).rate = s.rate ∧ (holdRing s).lock = s.lock ∧ (holdRing s).store = s.store
    ∧ (holdRing s).failed = s.failed ∧ (holdRing s).images = s.images ∧ (holdRing s).net = s.net
    ∧ (holdRing s).routes = s.routes ∧ (holdRing s).engine.applied = s.engine.applied
    ∧ (holdRing s).engine.number = s.engine.number ∧ (holdRing s).engine.trans = s.engine.trans
    ∧ (holdRing s).engine.mute = s.engine.mute ∧ (holdRing s).engine.muteTimer = s.engine.muteTimer
    ∧ (holdRing s).engine.dropHeld = s.engine.dropHeld ∧ (holdRing s).engine.waiting = s.engine.waiting
    ∧ (holdRing s).engine.active = s.engine.active ∧ (holdRing s).engine.due = s.engine.due
    ∧ (holdRing s).engine.survey = s.engine.survey ∧ (holdRing s).ring.steps = s.ring.steps
    ∧ (holdRing s).ring.len = s.ring.len ∧ (holdRing s).ring.ptr = s.ring.ptr
    ∧ (holdRing s).ring.visit = s.ring.visit ∧ (holdRing s).ring.pass = s.ring.pass
    ∧ (holdRing s).ring.pendingTrig = s.ring.pendingTrig ∧ (holdRing s).ring.overrun = s.ring.overrun
    ∧ (holdRing s).ring.halt = s.ring.halt ∧ (holdRing s).ring.markTimer = s.ring.markTimer
    ∧ (holdRing s).ring.report = s.ring.report ∧ (holdRing s).bus = s.bus ∧ (holdRing s).cards = s.cards
    ∧ (holdRing s).fixtures = s.fixtures ∧ (holdRing s).loops = s.loops ∧ (holdRing s).latch = s.latch
    ∧ (holdRing s).records = s.records ∧ (holdRing s).muteAck = s.muteAck := by
  first
  | (simp [holdRing]; done)
  | (simp only [holdRing]; (repeat' split) <;> simp_all; done)
  | (unfold holdRing; simp only []; (repeat' split) <;> simp_all; done)

@[simp] theorem resumeHeld_keeps (s : State) :
    (resumeHeld s).pending = s.pending ∧ (resumeHeld s).phase = s.phase ∧ (resumeHeld s).cause = s.cause
    ∧ (resumeHeld s).free = s.free ∧ (resumeHeld s).link = s.link ∧ (resumeHeld s).site = s.site
    ∧ (resumeHeld s).rate = s.rate ∧ (resumeHeld s).lock = s.lock ∧ (resumeHeld s).store = s.store
    ∧ (resumeHeld s).failed = s.failed ∧ (resumeHeld s).images = s.images ∧ (resumeHeld s).net = s.net
    ∧ (resumeHeld s).routes = s.routes ∧ (resumeHeld s).engine.applied = s.engine.applied
    ∧ (resumeHeld s).engine.number = s.engine.number ∧ (resumeHeld s).engine.trans = s.engine.trans
    ∧ (resumeHeld s).engine.mute = s.engine.mute ∧ (resumeHeld s).engine.muteTimer = s.engine.muteTimer
    ∧ (resumeHeld s).engine.dropHeld = s.engine.dropHeld ∧ (resumeHeld s).engine.waiting = s.engine.waiting
    ∧ (resumeHeld s).engine.active = s.engine.active ∧ (resumeHeld s).engine.due = s.engine.due
    ∧ (resumeHeld s).engine.survey = s.engine.survey ∧ (resumeHeld s).engine.holder = s.engine.holder
    ∧ (resumeHeld s).ring.steps = s.ring.steps ∧ (resumeHeld s).ring.len = s.ring.len
    ∧ (resumeHeld s).ring.ptr = s.ring.ptr ∧ (resumeHeld s).ring.visit = s.ring.visit
    ∧ (resumeHeld s).ring.pass = s.ring.pass ∧ (resumeHeld s).ring.overrun = s.ring.overrun
    ∧ (resumeHeld s).ring.holdPending = s.ring.holdPending ∧ (resumeHeld s).ring.halt = s.ring.halt
    ∧ (resumeHeld s).ring.markTimer = s.ring.markTimer ∧ (resumeHeld s).ring.report = s.ring.report
    ∧ (resumeHeld s).bus = s.bus ∧ (resumeHeld s).cards = s.cards ∧ (resumeHeld s).fixtures = s.fixtures
    ∧ (resumeHeld s).loops = s.loops ∧ (resumeHeld s).latch = s.latch ∧ (resumeHeld s).records = s.records
    ∧ (resumeHeld s).muteAck = s.muteAck := by
  first
  | (simp [resumeHeld]; done)
  | (simp only [resumeHeld]; (repeat' split) <;> simp_all; done)
  | (unfold resumeHeld; simp only []; (repeat' split) <;> simp_all; done)

@[simp] theorem resumeRing_keeps (s : State) :
    (resumeRing s).pending = s.pending ∧ (resumeRing s).phase = s.phase ∧ (resumeRing s).cause = s.cause
    ∧ (resumeRing s).free = s.free ∧ (resumeRing s).link = s.link ∧ (resumeRing s).site = s.site
    ∧ (resumeRing s).rate = s.rate ∧ (resumeRing s).lock = s.lock ∧ (resumeRing s).store = s.store
    ∧ (resumeRing s).failed = s.failed ∧ (resumeRing s).images = s.images ∧ (resumeRing s).net = s.net
    ∧ (resumeRing s).routes = s.routes ∧ (resumeRing s).engine.applied = s.engine.applied
    ∧ (resumeRing s).engine.number = s.engine.number ∧ (resumeRing s).engine.trans = s.engine.trans
    ∧ (resumeRing s).engine.mute = s.engine.mute ∧ (resumeRing s).engine.muteTimer = s.engine.muteTimer
    ∧ (resumeRing s).engine.dropHeld = s.engine.dropHeld ∧ (resumeRing s).engine.waiting = s.engine.waiting
    ∧ (resumeRing s).engine.active = s.engine.active ∧ (resumeRing s).engine.due = s.engine.due
    ∧ (resumeRing s).engine.survey = s.engine.survey ∧ (resumeRing s).engine.holder = s.engine.holder
    ∧ (resumeRing s).ring.steps = s.ring.steps ∧ (resumeRing s).ring.len = s.ring.len
    ∧ (resumeRing s).ring.ptr = s.ring.ptr ∧ (resumeRing s).ring.visit = s.ring.visit
    ∧ (resumeRing s).ring.pass = s.ring.pass ∧ (resumeRing s).ring.overrun = s.ring.overrun
    ∧ (resumeRing s).ring.halt = s.ring.halt ∧ (resumeRing s).ring.markTimer = s.ring.markTimer
    ∧ (resumeRing s).ring.report = s.ring.report ∧ (resumeRing s).bus = s.bus ∧ (resumeRing s).cards = s.cards
    ∧ (resumeRing s).fixtures = s.fixtures ∧ (resumeRing s).loops = s.loops ∧ (resumeRing s).latch = s.latch
    ∧ (resumeRing s).records = s.records ∧ (resumeRing s).muteAck = s.muteAck := by
  first
  | (simp [resumeRing]; done)
  | (simp only [resumeRing]; (repeat' split) <;> simp_all; done)
  | (unfold resumeRing; simp only []; (repeat' split) <;> simp_all; done)

@[simp] theorem stopRing_keeps (s : State) :
    (stopRing s).pending = s.pending ∧ (stopRing s).phase = s.phase ∧ (stopRing s).cause = s.cause
    ∧ (stopRing s).free = s.free ∧ (stopRing s).link.lines = s.link.lines ∧ (stopRing s).link.held = s.link.held
    ∧ (stopRing s).link.slot = s.link.slot ∧ (stopRing s).link.notices = s.link.notices
    ∧ (stopRing s).link.owed = s.link.owed ∧ (stopRing s).link.tx = s.link.tx ∧ (stopRing s).link.lost = s.link.lost
    ∧ (stopRing s).link.enabled = s.link.enabled ∧ (stopRing s).link.gap = s.link.gap ∧ (stopRing s).site = s.site
    ∧ (stopRing s).rate = s.rate ∧ (stopRing s).lock = s.lock ∧ (stopRing s).store = s.store
    ∧ (stopRing s).failed = s.failed ∧ (stopRing s).images = s.images ∧ (stopRing s).net = s.net
    ∧ (stopRing s).routes = s.routes ∧ (stopRing s).engine.applied = s.engine.applied
    ∧ (stopRing s).engine.number = s.engine.number ∧ (stopRing s).engine.trans = s.engine.trans
    ∧ (stopRing s).engine.mute = s.engine.mute ∧ (stopRing s).engine.muteTimer = s.engine.muteTimer
    ∧ (stopRing s).engine.dropHeld = s.engine.dropHeld ∧ (stopRing s).engine.waiting = s.engine.waiting
    ∧ (stopRing s).engine.active = s.engine.active ∧ (stopRing s).engine.due = s.engine.due
    ∧ (stopRing s).engine.survey = s.engine.survey ∧ (stopRing s).ring.steps = s.ring.steps
    ∧ (stopRing s).ring.len = s.ring.len ∧ (stopRing s).ring.ptr = s.ring.ptr
    ∧ (stopRing s).ring.visit = s.ring.visit ∧ (stopRing s).ring.pass = s.ring.pass
    ∧ (stopRing s).ring.markTimer = s.ring.markTimer ∧ (stopRing s).ring.report = s.ring.report
    ∧ (stopRing s).bus = s.bus ∧ (stopRing s).cards = s.cards ∧ (stopRing s).fixtures = s.fixtures
    ∧ (stopRing s).loops = s.loops ∧ (stopRing s).latch = s.latch ∧ (stopRing s).records = s.records
    ∧ (stopRing s).muteAck = s.muteAck := by
  first
  | (simp [stopRing]; done)
  | (simp only [stopRing]; (repeat' split) <;> simp_all; done)
  | (unfold stopRing; simp only []; (repeat' split) <;> simp_all; done)

@[simp] theorem answerRing_keeps (plus : Bool) (s : State) :
    (answerRing plus s).pending = s.pending ∧ (answerRing plus s).phase = s.phase
    ∧ (answerRing plus s).cause = s.cause ∧ (answerRing plus s).free = s.free
    ∧ (answerRing plus s).link.lines = s.link.lines ∧ (answerRing plus s).link.hold = s.link.hold
    ∧ (answerRing plus s).link.notices = s.link.notices ∧ (answerRing plus s).link.owed = s.link.owed
    ∧ (answerRing plus s).link.tx = s.link.tx ∧ (answerRing plus s).link.lost = s.link.lost
    ∧ (answerRing plus s).link.enabled = s.link.enabled ∧ (answerRing plus s).link.gap = s.link.gap
    ∧ (answerRing plus s).site = s.site ∧ (answerRing plus s).rate = s.rate ∧ (answerRing plus s).lock = s.lock
    ∧ (answerRing plus s).store = s.store ∧ (answerRing plus s).failed = s.failed
    ∧ (answerRing plus s).images = s.images ∧ (answerRing plus s).net = s.net ∧ (answerRing plus s).routes = s.routes
    ∧ (answerRing plus s).engine = s.engine ∧ (answerRing plus s).ring = s.ring ∧ (answerRing plus s).bus = s.bus
    ∧ (answerRing plus s).cards = s.cards ∧ (answerRing plus s).fixtures = s.fixtures
    ∧ (answerRing plus s).loops = s.loops ∧ (answerRing plus s).latch = s.latch
    ∧ (answerRing plus s).records = s.records ∧ (answerRing plus s).muteAck = s.muteAck := by
  first
  | (simp [answerRing]; done)
  | (simp only [answerRing]; (repeat' split) <;> simp_all; done)
  | (unfold answerRing; simp only []; (repeat' split) <;> simp_all; done)

@[simp] theorem setRestart_keeps (n : Nat) (g : RestartStage) (s : State) :
    (setRestart n g s).pending = s.pending ∧ (setRestart n g s).phase = s.phase ∧ (setRestart n g s).cause = s.cause
    ∧ (setRestart n g s).free = s.free ∧ (setRestart n g s).link = s.link ∧ (setRestart n g s).site = s.site
    ∧ (setRestart n g s).rate = s.rate ∧ (setRestart n g s).lock = s.lock ∧ (setRestart n g s).store = s.store
    ∧ (setRestart n g s).failed = s.failed ∧ (setRestart n g s).images = s.images ∧ (setRestart n g s).net = s.net
    ∧ (setRestart n g s).routes = s.routes ∧ (setRestart n g s).engine = s.engine ∧ (setRestart n g s).ring = s.ring
    ∧ (setRestart n g s).bus = s.bus ∧ (setRestart n g s).fixtures = s.fixtures ∧ (setRestart n g s).loops = s.loops
    ∧ (setRestart n g s).latch = s.latch ∧ (setRestart n g s).records = s.records
    ∧ (setRestart n g s).muteAck = s.muteAck := by
  first
  | (simp [setRestart]; done)
  | (simp only [setRestart]; (repeat' split) <;> simp_all; done)
  | (unfold setRestart; simp only []; (repeat' split) <;> simp_all; done)

@[simp] theorem changeFixture_keeps (n : Nat) (f : Fixture) (s : State) :
    (changeFixture n f s).pending = s.pending ∧ (changeFixture n f s).phase = s.phase
    ∧ (changeFixture n f s).cause = s.cause ∧ (changeFixture n f s).free = s.free
    ∧ (changeFixture n f s).link.lines = s.link.lines ∧ (changeFixture n f s).link.hold = s.link.hold
    ∧ (changeFixture n f s).link.held = s.link.held ∧ (changeFixture n f s).link.slot = s.link.slot
    ∧ (changeFixture n f s).link.owed = s.link.owed ∧ (changeFixture n f s).link.tx = s.link.tx
    ∧ (changeFixture n f s).link.enabled = s.link.enabled ∧ (changeFixture n f s).link.gap = s.link.gap
    ∧ (changeFixture n f s).site = s.site ∧ (changeFixture n f s).rate = s.rate ∧ (changeFixture n f s).lock = s.lock
    ∧ (changeFixture n f s).store = s.store ∧ (changeFixture n f s).failed = s.failed
    ∧ (changeFixture n f s).images = s.images ∧ (changeFixture n f s).net = s.net
    ∧ (changeFixture n f s).routes = s.routes ∧ (changeFixture n f s).engine = s.engine
    ∧ (changeFixture n f s).ring = s.ring ∧ (changeFixture n f s).bus = s.bus ∧ (changeFixture n f s).cards = s.cards
    ∧ (changeFixture n f s).loops = s.loops ∧ (changeFixture n f s).latch = s.latch
    ∧ (changeFixture n f s).records = s.records ∧ (changeFixture n f s).muteAck = s.muteAck := by
  first
  | (simp [changeFixture]; done)
  | (simp only [changeFixture]; (repeat' split) <;> simp_all; done)
  | (unfold changeFixture; simp only []; (repeat' split) <;> simp_all; done)

@[simp] theorem leaveAdmitted_keeps (n : Nat) (f : Fixture) (judged : Bool) (s : State) :
    (leaveAdmitted n f judged s).pending = s.pending ∧ (leaveAdmitted n f judged s).phase = s.phase
    ∧ (leaveAdmitted n f judged s).cause = s.cause ∧ (leaveAdmitted n f judged s).free = s.free
    ∧ (leaveAdmitted n f judged s).link.lines = s.link.lines ∧ (leaveAdmitted n f judged s).link.held = s.link.held
    ∧ (leaveAdmitted n f judged s).link.slot = s.link.slot ∧ (leaveAdmitted n f judged s).link.owed = s.link.owed
    ∧ (leaveAdmitted n f judged s).link.tx = s.link.tx ∧ (leaveAdmitted n f judged s).link.enabled = s.link.enabled
    ∧ (leaveAdmitted n f judged s).link.gap = s.link.gap ∧ (leaveAdmitted n f judged s).site = s.site
    ∧ (leaveAdmitted n f judged s).rate = s.rate ∧ (leaveAdmitted n f judged s).lock = s.lock
    ∧ (leaveAdmitted n f judged s).store = s.store ∧ (leaveAdmitted n f judged s).failed = s.failed
    ∧ (leaveAdmitted n f judged s).images = s.images ∧ (leaveAdmitted n f judged s).net = s.net
    ∧ (leaveAdmitted n f judged s).engine.number = s.engine.number
    ∧ (leaveAdmitted n f judged s).engine.mute = s.engine.mute
    ∧ (leaveAdmitted n f judged s).engine.muteTimer = s.engine.muteTimer
    ∧ (leaveAdmitted n f judged s).engine.dropHeld = s.engine.dropHeld
    ∧ (leaveAdmitted n f judged s).engine.active = s.engine.active
    ∧ (leaveAdmitted n f judged s).engine.due = s.engine.due
    ∧ (leaveAdmitted n f judged s).engine.survey = s.engine.survey
    ∧ (leaveAdmitted n f judged s).ring.steps = s.ring.steps ∧ (leaveAdmitted n f judged s).ring.len = s.ring.len
    ∧ (leaveAdmitted n f judged s).ring.ptr = s.ring.ptr ∧ (leaveAdmitted n f judged s).ring.visit = s.ring.visit
    ∧ (leaveAdmitted n f judged s).ring.pass = s.ring.pass
    ∧ (leaveAdmitted n f judged s).ring.markTimer = s.ring.markTimer
    ∧ (leaveAdmitted n f judged s).ring.report = s.ring.report ∧ (leaveAdmitted n f judged s).bus = s.bus
    ∧ (leaveAdmitted n f judged s).cards = s.cards ∧ (leaveAdmitted n f judged s).loops = s.loops
    ∧ (leaveAdmitted n f judged s).records.late = s.records.late
    ∧ (leaveAdmitted n f judged s).records.wear = s.records.wear ∧ (leaveAdmitted n f judged s).muteAck = s.muteAck
    := by
  first
  | (simp [leaveAdmitted]; done)
  | (simp only [leaveAdmitted]; (repeat' split) <;> simp_all; done)
  | (unfold leaveAdmitted; simp only []; (repeat' split) <;> simp_all; done)

@[simp] theorem fpresAt_keeps (n : Nat) (present : Bool) (s : State) :
    (fpresAt n present s).pending = s.pending ∧ (fpresAt n present s).phase = s.phase
    ∧ (fpresAt n present s).cause = s.cause ∧ (fpresAt n present s).free = s.free
    ∧ (fpresAt n present s).link = s.link ∧ (fpresAt n present s).site = s.site ∧ (fpresAt n present s).rate = s.rate
    ∧ (fpresAt n present s).lock = s.lock ∧ (fpresAt n present s).store = s.store
    ∧ (fpresAt n present s).failed = s.failed ∧ (fpresAt n present s).images = s.images
    ∧ (fpresAt n present s).net = s.net ∧ (fpresAt n present s).routes = s.routes
    ∧ (fpresAt n present s).engine = s.engine ∧ (fpresAt n present s).ring = s.ring
    ∧ (fpresAt n present s).bus = s.bus ∧ (fpresAt n present s).cards = s.cards
    ∧ (fpresAt n present s).loops = s.loops ∧ (fpresAt n present s).latch = s.latch
    ∧ (fpresAt n present s).records = s.records ∧ (fpresAt n present s).muteAck = s.muteAck := by
  first
  | (simp [fpresAt]; done)
  | (simp only [fpresAt]; (repeat' split) <;> simp_all; done)
  | (unfold fpresAt; simp only []; (repeat' split) <;> simp_all; done)

@[simp] theorem foundPresent_keeps (n : Nat) (s : State) :
    (foundPresent n s).pending = s.pending ∧ (foundPresent n s).phase = s.phase ∧ (foundPresent n s).cause = s.cause
    ∧ (foundPresent n s).free = s.free ∧ (foundPresent n s).link.lines = s.link.lines
    ∧ (foundPresent n s).link.hold = s.link.hold ∧ (foundPresent n s).link.held = s.link.held
    ∧ (foundPresent n s).link.slot = s.link.slot ∧ (foundPresent n s).link.owed = s.link.owed
    ∧ (foundPresent n s).link.tx = s.link.tx ∧ (foundPresent n s).link.enabled = s.link.enabled
    ∧ (foundPresent n s).link.gap = s.link.gap ∧ (foundPresent n s).site = s.site ∧ (foundPresent n s).rate = s.rate
    ∧ (foundPresent n s).lock = s.lock ∧ (foundPresent n s).store = s.store ∧ (foundPresent n s).failed = s.failed
    ∧ (foundPresent n s).images = s.images ∧ (foundPresent n s).net = s.net ∧ (foundPresent n s).routes = s.routes
    ∧ (foundPresent n s).engine = s.engine ∧ (foundPresent n s).ring = s.ring ∧ (foundPresent n s).bus = s.bus
    ∧ (foundPresent n s).cards = s.cards ∧ (foundPresent n s).loops = s.loops ∧ (foundPresent n s).latch = s.latch
    ∧ (foundPresent n s).records = s.records ∧ (foundPresent n s).muteAck = s.muteAck := by
  first
  | (simp [foundPresent]; done)
  | (simp only [foundPresent]; (repeat' split) <;> simp_all; done)
  | (unfold foundPresent; simp only []; (repeat' split) <;> simp_all; done)

@[simp] theorem foundAbsent_keeps (n : Nat) (s : State) :
    (foundAbsent n s).pending = s.pending ∧ (foundAbsent n s).phase = s.phase ∧ (foundAbsent n s).cause = s.cause
    ∧ (foundAbsent n s).free = s.free ∧ (foundAbsent n s).link.lines = s.link.lines
    ∧ (foundAbsent n s).link.held = s.link.held ∧ (foundAbsent n s).link.slot = s.link.slot
    ∧ (foundAbsent n s).link.owed = s.link.owed ∧ (foundAbsent n s).link.tx = s.link.tx
    ∧ (foundAbsent n s).link.enabled = s.link.enabled ∧ (foundAbsent n s).link.gap = s.link.gap
    ∧ (foundAbsent n s).site = s.site ∧ (foundAbsent n s).rate = s.rate ∧ (foundAbsent n s).lock = s.lock
    ∧ (foundAbsent n s).store = s.store ∧ (foundAbsent n s).failed = s.failed ∧ (foundAbsent n s).images = s.images
    ∧ (foundAbsent n s).net = s.net ∧ (foundAbsent n s).engine.number = s.engine.number
    ∧ (foundAbsent n s).engine.mute = s.engine.mute ∧ (foundAbsent n s).engine.muteTimer = s.engine.muteTimer
    ∧ (foundAbsent n s).engine.dropHeld = s.engine.dropHeld ∧ (foundAbsent n s).engine.active = s.engine.active
    ∧ (foundAbsent n s).engine.due = s.engine.due ∧ (foundAbsent n s).engine.survey = s.engine.survey
    ∧ (foundAbsent n s).ring.steps = s.ring.steps ∧ (foundAbsent n s).ring.len = s.ring.len
    ∧ (foundAbsent n s).ring.ptr = s.ring.ptr ∧ (foundAbsent n s).ring.visit = s.ring.visit
    ∧ (foundAbsent n s).ring.pass = s.ring.pass ∧ (foundAbsent n s).ring.markTimer = s.ring.markTimer
    ∧ (foundAbsent n s).ring.report = s.ring.report ∧ (foundAbsent n s).bus = s.bus
    ∧ (foundAbsent n s).cards = s.cards ∧ (foundAbsent n s).loops = s.loops
    ∧ (foundAbsent n s).records.late = s.records.late ∧ (foundAbsent n s).records.wear = s.records.wear
    ∧ (foundAbsent n s).muteAck = s.muteAck := by
  first
  | (simp [foundAbsent]; done)
  | (simp only [foundAbsent]; (repeat' split) <;> simp_all; done)
  | (unfold foundAbsent; simp only []; (repeat' split) <;> simp_all; done)

@[simp] theorem beginAdmission_keeps (n : Nat) (s : State) :
    (beginAdmission n s).pending = s.pending ∧ (beginAdmission n s).phase = s.phase
    ∧ (beginAdmission n s).cause = s.cause ∧ (beginAdmission n s).free = s.free
    ∧ (beginAdmission n s).link.lines = s.link.lines ∧ (beginAdmission n s).link.held = s.link.held
    ∧ (beginAdmission n s).link.slot = s.link.slot ∧ (beginAdmission n s).link.owed = s.link.owed
    ∧ (beginAdmission n s).link.tx = s.link.tx ∧ (beginAdmission n s).link.enabled = s.link.enabled
    ∧ (beginAdmission n s).link.gap = s.link.gap ∧ (beginAdmission n s).site = s.site
    ∧ (beginAdmission n s).rate = s.rate ∧ (beginAdmission n s).lock = s.lock ∧ (beginAdmission n s).store = s.store
    ∧ (beginAdmission n s).failed = s.failed ∧ (beginAdmission n s).images = s.images
    ∧ (beginAdmission n s).net = s.net ∧ (beginAdmission n s).engine.number = s.engine.number
    ∧ (beginAdmission n s).engine.mute = s.engine.mute ∧ (beginAdmission n s).engine.muteTimer = s.engine.muteTimer
    ∧ (beginAdmission n s).engine.dropHeld = s.engine.dropHeld ∧ (beginAdmission n s).engine.active = s.engine.active
    ∧ (beginAdmission n s).engine.due = s.engine.due ∧ (beginAdmission n s).engine.survey = s.engine.survey
    ∧ (beginAdmission n s).ring.steps = s.ring.steps ∧ (beginAdmission n s).ring.len = s.ring.len
    ∧ (beginAdmission n s).ring.ptr = s.ring.ptr ∧ (beginAdmission n s).ring.visit = s.ring.visit
    ∧ (beginAdmission n s).ring.pass = s.ring.pass ∧ (beginAdmission n s).ring.markTimer = s.ring.markTimer
    ∧ (beginAdmission n s).ring.report = s.ring.report ∧ (beginAdmission n s).bus = s.bus
    ∧ (beginAdmission n s).cards = s.cards ∧ (beginAdmission n s).loops = s.loops
    ∧ (beginAdmission n s).records.late = s.records.late ∧ (beginAdmission n s).records.wear = s.records.wear
    ∧ (beginAdmission n s).muteAck = s.muteAck := by
  first
  | (simp [beginAdmission]; done)
  | (simp only [beginAdmission]; (repeat' split) <;> simp_all; done)
  | (unfold beginAdmission; simp only []; (repeat' split) <;> simp_all; done)

@[simp] theorem failAdmission_keeps (n : Nat) (r : AdmitResult) (s : State) :
    (failAdmission n r s).pending = s.pending ∧ (failAdmission n r s).phase = s.phase
    ∧ (failAdmission n r s).cause = s.cause ∧ (failAdmission n r s).free = s.free
    ∧ (failAdmission n r s).link.lines = s.link.lines ∧ (failAdmission n r s).link.held = s.link.held
    ∧ (failAdmission n r s).link.slot = s.link.slot ∧ (failAdmission n r s).link.owed = s.link.owed
    ∧ (failAdmission n r s).link.tx = s.link.tx ∧ (failAdmission n r s).link.enabled = s.link.enabled
    ∧ (failAdmission n r s).link.gap = s.link.gap ∧ (failAdmission n r s).site = s.site
    ∧ (failAdmission n r s).rate = s.rate ∧ (failAdmission n r s).lock = s.lock
    ∧ (failAdmission n r s).store = s.store ∧ (failAdmission n r s).failed = s.failed
    ∧ (failAdmission n r s).images = s.images ∧ (failAdmission n r s).net = s.net
    ∧ (failAdmission n r s).routes = s.routes ∧ (failAdmission n r s).engine = s.engine
    ∧ (failAdmission n r s).ring = s.ring ∧ (failAdmission n r s).bus = s.bus ∧ (failAdmission n r s).cards = s.cards
    ∧ (failAdmission n r s).loops = s.loops ∧ (failAdmission n r s).latch = s.latch
    ∧ (failAdmission n r s).records = s.records ∧ (failAdmission n r s).muteAck = s.muteAck := by
  first
  | (simp [failAdmission]; done)
  | (simp only [failAdmission]; (repeat' split) <;> simp_all; done)
  | (unfold failAdmission; simp only []; (repeat' split) <;> simp_all; done)

@[simp] theorem admitWaitEnds_keeps (n : Nat) (s : State) :
    (admitWaitEnds n s).pending = s.pending ∧ (admitWaitEnds n s).phase = s.phase
    ∧ (admitWaitEnds n s).cause = s.cause ∧ (admitWaitEnds n s).free = s.free
    ∧ (admitWaitEnds n s).link.lines = s.link.lines ∧ (admitWaitEnds n s).link.held = s.link.held
    ∧ (admitWaitEnds n s).link.slot = s.link.slot ∧ (admitWaitEnds n s).link.owed = s.link.owed
    ∧ (admitWaitEnds n s).link.tx = s.link.tx ∧ (admitWaitEnds n s).link.enabled = s.link.enabled
    ∧ (admitWaitEnds n s).link.gap = s.link.gap ∧ (admitWaitEnds n s).site = s.site
    ∧ (admitWaitEnds n s).rate = s.rate ∧ (admitWaitEnds n s).lock = s.lock ∧ (admitWaitEnds n s).store = s.store
    ∧ (admitWaitEnds n s).failed = s.failed ∧ (admitWaitEnds n s).images = s.images ∧ (admitWaitEnds n s).net = s.net
    ∧ (admitWaitEnds n s).routes = s.routes ∧ (admitWaitEnds n s).engine = s.engine
    ∧ (admitWaitEnds n s).ring = s.ring ∧ (admitWaitEnds n s).bus = s.bus ∧ (admitWaitEnds n s).cards = s.cards
    ∧ (admitWaitEnds n s).loops = s.loops ∧ (admitWaitEnds n s).latch = s.latch
    ∧ (admitWaitEnds n s).records = s.records ∧ (admitWaitEnds n s).muteAck = s.muteAck := by
  first
  | (simp [admitWaitEnds]; done)
  | (simp only [admitWaitEnds]; (repeat' split) <;> simp_all; done)
  | (unfold admitWaitEnds; simp only []; (repeat' split) <;> simp_all; done)

@[simp] theorem supplyFault_keeps (n : Nat) (s : State) :
    (supplyFault n s).pending = s.pending ∧ (supplyFault n s).phase = s.phase ∧ (supplyFault n s).cause = s.cause
    ∧ (supplyFault n s).free = s.free ∧ (supplyFault n s).link.lines = s.link.lines
    ∧ (supplyFault n s).link.held = s.link.held ∧ (supplyFault n s).link.slot = s.link.slot
    ∧ (supplyFault n s).link.owed = s.link.owed ∧ (supplyFault n s).link.tx = s.link.tx
    ∧ (supplyFault n s).link.enabled = s.link.enabled ∧ (supplyFault n s).link.gap = s.link.gap
    ∧ (supplyFault n s).site = s.site ∧ (supplyFault n s).rate = s.rate ∧ (supplyFault n s).lock = s.lock
    ∧ (supplyFault n s).store = s.store ∧ (supplyFault n s).failed = s.failed ∧ (supplyFault n s).images = s.images
    ∧ (supplyFault n s).net = s.net ∧ (supplyFault n s).engine.number = s.engine.number
    ∧ (supplyFault n s).engine.mute = s.engine.mute ∧ (supplyFault n s).engine.muteTimer = s.engine.muteTimer
    ∧ (supplyFault n s).engine.dropHeld = s.engine.dropHeld ∧ (supplyFault n s).engine.active = s.engine.active
    ∧ (supplyFault n s).engine.due = s.engine.due ∧ (supplyFault n s).engine.survey = s.engine.survey
    ∧ (supplyFault n s).ring.steps = s.ring.steps ∧ (supplyFault n s).ring.len = s.ring.len
    ∧ (supplyFault n s).ring.ptr = s.ring.ptr ∧ (supplyFault n s).ring.visit = s.ring.visit
    ∧ (supplyFault n s).ring.pass = s.ring.pass ∧ (supplyFault n s).ring.markTimer = s.ring.markTimer
    ∧ (supplyFault n s).ring.report = s.ring.report ∧ (supplyFault n s).bus = s.bus
    ∧ (supplyFault n s).cards = s.cards ∧ (supplyFault n s).loops = s.loops
    ∧ (supplyFault n s).records.late = s.records.late ∧ (supplyFault n s).records.wear = s.records.wear
    ∧ (supplyFault n s).muteAck = s.muteAck := by
  first
  | (simp [supplyFault]; done)
  | (simp only [supplyFault]; (repeat' split) <;> simp_all; done)
  | (unfold supplyFault; simp only []; (repeat' split) <;> simp_all; done)

@[simp] theorem watchSupply_keeps (n : Nat) (s : State) :
    (watchSupply n s).pending = s.pending ∧ (watchSupply n s).phase = s.phase ∧ (watchSupply n s).cause = s.cause
    ∧ (watchSupply n s).free = s.free ∧ (watchSupply n s).link.lines = s.link.lines
    ∧ (watchSupply n s).link.held = s.link.held ∧ (watchSupply n s).link.slot = s.link.slot
    ∧ (watchSupply n s).link.owed = s.link.owed ∧ (watchSupply n s).link.tx = s.link.tx
    ∧ (watchSupply n s).link.enabled = s.link.enabled ∧ (watchSupply n s).link.gap = s.link.gap
    ∧ (watchSupply n s).site = s.site ∧ (watchSupply n s).rate = s.rate ∧ (watchSupply n s).lock = s.lock
    ∧ (watchSupply n s).store = s.store ∧ (watchSupply n s).failed = s.failed ∧ (watchSupply n s).images = s.images
    ∧ (watchSupply n s).net = s.net ∧ (watchSupply n s).engine.number = s.engine.number
    ∧ (watchSupply n s).engine.mute = s.engine.mute ∧ (watchSupply n s).engine.muteTimer = s.engine.muteTimer
    ∧ (watchSupply n s).engine.dropHeld = s.engine.dropHeld ∧ (watchSupply n s).engine.active = s.engine.active
    ∧ (watchSupply n s).engine.due = s.engine.due ∧ (watchSupply n s).engine.survey = s.engine.survey
    ∧ (watchSupply n s).ring.steps = s.ring.steps ∧ (watchSupply n s).ring.len = s.ring.len
    ∧ (watchSupply n s).ring.ptr = s.ring.ptr ∧ (watchSupply n s).ring.visit = s.ring.visit
    ∧ (watchSupply n s).ring.pass = s.ring.pass ∧ (watchSupply n s).ring.markTimer = s.ring.markTimer
    ∧ (watchSupply n s).ring.report = s.ring.report ∧ (watchSupply n s).bus = s.bus
    ∧ (watchSupply n s).cards = s.cards ∧ (watchSupply n s).loops = s.loops
    ∧ (watchSupply n s).records.late = s.records.late ∧ (watchSupply n s).records.wear = s.records.wear
    ∧ (watchSupply n s).muteAck = s.muteAck := by
  first
  | (simp [watchSupply]; done)
  | (simp only [watchSupply]; (repeat' split) <;> simp_all; done)
  | (unfold watchSupply; simp only []; (repeat' split) <;> simp_all; done)

@[simp] theorem acceptIdentity_keeps (n : Nat) (b0 : Byte) (b1 : Byte) (b2 : Byte) (s : State) :
    (acceptIdentity n b0 b1 b2 s).pending = s.pending ∧ (acceptIdentity n b0 b1 b2 s).phase = s.phase
    ∧ (acceptIdentity n b0 b1 b2 s).cause = s.cause ∧ (acceptIdentity n b0 b1 b2 s).free = s.free
    ∧ (acceptIdentity n b0 b1 b2 s).link.lines = s.link.lines ∧ (acceptIdentity n b0 b1 b2 s).link.held = s.link.held
    ∧ (acceptIdentity n b0 b1 b2 s).link.slot = s.link.slot ∧ (acceptIdentity n b0 b1 b2 s).link.owed = s.link.owed
    ∧ (acceptIdentity n b0 b1 b2 s).link.tx = s.link.tx ∧ (acceptIdentity n b0 b1 b2 s).link.enabled = s.link.enabled
    ∧ (acceptIdentity n b0 b1 b2 s).link.gap = s.link.gap ∧ (acceptIdentity n b0 b1 b2 s).site = s.site
    ∧ (acceptIdentity n b0 b1 b2 s).rate = s.rate ∧ (acceptIdentity n b0 b1 b2 s).lock = s.lock
    ∧ (acceptIdentity n b0 b1 b2 s).store = s.store ∧ (acceptIdentity n b0 b1 b2 s).failed = s.failed
    ∧ (acceptIdentity n b0 b1 b2 s).images = s.images ∧ (acceptIdentity n b0 b1 b2 s).net = s.net
    ∧ (acceptIdentity n b0 b1 b2 s).routes = s.routes ∧ (acceptIdentity n b0 b1 b2 s).engine = s.engine
    ∧ (acceptIdentity n b0 b1 b2 s).ring = s.ring ∧ (acceptIdentity n b0 b1 b2 s).bus = s.bus
    ∧ (acceptIdentity n b0 b1 b2 s).cards = s.cards ∧ (acceptIdentity n b0 b1 b2 s).loops = s.loops
    ∧ (acceptIdentity n b0 b1 b2 s).latch = s.latch ∧ (acceptIdentity n b0 b1 b2 s).records = s.records
    ∧ (acceptIdentity n b0 b1 b2 s).muteAck = s.muteAck := by
  first
  | (simp [acceptIdentity]; done)
  | (simp only [acceptIdentity]; (repeat' split) <;> simp_all; done)
  | (unfold acceptIdentity; simp only []; (repeat' split) <;> simp_all; done)

@[simp] theorem identityRead_keeps (n : Nat) (b0 : Byte) (b1 : Byte) (b2 : Byte) (b3 : Byte) (s : State) :
    (identityRead n b0 b1 b2 b3 s).pending = s.pending ∧ (identityRead n b0 b1 b2 b3 s).phase = s.phase
    ∧ (identityRead n b0 b1 b2 b3 s).cause = s.cause ∧ (identityRead n b0 b1 b2 b3 s).free = s.free
    ∧ (identityRead n b0 b1 b2 b3 s).link.lines = s.link.lines
    ∧ (identityRead n b0 b1 b2 b3 s).link.held = s.link.held ∧ (identityRead n b0 b1 b2 b3 s).link.slot = s.link.slot
    ∧ (identityRead n b0 b1 b2 b3 s).link.owed = s.link.owed ∧ (identityRead n b0 b1 b2 b3 s).link.tx = s.link.tx
    ∧ (identityRead n b0 b1 b2 b3 s).link.enabled = s.link.enabled
    ∧ (identityRead n b0 b1 b2 b3 s).link.gap = s.link.gap ∧ (identityRead n b0 b1 b2 b3 s).site = s.site
    ∧ (identityRead n b0 b1 b2 b3 s).rate = s.rate ∧ (identityRead n b0 b1 b2 b3 s).lock = s.lock
    ∧ (identityRead n b0 b1 b2 b3 s).store = s.store ∧ (identityRead n b0 b1 b2 b3 s).failed = s.failed
    ∧ (identityRead n b0 b1 b2 b3 s).images = s.images ∧ (identityRead n b0 b1 b2 b3 s).net = s.net
    ∧ (identityRead n b0 b1 b2 b3 s).engine.number = s.engine.number
    ∧ (identityRead n b0 b1 b2 b3 s).engine.mute = s.engine.mute
    ∧ (identityRead n b0 b1 b2 b3 s).engine.muteTimer = s.engine.muteTimer
    ∧ (identityRead n b0 b1 b2 b3 s).engine.dropHeld = s.engine.dropHeld
    ∧ (identityRead n b0 b1 b2 b3 s).engine.active = s.engine.active
    ∧ (identityRead n b0 b1 b2 b3 s).engine.due = s.engine.due
    ∧ (identityRead n b0 b1 b2 b3 s).engine.survey = s.engine.survey
    ∧ (identityRead n b0 b1 b2 b3 s).ring.steps = s.ring.steps ∧ (identityRead n b0 b1 b2 b3 s).ring.len = s.ring.len
    ∧ (identityRead n b0 b1 b2 b3 s).ring.ptr = s.ring.ptr ∧ (identityRead n b0 b1 b2 b3 s).ring.visit = s.ring.visit
    ∧ (identityRead n b0 b1 b2 b3 s).ring.pass = s.ring.pass
    ∧ (identityRead n b0 b1 b2 b3 s).ring.markTimer = s.ring.markTimer
    ∧ (identityRead n b0 b1 b2 b3 s).ring.report = s.ring.report ∧ (identityRead n b0 b1 b2 b3 s).bus = s.bus
    ∧ (identityRead n b0 b1 b2 b3 s).cards = s.cards ∧ (identityRead n b0 b1 b2 b3 s).loops = s.loops
    ∧ (identityRead n b0 b1 b2 b3 s).records.late = s.records.late
    ∧ (identityRead n b0 b1 b2 b3 s).records.wear = s.records.wear
    ∧ (identityRead n b0 b1 b2 b3 s).muteAck = s.muteAck := by
  first
  | (simp [identityRead]; done)
  | (simp only [identityRead]; (repeat' split) <;> simp_all; done)
  | (unfold identityRead; simp only []; (repeat' split) <;> simp_all; done)

@[simp] theorem toBench_keeps (n : Nat) (s : State) :
    (toBench n s).pending = s.pending ∧ (toBench n s).phase = s.phase ∧ (toBench n s).cause = s.cause
    ∧ (toBench n s).free = s.free ∧ (toBench n s).link.lines = s.link.lines ∧ (toBench n s).link.held = s.link.held
    ∧ (toBench n s).link.slot = s.link.slot ∧ (toBench n s).link.owed = s.link.owed
    ∧ (toBench n s).link.tx = s.link.tx ∧ (toBench n s).link.enabled = s.link.enabled
    ∧ (toBench n s).link.gap = s.link.gap ∧ (toBench n s).site = s.site ∧ (toBench n s).rate = s.rate
    ∧ (toBench n s).lock = s.lock ∧ (toBench n s).store = s.store ∧ (toBench n s).failed = s.failed
    ∧ (toBench n s).images = s.images ∧ (toBench n s).net = s.net ∧ (toBench n s).engine.number = s.engine.number
    ∧ (toBench n s).engine.mute = s.engine.mute ∧ (toBench n s).engine.muteTimer = s.engine.muteTimer
    ∧ (toBench n s).engine.dropHeld = s.engine.dropHeld ∧ (toBench n s).engine.active = s.engine.active
    ∧ (toBench n s).engine.due = s.engine.due ∧ (toBench n s).engine.survey = s.engine.survey
    ∧ (toBench n s).ring.steps = s.ring.steps ∧ (toBench n s).ring.len = s.ring.len
    ∧ (toBench n s).ring.ptr = s.ring.ptr ∧ (toBench n s).ring.visit = s.ring.visit
    ∧ (toBench n s).ring.pass = s.ring.pass ∧ (toBench n s).ring.markTimer = s.ring.markTimer
    ∧ (toBench n s).ring.report = s.ring.report ∧ (toBench n s).bus = s.bus ∧ (toBench n s).cards = s.cards
    ∧ (toBench n s).loops = s.loops ∧ (toBench n s).records.late = s.records.late
    ∧ (toBench n s).records.wear = s.records.wear ∧ (toBench n s).muteAck = s.muteAck := by
  first
  | (simp [toBench]; done)
  | (simp only [toBench]; (repeat' split) <;> simp_all; done)
  | (unfold toBench; simp only []; (repeat' split) <;> simp_all; done)

@[simp] theorem loopInputAt_keeps (n : Nat) (closed : Bool) (s : State) :
    (loopInputAt n closed s).pending = s.pending ∧ (loopInputAt n closed s).phase = s.phase
    ∧ (loopInputAt n closed s).cause = s.cause ∧ (loopInputAt n closed s).free = s.free
    ∧ (loopInputAt n closed s).link = s.link ∧ (loopInputAt n closed s).site = s.site
    ∧ (loopInputAt n closed s).rate = s.rate ∧ (loopInputAt n closed s).lock = s.lock
    ∧ (loopInputAt n closed s).store = s.store ∧ (loopInputAt n closed s).failed = s.failed
    ∧ (loopInputAt n closed s).images = s.images ∧ (loopInputAt n closed s).net = s.net
    ∧ (loopInputAt n closed s).routes = s.routes ∧ (loopInputAt n closed s).engine = s.engine
    ∧ (loopInputAt n closed s).ring = s.ring ∧ (loopInputAt n closed s).bus = s.bus
    ∧ (loopInputAt n closed s).cards = s.cards ∧ (loopInputAt n closed s).fixtures = s.fixtures
    ∧ (loopInputAt n closed s).latch = s.latch ∧ (loopInputAt n closed s).records = s.records
    ∧ (loopInputAt n closed s).muteAck = s.muteAck := by
  first
  | (simp [loopInputAt]; done)
  | (simp only [loopInputAt]; (repeat' split) <;> simp_all; done)
  | (unfold loopInputAt; simp only []; (repeat' split) <;> simp_all; done)

@[simp] theorem clearConfirmed_keeps (s : State) :
    (clearConfirmed s).pending = s.pending ∧ (clearConfirmed s).phase = s.phase ∧ (clearConfirmed s).cause = s.cause
    ∧ (clearConfirmed s).free = s.free ∧ (clearConfirmed s).link = s.link ∧ (clearConfirmed s).site = s.site
    ∧ (clearConfirmed s).rate = s.rate ∧ (clearConfirmed s).lock = s.lock ∧ (clearConfirmed s).store = s.store
    ∧ (clearConfirmed s).failed = s.failed ∧ (clearConfirmed s).images = s.images ∧ (clearConfirmed s).net = s.net
    ∧ (clearConfirmed s).routes = s.routes ∧ (clearConfirmed s).engine = s.engine ∧ (clearConfirmed s).ring = s.ring
    ∧ (clearConfirmed s).bus = s.bus ∧ (clearConfirmed s).cards = s.cards ∧ (clearConfirmed s).fixtures = s.fixtures
    ∧ (clearConfirmed s).latch = s.latch ∧ (clearConfirmed s).records = s.records
    ∧ (clearConfirmed s).muteAck = s.muteAck := by
  first
  | (simp [clearConfirmed]; done)
  | (simp only [clearConfirmed]; (repeat' split) <;> simp_all; done)
  | (unfold clearConfirmed; simp only []; (repeat' split) <;> simp_all; done)

@[simp] theorem loopCloses_keeps (n : Nat) (s : State) :
    (loopCloses n s).pending = s.pending ∧ (loopCloses n s).phase = s.phase ∧ (loopCloses n s).cause = s.cause
    ∧ (loopCloses n s).free = s.free ∧ (loopCloses n s).link.lines = s.link.lines
    ∧ (loopCloses n s).link.hold = s.link.hold ∧ (loopCloses n s).link.held = s.link.held
    ∧ (loopCloses n s).link.slot = s.link.slot ∧ (loopCloses n s).link.owed = s.link.owed
    ∧ (loopCloses n s).link.tx = s.link.tx ∧ (loopCloses n s).link.enabled = s.link.enabled
    ∧ (loopCloses n s).link.gap = s.link.gap ∧ (loopCloses n s).site = s.site ∧ (loopCloses n s).rate = s.rate
    ∧ (loopCloses n s).lock = s.lock ∧ (loopCloses n s).store = s.store ∧ (loopCloses n s).failed = s.failed
    ∧ (loopCloses n s).images = s.images ∧ (loopCloses n s).net = s.net ∧ (loopCloses n s).routes = s.routes
    ∧ (loopCloses n s).engine = s.engine ∧ (loopCloses n s).ring = s.ring ∧ (loopCloses n s).bus = s.bus
    ∧ (loopCloses n s).cards = s.cards ∧ (loopCloses n s).fixtures = s.fixtures ∧ (loopCloses n s).latch = s.latch
    ∧ (loopCloses n s).records = s.records ∧ (loopCloses n s).muteAck = s.muteAck := by
  first
  | (simp [loopCloses]; done)
  | (simp only [loopCloses]; (repeat' split) <;> simp_all; done)
  | (unfold loopCloses; simp only []; (repeat' split) <;> simp_all; done)

@[simp] theorem confirmLoop_keeps (plus : Bool) (n : Nat) (s : State) :
    (confirmLoop plus n s).pending = s.pending ∧ (confirmLoop plus n s).phase = s.phase
    ∧ (confirmLoop plus n s).cause = s.cause ∧ (confirmLoop plus n s).free = s.free
    ∧ (confirmLoop plus n s).link.lines = s.link.lines ∧ (confirmLoop plus n s).link.hold = s.link.hold
    ∧ (confirmLoop plus n s).link.owed = s.link.owed ∧ (confirmLoop plus n s).link.tx = s.link.tx
    ∧ (confirmLoop plus n s).link.enabled = s.link.enabled ∧ (confirmLoop plus n s).link.gap = s.link.gap
    ∧ (confirmLoop plus n s).site = s.site ∧ (confirmLoop plus n s).rate = s.rate
    ∧ (confirmLoop plus n s).lock = s.lock ∧ (confirmLoop plus n s).store = s.store
    ∧ (confirmLoop plus n s).failed = s.failed ∧ (confirmLoop plus n s).images = s.images
    ∧ (confirmLoop plus n s).net = s.net ∧ (confirmLoop plus n s).routes = s.routes
    ∧ (confirmLoop plus n s).engine = s.engine ∧ (confirmLoop plus n s).ring = s.ring
    ∧ (confirmLoop plus n s).bus = s.bus ∧ (confirmLoop plus n s).cards = s.cards
    ∧ (confirmLoop plus n s).fixtures = s.fixtures ∧ (confirmLoop plus n s).latch = s.latch
    ∧ (confirmLoop plus n s).records = s.records ∧ (confirmLoop plus n s).muteAck = s.muteAck := by
  first
  | (simp [confirmLoop]; done)
  | (simp only [confirmLoop]; (repeat' split) <;> simp_all; done)
  | (unfold confirmLoop; simp only []; (repeat' split) <;> simp_all; done)

@[simp] theorem clearElem_keeps (e : Nat) (s : State) :
    (clearElem e s).pending = s.pending ∧ (clearElem e s).phase = s.phase ∧ (clearElem e s).cause = s.cause
    ∧ (clearElem e s).free = s.free ∧ (clearElem e s).link = s.link ∧ (clearElem e s).site = s.site
    ∧ (clearElem e s).rate = s.rate ∧ (clearElem e s).lock = s.lock ∧ (clearElem e s).store = s.store
    ∧ (clearElem e s).failed = s.failed ∧ (clearElem e s).images = s.images ∧ (clearElem e s).net.ports = s.net.ports
    ∧ (clearElem e s).net.legs = s.net.legs ∧ (clearElem e s).net.released = s.net.released
    ∧ (clearElem e s).net.locked = s.net.locked ∧ (clearElem e s).routes = s.routes
    ∧ (clearElem e s).engine.mode = s.engine.mode ∧ (clearElem e s).engine.applied = s.engine.applied
    ∧ (clearElem e s).engine.number = s.engine.number ∧ (clearElem e s).engine.trans = s.engine.trans
    ∧ (clearElem e s).engine.mute = s.engine.mute ∧ (clearElem e s).engine.muteTimer = s.engine.muteTimer
    ∧ (clearElem e s).engine.dropHeld = s.engine.dropHeld ∧ (clearElem e s).engine.waiting = s.engine.waiting
    ∧ (clearElem e s).engine.active = s.engine.active ∧ (clearElem e s).engine.due = s.engine.due
    ∧ (clearElem e s).engine.staging = s.engine.staging ∧ (clearElem e s).engine.survey = s.engine.survey
    ∧ (clearElem e s).ring = s.ring ∧ (clearElem e s).bus = s.bus ∧ (clearElem e s).cards = s.cards
    ∧ (clearElem e s).fixtures = s.fixtures ∧ (clearElem e s).loops = s.loops ∧ (clearElem e s).latch = s.latch
    ∧ (clearElem e s).records = s.records ∧ (clearElem e s).muteAck = s.muteAck := by
  first
  | (simp [clearElem]; done)
  | (simp only [clearElem]; (repeat' split) <;> simp_all; done)
  | (unfold clearElem; simp only []; (repeat' split) <;> simp_all; done)

@[simp] theorem followUp_keeps (n : Nat) (r : State × Ask) :
    (followUp n r).pending = r.1.pending ∧ (followUp n r).phase = r.1.phase ∧ (followUp n r).cause = r.1.cause
    ∧ (followUp n r).link.lines = r.1.link.lines ∧ (followUp n r).link.held = r.1.link.held
    ∧ (followUp n r).link.slot = r.1.link.slot ∧ (followUp n r).link.owed = r.1.link.owed
    ∧ (followUp n r).link.tx = r.1.link.tx ∧ (followUp n r).link.enabled = r.1.link.enabled
    ∧ (followUp n r).site = r.1.site ∧ (followUp n r).rate = r.1.rate ∧ (followUp n r).lock = r.1.lock
    ∧ (followUp n r).failed = r.1.failed ∧ (followUp n r).net.ports = r.1.net.ports
    ∧ (followUp n r).net.legs = r.1.net.legs ∧ (followUp n r).net.released = r.1.net.released
    ∧ (followUp n r).net.locked = r.1.net.locked ∧ (followUp n r).engine.active = r.1.engine.active
    ∧ (followUp n r).engine.due = r.1.engine.due ∧ (followUp n r).engine.survey = r.1.engine.survey
    ∧ (followUp n r).ring.steps = r.1.ring.steps ∧ (followUp n r).ring.len = r.1.ring.len
    ∧ (followUp n r).bus = r.1.bus ∧ (followUp n r).cards = r.1.cards ∧ (followUp n r).fixtures = r.1.fixtures
    ∧ (followUp n r).loops = r.1.loops ∧ (followUp n r).records.late = r.1.records.late
    ∧ (followUp n r).records.wear = r.1.records.wear ∧ (followUp n r).muteAck = r.1.muteAck := by
  induction n generalizing r with
  | zero => simp [followUp]
  | succ n ih =>
    obtain ⟨s, a⟩ := r
    cases a <;> simp [followUp, ih]

@[simp] theorem advanceAll_keeps (s : State) :
    (advanceAll s).pending = s.pending ∧ (advanceAll s).phase = s.phase ∧ (advanceAll s).cause = s.cause
    ∧ (advanceAll s).link.lines = s.link.lines ∧ (advanceAll s).link.owed = s.link.owed
    ∧ (advanceAll s).link.tx = s.link.tx ∧ (advanceAll s).link.enabled = s.link.enabled
    ∧ (advanceAll s).site = s.site ∧ (advanceAll s).rate = s.rate ∧ (advanceAll s).lock = s.lock
    ∧ (advanceAll s).failed = s.failed ∧ (advanceAll s).net.ports = s.net.ports
    ∧ (advanceAll s).net.legs = s.net.legs ∧ (advanceAll s).net.released = s.net.released
    ∧ (advanceAll s).net.locked = s.net.locked ∧ (advanceAll s).engine.active = s.engine.active
    ∧ (advanceAll s).engine.due = s.engine.due ∧ (advanceAll s).ring.steps = s.ring.steps
    ∧ (advanceAll s).ring.len = s.ring.len ∧ (advanceAll s).bus = s.bus ∧ (advanceAll s).cards = s.cards
    ∧ (advanceAll s).fixtures = s.fixtures ∧ (advanceAll s).loops = s.loops
    ∧ (advanceAll s).records.late = s.records.late ∧ (advanceAll s).records.wear = s.records.wear
    ∧ (advanceAll s).muteAck = s.muteAck := by
  first
  | (simp [advanceAll]; done)
  | (simp only [advanceAll]; (repeat' split) <;> simp_all; done)
  | (unfold advanceAll; simp only []; (repeat' split) <;> simp_all; done)

@[simp] theorem haltEngine_keeps (s : State) :
    (haltEngine s).pending = s.pending ∧ (haltEngine s).phase = s.phase ∧ (haltEngine s).cause = s.cause
    ∧ (haltEngine s).link.lines = s.link.lines ∧ (haltEngine s).link.owed = s.link.owed
    ∧ (haltEngine s).link.tx = s.link.tx ∧ (haltEngine s).link.enabled = s.link.enabled
    ∧ (haltEngine s).site = s.site ∧ (haltEngine s).rate = s.rate ∧ (haltEngine s).lock = s.lock
    ∧ (haltEngine s).failed = s.failed ∧ (haltEngine s).net.ports = s.net.ports
    ∧ (haltEngine s).net.legs = s.net.legs ∧ (haltEngine s).net.released = s.net.released
    ∧ (haltEngine s).net.locked = s.net.locked ∧ (haltEngine s).engine.active = s.engine.active
    ∧ (haltEngine s).engine.due = s.engine.due ∧ (haltEngine s).ring.steps = s.ring.steps
    ∧ (haltEngine s).ring.len = s.ring.len ∧ (haltEngine s).bus = s.bus ∧ (haltEngine s).cards = s.cards
    ∧ (haltEngine s).fixtures = s.fixtures ∧ (haltEngine s).loops = s.loops
    ∧ (haltEngine s).records.late = s.records.late ∧ (haltEngine s).records.wear = s.records.wear
    ∧ (haltEngine s).muteAck = s.muteAck := by
  first
  | (simp [haltEngine]; done)
  | (simp only [haltEngine]; (repeat' split) <;> simp_all; done)
  | (unfold haltEngine; simp only []; (repeat' split) <;> simp_all; done)

@[simp] theorem permitLost_keeps (s : State) :
    (permitLost s).pending = s.pending ∧ (permitLost s).phase = s.phase ∧ (permitLost s).cause = s.cause
    ∧ (permitLost s).link.lines = s.link.lines ∧ (permitLost s).link.owed = s.link.owed
    ∧ (permitLost s).link.tx = s.link.tx ∧ (permitLost s).link.enabled = s.link.enabled
    ∧ (permitLost s).site = s.site ∧ (permitLost s).rate = s.rate ∧ (permitLost s).lock = s.lock
    ∧ (permitLost s).failed = s.failed ∧ (permitLost s).net.ports = s.net.ports
    ∧ (permitLost s).net.legs = s.net.legs ∧ (permitLost s).net.released = s.net.released
    ∧ (permitLost s).net.locked = s.net.locked ∧ (permitLost s).engine.active = s.engine.active
    ∧ (permitLost s).engine.due = s.engine.due ∧ (permitLost s).ring.steps = s.ring.steps
    ∧ (permitLost s).ring.len = s.ring.len ∧ (permitLost s).bus = s.bus ∧ (permitLost s).cards = s.cards
    ∧ (permitLost s).fixtures = s.fixtures ∧ (permitLost s).loops = s.loops
    ∧ (permitLost s).records.late = s.records.late ∧ (permitLost s).records.wear = s.records.wear
    ∧ (permitLost s).muteAck = s.muteAck := by
  first
  | (simp [permitLost]; done)
  | (simp only [permitLost]; (repeat' split) <;> simp_all; done)
  | (unfold permitLost; simp only []; (repeat' split) <;> simp_all; done)

@[simp] theorem cardLeft_keeps (n : Nat) (s : State) :
    (cardLeft n s).pending = s.pending ∧ (cardLeft n s).phase = s.phase ∧ (cardLeft n s).cause = s.cause
    ∧ (cardLeft n s).link.lines = s.link.lines ∧ (cardLeft n s).link.owed = s.link.owed
    ∧ (cardLeft n s).link.tx = s.link.tx ∧ (cardLeft n s).link.enabled = s.link.enabled
    ∧ (cardLeft n s).site = s.site ∧ (cardLeft n s).rate = s.rate ∧ (cardLeft n s).lock = s.lock
    ∧ (cardLeft n s).failed = s.failed ∧ (cardLeft n s).net.ports = s.net.ports
    ∧ (cardLeft n s).net.legs = s.net.legs ∧ (cardLeft n s).net.released = s.net.released
    ∧ (cardLeft n s).net.locked = s.net.locked ∧ (cardLeft n s).ring.steps = s.ring.steps
    ∧ (cardLeft n s).ring.len = s.ring.len ∧ (cardLeft n s).bus = s.bus ∧ (cardLeft n s).cards = s.cards
    ∧ (cardLeft n s).fixtures = s.fixtures ∧ (cardLeft n s).loops = s.loops
    ∧ (cardLeft n s).records.late = s.records.late ∧ (cardLeft n s).records.wear = s.records.wear
    ∧ (cardLeft n s).muteAck = s.muteAck := by
  first
  | (simp [cardLeft]; done)
  | (simp only [cardLeft]; (repeat' split) <;> simp_all; done)
  | (unfold cardLeft; simp only []; (repeat' split) <;> simp_all; done)

@[simp] theorem readback_keeps (d : Drive) (retry : Bool) (got : Option Nat) (s : State) :
    (readback d retry got s).pending = s.pending ∧ (readback d retry got s).phase = s.phase
    ∧ (readback d retry got s).cause = s.cause ∧ (readback d retry got s).link.lines = s.link.lines
    ∧ (readback d retry got s).link.owed = s.link.owed ∧ (readback d retry got s).link.tx = s.link.tx
    ∧ (readback d retry got s).link.enabled = s.link.enabled ∧ (readback d retry got s).site = s.site
    ∧ (readback d retry got s).rate = s.rate ∧ (readback d retry got s).lock = s.lock
    ∧ (readback d retry got s).failed = s.failed ∧ (readback d retry got s).net.ports = s.net.ports
    ∧ (readback d retry got s).net.legs = s.net.legs ∧ (readback d retry got s).net.released = s.net.released
    ∧ (readback d retry got s).net.locked = s.net.locked ∧ (readback d retry got s).engine.due = s.engine.due
    ∧ (readback d retry got s).ring.steps = s.ring.steps ∧ (readback d retry got s).ring.len = s.ring.len
    ∧ (readback d retry got s).bus = s.bus ∧ (readback d retry got s).cards = s.cards
    ∧ (readback d retry got s).fixtures = s.fixtures ∧ (readback d retry got s).loops = s.loops
    ∧ (readback d retry got s).muteAck = s.muteAck := by
  first
  | (simp [readback]; done)
  | (simp only [readback]; (repeat' split) <;> simp_all; done)
  | (unfold readback; simp only []; (repeat' split) <;> simp_all; done)

@[simp] theorem surveyed_keeps (e : Nat) (got : Option Nat) (s : State) :
    (surveyed e got s).pending = s.pending ∧ (surveyed e got s).phase = s.phase ∧ (surveyed e got s).cause = s.cause
    ∧ (surveyed e got s).link.lines = s.link.lines ∧ (surveyed e got s).link.owed = s.link.owed
    ∧ (surveyed e got s).link.tx = s.link.tx ∧ (surveyed e got s).link.enabled = s.link.enabled
    ∧ (surveyed e got s).site = s.site ∧ (surveyed e got s).rate = s.rate ∧ (surveyed e got s).lock = s.lock
    ∧ (surveyed e got s).failed = s.failed ∧ (surveyed e got s).net.ports = s.net.ports
    ∧ (surveyed e got s).net.legs = s.net.legs ∧ (surveyed e got s).net.released = s.net.released
    ∧ (surveyed e got s).net.locked = s.net.locked ∧ (surveyed e got s).engine.active = s.engine.active
    ∧ (surveyed e got s).engine.due = s.engine.due ∧ (surveyed e got s).ring.steps = s.ring.steps
    ∧ (surveyed e got s).ring.len = s.ring.len ∧ (surveyed e got s).bus = s.bus ∧ (surveyed e got s).cards = s.cards
    ∧ (surveyed e got s).fixtures = s.fixtures ∧ (surveyed e got s).loops = s.loops
    ∧ (surveyed e got s).records.late = s.records.late ∧ (surveyed e got s).records.wear = s.records.wear
    ∧ (surveyed e got s).muteAck = s.muteAck := by
  first
  | (simp [surveyed]; done)
  | (simp only [surveyed]; (repeat' split) <;> simp_all; done)
  | (unfold surveyed; simp only []; (repeat' split) <;> simp_all; done)

@[simp] theorem leaveEnabled_keeps (n : Nat) (s : State) :
    (leaveEnabled n s).pending = s.pending ∧ (leaveEnabled n s).phase = s.phase ∧ (leaveEnabled n s).cause = s.cause
    ∧ (leaveEnabled n s).link.lines = s.link.lines ∧ (leaveEnabled n s).link.owed = s.link.owed
    ∧ (leaveEnabled n s).link.tx = s.link.tx ∧ (leaveEnabled n s).link.enabled = s.link.enabled
    ∧ (leaveEnabled n s).site = s.site ∧ (leaveEnabled n s).rate = s.rate ∧ (leaveEnabled n s).lock = s.lock
    ∧ (leaveEnabled n s).failed = s.failed ∧ (leaveEnabled n s).net.ports = s.net.ports
    ∧ (leaveEnabled n s).net.legs = s.net.legs ∧ (leaveEnabled n s).net.released = s.net.released
    ∧ (leaveEnabled n s).net.locked = s.net.locked ∧ (leaveEnabled n s).ring.steps = s.ring.steps
    ∧ (leaveEnabled n s).ring.len = s.ring.len ∧ (leaveEnabled n s).bus = s.bus
    ∧ (leaveEnabled n s).fixtures = s.fixtures ∧ (leaveEnabled n s).loops = s.loops
    ∧ (leaveEnabled n s).records.late = s.records.late ∧ (leaveEnabled n s).records.wear = s.records.wear
    ∧ (leaveEnabled n s).muteAck = s.muteAck := by
  first
  | (simp [leaveEnabled]; done)
  | (simp only [leaveEnabled]; (repeat' split) <;> simp_all; done)
  | (unfold leaveEnabled; simp only []; (repeat' split) <;> simp_all; done)

@[simp] theorem disableCard_keeps (n : Nat) (s : State) :
    (disableCard n s).pending = s.pending ∧ (disableCard n s).phase = s.phase ∧ (disableCard n s).cause = s.cause
    ∧ (disableCard n s).link.lines = s.link.lines ∧ (disableCard n s).link.owed = s.link.owed
    ∧ (disableCard n s).link.tx = s.link.tx ∧ (disableCard n s).link.enabled = s.link.enabled
    ∧ (disableCard n s).site = s.site ∧ (disableCard n s).rate = s.rate ∧ (disableCard n s).lock = s.lock
    ∧ (disableCard n s).failed = s.failed ∧ (disableCard n s).net.ports = s.net.ports
    ∧ (disableCard n s).net.legs = s.net.legs ∧ (disableCard n s).net.released = s.net.released
    ∧ (disableCard n s).net.locked = s.net.locked ∧ (disableCard n s).ring.steps = s.ring.steps
    ∧ (disableCard n s).ring.len = s.ring.len ∧ (disableCard n s).bus = s.bus
    ∧ (disableCard n s).fixtures = s.fixtures ∧ (disableCard n s).loops = s.loops
    ∧ (disableCard n s).records.late = s.records.late ∧ (disableCard n s).records.wear = s.records.wear
    ∧ (disableCard n s).muteAck = s.muteAck := by
  first
  | (simp [disableCard]; done)
  | (simp only [disableCard]; (repeat' split) <;> simp_all; done)
  | (unfold disableCard; simp only []; (repeat' split) <;> simp_all; done)

@[simp] theorem loseCard_keeps (n : Nat) (s : State) :
    (loseCard n s).pending = s.pending ∧ (loseCard n s).phase = s.phase ∧ (loseCard n s).cause = s.cause
    ∧ (loseCard n s).link.lines = s.link.lines ∧ (loseCard n s).link.owed = s.link.owed
    ∧ (loseCard n s).link.tx = s.link.tx ∧ (loseCard n s).link.enabled = s.link.enabled
    ∧ (loseCard n s).site = s.site ∧ (loseCard n s).rate = s.rate ∧ (loseCard n s).lock = s.lock
    ∧ (loseCard n s).failed = s.failed ∧ (loseCard n s).net.ports = s.net.ports
    ∧ (loseCard n s).net.legs = s.net.legs ∧ (loseCard n s).net.released = s.net.released
    ∧ (loseCard n s).net.locked = s.net.locked ∧ (loseCard n s).ring.steps = s.ring.steps
    ∧ (loseCard n s).ring.len = s.ring.len ∧ (loseCard n s).bus = s.bus ∧ (loseCard n s).fixtures = s.fixtures
    ∧ (loseCard n s).loops = s.loops ∧ (loseCard n s).records.late = s.records.late
    ∧ (loseCard n s).records.wear = s.records.wear ∧ (loseCard n s).muteAck = s.muteAck := by
  first
  | (simp [loseCard]; done)
  | (simp only [loseCard]; (repeat' split) <;> simp_all; done)
  | (unfold loseCard; simp only []; (repeat' split) <;> simp_all; done)

@[simp] theorem beginRestart_keeps (n : Nat) (s : State) :
    (beginRestart n s).pending = s.pending ∧ (beginRestart n s).phase = s.phase ∧ (beginRestart n s).cause = s.cause
    ∧ (beginRestart n s).link.lines = s.link.lines ∧ (beginRestart n s).link.owed = s.link.owed
    ∧ (beginRestart n s).link.tx = s.link.tx ∧ (beginRestart n s).link.enabled = s.link.enabled
    ∧ (beginRestart n s).site = s.site ∧ (beginRestart n s).rate = s.rate ∧ (beginRestart n s).lock = s.lock
    ∧ (beginRestart n s).failed = s.failed ∧ (beginRestart n s).net.ports = s.net.ports
    ∧ (beginRestart n s).net.legs = s.net.legs ∧ (beginRestart n s).net.released = s.net.released
    ∧ (beginRestart n s).net.locked = s.net.locked ∧ (beginRestart n s).ring.steps = s.ring.steps
    ∧ (beginRestart n s).ring.len = s.ring.len ∧ (beginRestart n s).bus = s.bus
    ∧ (beginRestart n s).fixtures = s.fixtures ∧ (beginRestart n s).loops = s.loops
    ∧ (beginRestart n s).records.late = s.records.late ∧ (beginRestart n s).records.wear = s.records.wear
    ∧ (beginRestart n s).muteAck = s.muteAck := by
  first
  | (simp [beginRestart]; done)
  | (simp only [beginRestart]; (repeat' split) <;> simp_all; done)
  | (unfold beginRestart; simp only []; (repeat' split) <;> simp_all; done)

@[simp] theorem defineElem_keeps (e : Nat) (x : Elem) (s : State) :
    (defineElem e x s).pending = s.pending ∧ (defineElem e x s).phase = s.phase ∧ (defineElem e x s).cause = s.cause
    ∧ (defineElem e x s).link.lines = s.link.lines ∧ (defineElem e x s).link.owed = s.link.owed
    ∧ (defineElem e x s).link.tx = s.link.tx ∧ (defineElem e x s).link.enabled = s.link.enabled
    ∧ (defineElem e x s).site = s.site ∧ (defineElem e x s).rate = s.rate ∧ (defineElem e x s).lock = s.lock
    ∧ (defineElem e x s).failed = s.failed ∧ (defineElem e x s).net.ports = s.net.ports
    ∧ (defineElem e x s).net.locked = s.net.locked ∧ (defineElem e x s).engine.active = s.engine.active
    ∧ (defineElem e x s).engine.due = s.engine.due ∧ (defineElem e x s).ring.steps = s.ring.steps
    ∧ (defineElem e x s).ring.len = s.ring.len ∧ (defineElem e x s).bus = s.bus ∧ (defineElem e x s).cards = s.cards
    ∧ (defineElem e x s).fixtures = s.fixtures ∧ (defineElem e x s).loops = s.loops
    ∧ (defineElem e x s).records.late = s.records.late ∧ (defineElem e x s).records.wear = s.records.wear
    ∧ (defineElem e x s).muteAck = s.muteAck := by
  first
  | (simp [defineElem]; done)
  | (simp only [defineElem]; (repeat' split) <;> simp_all; done)
  | (unfold defineElem; simp only []; (repeat' split) <;> simp_all; done)

@[simp] theorem deleteElem_keeps (e : Nat) (s : State) :
    (deleteElem e s).pending = s.pending ∧ (deleteElem e s).phase = s.phase ∧ (deleteElem e s).cause = s.cause
    ∧ (deleteElem e s).link.lines = s.link.lines ∧ (deleteElem e s).link.owed = s.link.owed
    ∧ (deleteElem e s).link.tx = s.link.tx ∧ (deleteElem e s).link.enabled = s.link.enabled
    ∧ (deleteElem e s).site = s.site ∧ (deleteElem e s).rate = s.rate ∧ (deleteElem e s).lock = s.lock
    ∧ (deleteElem e s).failed = s.failed ∧ (deleteElem e s).net.ports = s.net.ports
    ∧ (deleteElem e s).net.locked = s.net.locked ∧ (deleteElem e s).engine.active = s.engine.active
    ∧ (deleteElem e s).engine.due = s.engine.due ∧ (deleteElem e s).ring.steps = s.ring.steps
    ∧ (deleteElem e s).ring.len = s.ring.len ∧ (deleteElem e s).bus = s.bus ∧ (deleteElem e s).cards = s.cards
    ∧ (deleteElem e s).fixtures = s.fixtures ∧ (deleteElem e s).loops = s.loops
    ∧ (deleteElem e s).records.late = s.records.late ∧ (deleteElem e s).records.wear = s.records.wear
    ∧ (deleteElem e s).muteAck = s.muteAck := by
  first
  | (simp [deleteElem]; done)
  | (simp only [deleteElem]; (repeat' split) <;> simp_all; done)
  | (unfold deleteElem; simp only []; (repeat' split) <;> simp_all; done)

@[simp] theorem requestGo_keeps (plus : Bool) (ids : List Nat) (s : State) :
    (requestGo plus ids s).pending = s.pending ∧ (requestGo plus ids s).phase = s.phase
    ∧ (requestGo plus ids s).cause = s.cause ∧ (requestGo plus ids s).link.lines = s.link.lines
    ∧ (requestGo plus ids s).link.owed = s.link.owed ∧ (requestGo plus ids s).link.tx = s.link.tx
    ∧ (requestGo plus ids s).link.enabled = s.link.enabled ∧ (requestGo plus ids s).site = s.site
    ∧ (requestGo plus ids s).rate = s.rate ∧ (requestGo plus ids s).lock = s.lock
    ∧ (requestGo plus ids s).failed = s.failed ∧ (requestGo plus ids s).net.ports = s.net.ports
    ∧ (requestGo plus ids s).net.legs = s.net.legs ∧ (requestGo plus ids s).net.released = s.net.released
    ∧ (requestGo plus ids s).net.locked = s.net.locked ∧ (requestGo plus ids s).engine.active = s.engine.active
    ∧ (requestGo plus ids s).engine.due = s.engine.due ∧ (requestGo plus ids s).engine.survey = s.engine.survey
    ∧ (requestGo plus ids s).ring.steps = s.ring.steps ∧ (requestGo plus ids s).ring.len = s.ring.len
    ∧ (requestGo plus ids s).bus = s.bus ∧ (requestGo plus ids s).cards = s.cards
    ∧ (requestGo plus ids s).fixtures = s.fixtures ∧ (requestGo plus ids s).loops = s.loops
    ∧ (requestGo plus ids s).records.late = s.records.late ∧ (requestGo plus ids s).records.wear = s.records.wear
    ∧ (requestGo plus ids s).muteAck = s.muteAck := by
  first
  | (simp [requestGo]; done)
  | (simp only [requestGo]; (repeat' split) <;> simp_all; done)
  | (unfold requestGo; simp only []; (repeat' split) <;> simp_all; done)

@[simp] theorem hotEvent_keeps (t : Trans) (s : State) :
    (hotEvent t s).pending = s.pending ∧ (hotEvent t s).phase = s.phase ∧ (hotEvent t s).cause = s.cause
    ∧ (hotEvent t s).link.lines = s.link.lines ∧ (hotEvent t s).link.owed = s.link.owed
    ∧ (hotEvent t s).link.tx = s.link.tx ∧ (hotEvent t s).link.enabled = s.link.enabled
    ∧ (hotEvent t s).site = s.site ∧ (hotEvent t s).rate = s.rate ∧ (hotEvent t s).lock = s.lock
    ∧ (hotEvent t s).failed = s.failed ∧ (hotEvent t s).net.ports = s.net.ports
    ∧ (hotEvent t s).net.legs = s.net.legs ∧ (hotEvent t s).net.released = s.net.released
    ∧ (hotEvent t s).net.locked = s.net.locked ∧ (hotEvent t s).engine.active = s.engine.active
    ∧ (hotEvent t s).engine.due = s.engine.due ∧ (hotEvent t s).ring.steps = s.ring.steps
    ∧ (hotEvent t s).ring.len = s.ring.len ∧ (hotEvent t s).bus = s.bus ∧ (hotEvent t s).cards = s.cards
    ∧ (hotEvent t s).fixtures = s.fixtures ∧ (hotEvent t s).loops = s.loops
    ∧ (hotEvent t s).records.late = s.records.late ∧ (hotEvent t s).records.wear = s.records.wear
    ∧ (hotEvent t s).muteAck = s.muteAck := by
  first
  | (simp [hotEvent]; done)
  | (simp only [hotEvent]; (repeat' split) <;> simp_all; done)
  | (unfold hotEvent; simp only []; (repeat' split) <;> simp_all; done)

@[simp] theorem muteAckLost_keeps (s : State) :
    (muteAckLost s).pending = s.pending ∧ (muteAckLost s).phase = s.phase ∧ (muteAckLost s).cause = s.cause
    ∧ (muteAckLost s).link.lines = s.link.lines ∧ (muteAckLost s).link.owed = s.link.owed
    ∧ (muteAckLost s).link.tx = s.link.tx ∧ (muteAckLost s).link.enabled = s.link.enabled
    ∧ (muteAckLost s).site = s.site ∧ (muteAckLost s).rate = s.rate ∧ (muteAckLost s).lock = s.lock
    ∧ (muteAckLost s).failed = s.failed ∧ (muteAckLost s).net.ports = s.net.ports
    ∧ (muteAckLost s).net.legs = s.net.legs ∧ (muteAckLost s).net.released = s.net.released
    ∧ (muteAckLost s).net.locked = s.net.locked ∧ (muteAckLost s).engine.active = s.engine.active
    ∧ (muteAckLost s).engine.due = s.engine.due ∧ (muteAckLost s).ring.steps = s.ring.steps
    ∧ (muteAckLost s).ring.len = s.ring.len ∧ (muteAckLost s).bus = s.bus ∧ (muteAckLost s).cards = s.cards
    ∧ (muteAckLost s).fixtures = s.fixtures ∧ (muteAckLost s).loops = s.loops
    ∧ (muteAckLost s).records.late = s.records.late ∧ (muteAckLost s).records.wear = s.records.wear
    ∧ (muteAckLost s).muteAck = s.muteAck := by
  first
  | (simp [muteAckLost]; done)
  | (simp only [muteAckLost]; (repeat' split) <;> simp_all; done)
  | (unfold muteAckLost; simp only []; (repeat' split) <;> simp_all; done)

@[simp] theorem muteTimeout_keeps (s : State) :
    (muteTimeout s).pending = s.pending ∧ (muteTimeout s).phase = s.phase ∧ (muteTimeout s).cause = s.cause
    ∧ (muteTimeout s).link.lines = s.link.lines ∧ (muteTimeout s).link.held = s.link.held
    ∧ (muteTimeout s).link.slot = s.link.slot ∧ (muteTimeout s).link.owed = s.link.owed
    ∧ (muteTimeout s).link.tx = s.link.tx ∧ (muteTimeout s).link.enabled = s.link.enabled
    ∧ (muteTimeout s).site = s.site ∧ (muteTimeout s).rate = s.rate ∧ (muteTimeout s).lock = s.lock
    ∧ (muteTimeout s).failed = s.failed ∧ (muteTimeout s).net.ports = s.net.ports
    ∧ (muteTimeout s).net.legs = s.net.legs ∧ (muteTimeout s).net.released = s.net.released
    ∧ (muteTimeout s).net.locked = s.net.locked ∧ (muteTimeout s).engine.active = s.engine.active
    ∧ (muteTimeout s).engine.due = s.engine.due ∧ (muteTimeout s).engine.survey = s.engine.survey
    ∧ (muteTimeout s).ring.steps = s.ring.steps ∧ (muteTimeout s).ring.len = s.ring.len ∧ (muteTimeout s).bus = s.bus
    ∧ (muteTimeout s).cards = s.cards ∧ (muteTimeout s).fixtures = s.fixtures ∧ (muteTimeout s).loops = s.loops
    ∧ (muteTimeout s).records.late = s.records.late ∧ (muteTimeout s).records.wear = s.records.wear
    ∧ (muteTimeout s).muteAck = s.muteAck := by
  first
  | (simp [muteTimeout]; done)
  | (simp only [muteTimeout]; (repeat' split) <;> simp_all; done)
  | (unfold muteTimeout; simp only []; (repeat' split) <;> simp_all; done)

@[simp] theorem settleEnds_keeps (e : Nat) (s : State) :
    (settleEnds e s).pending = s.pending ∧ (settleEnds e s).phase = s.phase ∧ (settleEnds e s).cause = s.cause
    ∧ (settleEnds e s).link.lines = s.link.lines ∧ (settleEnds e s).link.owed = s.link.owed
    ∧ (settleEnds e s).link.tx = s.link.tx ∧ (settleEnds e s).link.enabled = s.link.enabled
    ∧ (settleEnds e s).site = s.site ∧ (settleEnds e s).rate = s.rate ∧ (settleEnds e s).lock = s.lock
    ∧ (settleEnds e s).failed = s.failed ∧ (settleEnds e s).net.ports = s.net.ports
    ∧ (settleEnds e s).net.legs = s.net.legs ∧ (settleEnds e s).net.released = s.net.released
    ∧ (settleEnds e s).net.locked = s.net.locked ∧ (settleEnds e s).ring.steps = s.ring.steps
    ∧ (settleEnds e s).ring.len = s.ring.len ∧ (settleEnds e s).bus = s.bus ∧ (settleEnds e s).cards = s.cards
    ∧ (settleEnds e s).fixtures = s.fixtures ∧ (settleEnds e s).loops = s.loops
    ∧ (settleEnds e s).records.late = s.records.late ∧ (settleEnds e s).records.wear = s.records.wear
    ∧ (settleEnds e s).muteAck = s.muteAck := by
  first
  | (simp [settleEnds]; done)
  | (simp only [settleEnds]; (repeat' split) <;> simp_all; done)
  | (unfold settleEnds; simp only []; (repeat' split) <;> simp_all; done)

@[simp] theorem senseReturns_keeps (got : Option Nat) (s : State) :
    (senseReturns got s).pending = s.pending ∧ (senseReturns got s).phase = s.phase
    ∧ (senseReturns got s).cause = s.cause ∧ (senseReturns got s).link.lines = s.link.lines
    ∧ (senseReturns got s).link.owed = s.link.owed ∧ (senseReturns got s).link.tx = s.link.tx
    ∧ (senseReturns got s).link.enabled = s.link.enabled ∧ (senseReturns got s).site = s.site
    ∧ (senseReturns got s).rate = s.rate ∧ (senseReturns got s).lock = s.lock
    ∧ (senseReturns got s).failed = s.failed ∧ (senseReturns got s).net.ports = s.net.ports
    ∧ (senseReturns got s).net.legs = s.net.legs ∧ (senseReturns got s).net.released = s.net.released
    ∧ (senseReturns got s).net.locked = s.net.locked ∧ (senseReturns got s).engine.due = s.engine.due
    ∧ (senseReturns got s).ring.steps = s.ring.steps ∧ (senseReturns got s).ring.len = s.ring.len
    ∧ (senseReturns got s).bus.round = s.bus.round ∧ (senseReturns got s).bus.pollTimer = s.bus.pollTimer
    ∧ (senseReturns got s).bus.discovery = s.bus.discovery ∧ (senseReturns got s).cards = s.cards
    ∧ (senseReturns got s).fixtures = s.fixtures ∧ (senseReturns got s).loops = s.loops
    ∧ (senseReturns got s).muteAck = s.muteAck := by
  first
  | (simp [senseReturns]; done)
  | (simp only [senseReturns]; (repeat' split) <;> simp_all; done)
  | (unfold senseReturns; simp only []; (repeat' split) <;> simp_all; done)

@[simp] theorem startRun_keeps (plus : Bool) (i : Nat) (s : State) :
    (startRun plus i s).pending = s.pending ∧ (startRun plus i s).phase = s.phase
    ∧ (startRun plus i s).cause = s.cause ∧ (startRun plus i s).link.lines = s.link.lines
    ∧ (startRun plus i s).link.owed = s.link.owed ∧ (startRun plus i s).link.tx = s.link.tx
    ∧ (startRun plus i s).link.enabled = s.link.enabled ∧ (startRun plus i s).site = s.site
    ∧ (startRun plus i s).rate = s.rate ∧ (startRun plus i s).lock = s.lock ∧ (startRun plus i s).failed = s.failed
    ∧ (startRun plus i s).net.ports = s.net.ports ∧ (startRun plus i s).net.legs = s.net.legs
    ∧ (startRun plus i s).net.released = s.net.released ∧ (startRun plus i s).net.locked = s.net.locked
    ∧ (startRun plus i s).engine.active = s.engine.active ∧ (startRun plus i s).engine.due = s.engine.due
    ∧ (startRun plus i s).engine.survey = s.engine.survey ∧ (startRun plus i s).ring.steps = s.ring.steps
    ∧ (startRun plus i s).ring.len = s.ring.len ∧ (startRun plus i s).bus = s.bus
    ∧ (startRun plus i s).cards = s.cards ∧ (startRun plus i s).fixtures = s.fixtures
    ∧ (startRun plus i s).loops = s.loops ∧ (startRun plus i s).records.late = s.records.late
    ∧ (startRun plus i s).records.wear = s.records.wear ∧ (startRun plus i s).muteAck = s.muteAck := by
  first
  | (simp [startRun]; done)
  | (simp only [startRun]; (repeat' split) <;> simp_all; done)
  | (unfold startRun; simp only []; (repeat' split) <;> simp_all; done)

@[simp] theorem trigTaken_keeps (plus : Bool) (s : State) :
    (trigTaken plus s).pending = s.pending ∧ (trigTaken plus s).phase = s.phase ∧ (trigTaken plus s).cause = s.cause
    ∧ (trigTaken plus s).link.lines = s.link.lines ∧ (trigTaken plus s).link.owed = s.link.owed
    ∧ (trigTaken plus s).link.tx = s.link.tx ∧ (trigTaken plus s).link.enabled = s.link.enabled
    ∧ (trigTaken plus s).site = s.site ∧ (trigTaken plus s).rate = s.rate ∧ (trigTaken plus s).lock = s.lock
    ∧ (trigTaken plus s).failed = s.failed ∧ (trigTaken plus s).net.ports = s.net.ports
    ∧ (trigTaken plus s).net.legs = s.net.legs ∧ (trigTaken plus s).net.released = s.net.released
    ∧ (trigTaken plus s).net.locked = s.net.locked ∧ (trigTaken plus s).engine.active = s.engine.active
    ∧ (trigTaken plus s).engine.due = s.engine.due ∧ (trigTaken plus s).engine.survey = s.engine.survey
    ∧ (trigTaken plus s).ring.steps = s.ring.steps ∧ (trigTaken plus s).ring.len = s.ring.len
    ∧ (trigTaken plus s).bus = s.bus ∧ (trigTaken plus s).cards = s.cards ∧ (trigTaken plus s).fixtures = s.fixtures
    ∧ (trigTaken plus s).loops = s.loops ∧ (trigTaken plus s).records.late = s.records.late
    ∧ (trigTaken plus s).records.wear = s.records.wear ∧ (trigTaken plus s).muteAck = s.muteAck := by
  first
  | (simp [trigTaken]; done)
  | (simp only [trigTaken]; (repeat' split) <;> simp_all; done)
  | (unfold trigTaken; simp only []; (repeat' split) <;> simp_all; done)

@[simp] theorem loopOpens_keeps (n : Nat) (s : State) :
    (loopOpens n s).pending = s.pending ∧ (loopOpens n s).phase = s.phase ∧ (loopOpens n s).cause = s.cause
    ∧ (loopOpens n s).link.lines = s.link.lines ∧ (loopOpens n s).link.owed = s.link.owed
    ∧ (loopOpens n s).link.tx = s.link.tx ∧ (loopOpens n s).link.enabled = s.link.enabled
    ∧ (loopOpens n s).site = s.site ∧ (loopOpens n s).rate = s.rate ∧ (loopOpens n s).lock = s.lock
    ∧ (loopOpens n s).failed = s.failed ∧ (loopOpens n s).net.ports = s.net.ports
    ∧ (loopOpens n s).net.legs = s.net.legs ∧ (loopOpens n s).net.released = s.net.released
    ∧ (loopOpens n s).net.locked = s.net.locked ∧ (loopOpens n s).engine.active = s.engine.active
    ∧ (loopOpens n s).engine.due = s.engine.due ∧ (loopOpens n s).ring.steps = s.ring.steps
    ∧ (loopOpens n s).ring.len = s.ring.len ∧ (loopOpens n s).bus = s.bus ∧ (loopOpens n s).cards = s.cards
    ∧ (loopOpens n s).fixtures = s.fixtures ∧ (loopOpens n s).records.late = s.records.late
    ∧ (loopOpens n s).records.wear = s.records.wear ∧ (loopOpens n s).muteAck = s.muteAck := by
  first
  | (simp [loopOpens]; done)
  | (simp only [loopOpens]; (repeat' split) <;> simp_all; done)
  | (unfold loopOpens; simp only []; (repeat' split) <;> simp_all; done)

theorem engineIssues_keeps (s t : State) (h : engineIssues s = some t) : t.pending = s.pending ∧ t.phase = s.phase ∧
    t.cause = s.cause ∧ t.free = s.free ∧ t.link.lines = s.link.lines ∧ t.link.hold = s.link.hold ∧ t.link.held =
    s.link.held ∧ t.link.slot = s.link.slot ∧ t.link.owed = s.link.owed ∧ t.link.tx = s.link.tx ∧ t.link.enabled =
    s.link.enabled ∧ t.link.gap = s.link.gap ∧ t.site = s.site ∧ t.rate = s.rate ∧ t.lock = s.lock ∧ t.store =
    s.store ∧ t.failed = s.failed ∧ t.images = s.images ∧ t.net.ports = s.net.ports ∧ t.net.legs = s.net.legs ∧
    t.net.released = s.net.released ∧ t.net.locked = s.net.locked ∧ t.routes = s.routes ∧ t.engine.mode =
    s.engine.mode ∧ t.engine.applied = s.engine.applied ∧ t.engine.number = s.engine.number ∧ t.engine.mute =
    s.engine.mute ∧ t.engine.muteTimer = s.engine.muteTimer ∧ t.engine.dropHeld = s.engine.dropHeld ∧
    t.engine.waiting = s.engine.waiting ∧ t.engine.holder = s.engine.holder ∧ t.ring = s.ring ∧ t.bus.round =
    s.bus.round ∧ t.bus.pollTimer = s.bus.pollTimer ∧ t.bus.discovery = s.bus.discovery ∧ t.fixtures = s.fixtures ∧
    t.loops = s.loops ∧ t.latch = s.latch ∧ t.records.fault = s.records.fault ∧ t.records.more = s.records.more ∧
    t.records.late = s.records.late ∧ t.muteAck = s.muteAck := by
  unfold engineIssues at h
  split at h
  · cases h; simp
  · split at h
    · simp only [Option.map_eq_some_iff] at h
      obtain ⟨x, -, rfl⟩ := h
      simp
    · split at h
      · split at h
        · simp only [Option.map_eq_some_iff] at h
          obtain ⟨x, -, rfl⟩ := h
          simp
        · cases h
      · cases h

@[simp] theorem grantBus_keeps (s : State) : (grantBus s).pending = s.pending ∧ (grantBus s).phase = s.phase ∧
    (grantBus s).cause = s.cause ∧ (grantBus s).free = s.free ∧ (grantBus s).link.lines = s.link.lines ∧ (grantBus
    s).link.hold = s.link.hold ∧ (grantBus s).link.held = s.link.held ∧ (grantBus s).link.slot = s.link.slot ∧
    (grantBus s).link.owed = s.link.owed ∧ (grantBus s).link.tx = s.link.tx ∧ (grantBus s).link.enabled =
    s.link.enabled ∧ (grantBus s).link.gap = s.link.gap ∧ (grantBus s).site = s.site ∧ (grantBus s).rate = s.rate ∧
    (grantBus s).lock = s.lock ∧ (grantBus s).store = s.store ∧ (grantBus s).failed = s.failed ∧ (grantBus s).images
    = s.images ∧ (grantBus s).net.ports = s.net.ports ∧ (grantBus s).net.legs = s.net.legs ∧ (grantBus
    s).net.released = s.net.released ∧ (grantBus s).net.locked = s.net.locked ∧ (grantBus s).routes = s.routes ∧
    (grantBus s).engine.mode = s.engine.mode ∧ (grantBus s).engine.applied = s.engine.applied ∧ (grantBus
    s).engine.number = s.engine.number ∧ (grantBus s).engine.mute = s.engine.mute ∧ (grantBus s).engine.muteTimer =
    s.engine.muteTimer ∧ (grantBus s).engine.dropHeld = s.engine.dropHeld ∧ (grantBus s).engine.waiting =
    s.engine.waiting ∧ (grantBus s).engine.holder = s.engine.holder ∧ (grantBus s).ring = s.ring ∧ (grantBus
    s).bus.discovery = s.bus.discovery ∧ (grantBus s).fixtures = s.fixtures ∧ (grantBus s).loops = s.loops ∧
    (grantBus s).latch = s.latch ∧ (grantBus s).records.fault = s.records.fault ∧ (grantBus s).records.more =
    s.records.more ∧ (grantBus s).records.late = s.records.late ∧ (grantBus s).muteAck = s.muteAck := by
  unfold grantBus
  split
  · simp
  · split
    · rename_i t h
      have := engineIssues_keeps s t h
      simp [this]
    · (repeat' split) <;> simp

@[simp] theorem settle_keeps (s : State) : (settle s).pending = s.pending ∧ (settle s).phase = s.phase ∧ (settle
    s).cause = s.cause ∧ (settle s).free = s.free ∧ (settle s).link.lines = s.link.lines ∧ (settle s).link.enabled =
    s.link.enabled ∧ (settle s).link.gap = s.link.gap ∧ (settle s).site = s.site ∧ (settle s).rate = s.rate ∧ (settle
    s).lock = s.lock ∧ (settle s).store = s.store ∧ (settle s).failed = s.failed ∧ (settle s).images = s.images ∧
    (settle s).net.ports = s.net.ports ∧ (settle s).net.legs = s.net.legs ∧ (settle s).net.released = s.net.released
    ∧ (settle s).net.locked = s.net.locked ∧ (settle s).routes = s.routes ∧ (settle s).engine.mode = s.engine.mode ∧
    (settle s).engine.applied = s.engine.applied ∧ (settle s).engine.number = s.engine.number ∧ (settle
    s).engine.mute = s.engine.mute ∧ (settle s).engine.muteTimer = s.engine.muteTimer ∧ (settle s).engine.dropHeld =
    s.engine.dropHeld ∧ (settle s).engine.waiting = s.engine.waiting ∧ (settle s).engine.holder = s.engine.holder ∧
    (settle s).ring = s.ring ∧ (settle s).bus.discovery = s.bus.discovery ∧ (settle s).fixtures = s.fixtures ∧
    (settle s).loops = s.loops ∧ (settle s).latch = s.latch ∧ (settle s).records.fault = s.records.fault ∧ (settle
    s).records.more = s.records.more ∧ (settle s).records.late = s.records.late ∧ (settle s).muteAck = s.muteAck := by
  simp [settle]

@[simp] theorem roundPolled_keeps (n : Nat) (p : PollResult) (s : State) :
 (roundPolled n p s).pending = s.pending ∧ (roundPolled n p s).phase = s.phase ∧ (roundPolled n p s).cause = s.cause
    ∧ (roundPolled n p s).link.lines = s.link.lines ∧ (roundPolled n p s).link.owed = s.link.owed ∧ (roundPolled n p
    s).link.tx = s.link.tx ∧ (roundPolled n p s).link.enabled = s.link.enabled ∧ (roundPolled n p s).site = s.site ∧
    (roundPolled n p s).rate = s.rate ∧ (roundPolled n p s).lock = s.lock ∧ (roundPolled n p s).failed = s.failed ∧
    (roundPolled n p s).net.ports = s.net.ports ∧ (roundPolled n p s).net.legs = s.net.legs ∧ (roundPolled n p
    s).net.released = s.net.released ∧ (roundPolled n p s).net.locked = s.net.locked ∧ (roundPolled n p s).ring.steps
    = s.ring.steps ∧ (roundPolled n p s).ring.len = s.ring.len ∧ (roundPolled n p s).fixtures = s.fixtures ∧
    (roundPolled n p s).loops = s.loops ∧ (roundPolled n p s).records.late = s.records.late ∧ (roundPolled n p
    s).records.wear = s.records.wear ∧ (roundPolled n p s).muteAck = s.muteAck ∧ (roundPolled n p s).bus = s.bus := by
  unfold roundPolled
  first | (simp only []; split <;> simp; done) | (split <;> first | (simp; done) | (simp only []; (repeat' split) <;>
    simp))

@[simp] theorem pollDone_keeps (p : PollResult) (s : State) :
 (pollDone p s).pending = s.pending ∧ (pollDone p s).phase = s.phase ∧ (pollDone p s).cause = s.cause ∧ (pollDone p
    s).link.lines = s.link.lines ∧ (pollDone p s).link.owed = s.link.owed ∧ (pollDone p s).link.tx = s.link.tx ∧
    (pollDone p s).link.enabled = s.link.enabled ∧ (pollDone p s).site = s.site ∧ (pollDone p s).rate = s.rate ∧
    (pollDone p s).lock = s.lock ∧ (pollDone p s).failed = s.failed ∧ (pollDone p s).net.ports = s.net.ports ∧
    (pollDone p s).net.legs = s.net.legs ∧ (pollDone p s).net.released = s.net.released ∧ (pollDone p s).net.locked =
    s.net.locked ∧ (pollDone p s).ring.steps = s.ring.steps ∧ (pollDone p s).ring.len = s.ring.len ∧ (pollDone p
    s).fixtures = s.fixtures ∧ (pollDone p s).loops = s.loops ∧ (pollDone p s).records.late = s.records.late ∧
    (pollDone p s).records.wear = s.records.wear ∧ (pollDone p s).muteAck = s.muteAck := by
  unfold pollDone
  first | (simp only []; split <;> simp; done) | (split <;> first | (simp; done) | (simp only []; (repeat' split) <;>
    simp))

@[simp] theorem noAnswer_keeps (s : State) :
 (noAnswer s).pending = s.pending ∧ (noAnswer s).phase = s.phase ∧ (noAnswer s).cause = s.cause ∧ (noAnswer
    s).link.lines = s.link.lines ∧ (noAnswer s).link.owed = s.link.owed ∧ (noAnswer s).link.tx = s.link.tx ∧
    (noAnswer s).link.enabled = s.link.enabled ∧ (noAnswer s).site = s.site ∧ (noAnswer s).rate = s.rate ∧ (noAnswer
    s).lock = s.lock ∧ (noAnswer s).failed = s.failed ∧ (noAnswer s).net.ports = s.net.ports ∧ (noAnswer s).net.legs
    = s.net.legs ∧ (noAnswer s).net.released = s.net.released ∧ (noAnswer s).net.locked = s.net.locked ∧ (noAnswer
    s).ring.steps = s.ring.steps ∧ (noAnswer s).ring.len = s.ring.len ∧ (noAnswer s).fixtures = s.fixtures ∧
    (noAnswer s).loops = s.loops ∧ (noAnswer s).records.late = s.records.late ∧ (noAnswer s).records.wear =
    s.records.wear ∧ (noAnswer s).muteAck = s.muteAck := by
  unfold noAnswer
  first | (simp only []; split <;> simp; done) | (split <;> first | (simp; done) | (simp only []; (repeat' split) <;>
    simp))

end Sys2Proof.Laws
end

