-- ==== Sys2Proof/Laws/Table.lean ====
section
/-! SUPPORT. The laws of tables and banks: a read after a write, and that every operation keeps the canonical form. -/

namespace Sys2Proof.Machine

variable {α β : Type}

/-! ### Read after write -/

theorem tget_tput_same (t : Table α) (k : Nat) (v : α) : tget (tput t k v) k = some v := by
  induction t with
  | nil => simp [tput, tget]
  | cons p t ih =>
    obtain ⟨j, w⟩ := p
    unfold tput
    split
    · simp [tget]
    · split
      · simp [tget]
      · rename_i h; simp [tget, Ne.symm h, ih]

theorem tget_tput_other (t : Table α) (k j : Nat) (v : α) (h : j ≠ k) : tget (tput t k v) j = tget t j := by
  induction t with
  | nil => simp [tput, tget, Ne.symm h]
  | cons p t ih =>
    obtain ⟨i, w⟩ := p
    unfold tput
    split
    · simp [tget, Ne.symm h]
    · split
      · rename_i hk; subst hk; simp [tget, Ne.symm h]
      · simp [tget, ih]

theorem tget_tput (t : Table α) (k j : Nat) (v : α) :
    tget (tput t k v) j = if j = k then some v else tget t j := by
  split
  · rename_i h; subst h; exact tget_tput_same t j v
  · rename_i h; exact tget_tput_other t k j v h

theorem tget_tdel_other (t : Table α) (k j : Nat) (h : j ≠ k) : tget (tdel t k) j = tget t j := by
  induction t with
  | nil => rfl
  | cons p t ih =>
    obtain ⟨i, w⟩ := p
    unfold tdel
    split
    · rename_i hk; subst hk; simp [tget, Ne.symm h]
    · simp [tget, ih]

theorem tget_tmap (f : Nat → α → β) (t : Table α) (k : Nat) : tget (tmap f t) k = (tget t k).map (f k) := by
  induction t with
  | nil => rfl
  | cons p t ih =>
    obtain ⟨i, w⟩ := p
    simp only [tmap, List.map_cons, tget] at *
    split
    · rename_i h; subst h; rfl
    · exact ih

theorem mem_of_tget {t : Table α} {k : Nat} {v : α} (h : tget t k = some v) : (k, v) ∈ t := by
  induction t with
  | nil => cases h
  | cons p t ih =>
    obtain ⟨i, w⟩ := p
    unfold tget at h
    split at h
    · rename_i hk; subst hk; cases h; exact List.mem_cons_self
    · exact List.mem_cons_of_mem _ (ih h)

/-! ### The canonical form -/

theorem tableWf_iff (t : Table α) : tableWf t = true ↔ t.Pairwise fun p q => p.1 < q.1 := by
  induction t with
  | nil => simp [tableWf]
  | cons p t ih =>
    obtain ⟨i, w⟩ := p
    cases t with
    | nil => simp [tableWf]
    | cons q t =>
      obtain ⟨j, x⟩ := q
      simp only [tableWf, Bool.and_eq_true, decide_eq_true_eq, ih, List.pairwise_cons, List.mem_cons]
      constructor
      · rintro ⟨h, h1, h2⟩
        refine ⟨?_, h1, h2⟩
        rintro a (rfl | ha)
        · exact h
        · exact Nat.lt_trans h (h1 a ha)
      · rintro ⟨h, h1, h2⟩
        exact ⟨h _ (Or.inl rfl), h1, h2⟩

theorem tget_of_mem {t : Table α} {k : Nat} {v : α} (w : tableWf t = true) (h : (k, v) ∈ t) : tget t k = some v := by
  rw [tableWf_iff] at w
  induction t with
  | nil => cases h
  | cons p t ih =>
    obtain ⟨i, x⟩ := p
    rw [List.pairwise_cons] at w
    unfold tget
    rcases List.mem_cons.mp h with h | h
    · cases h; simp
    · have := w.1 _ h
      rw [if_neg (by simp only at this; omega)]
      exact ih w.2 h

theorem tget_none_of_lt {t : Table α} {k : Nat} (h : ∀ p ∈ t, k < p.1) : tget t k = none := by
  induction t with
  | nil => rfl
  | cons p t ih =>
    obtain ⟨i, w⟩ := p
    have h1 := h (i, w) List.mem_cons_self
    simp only at h1
    unfold tget
    rw [if_neg (by omega)]
    exact ih fun q hq => h q (List.mem_cons_of_mem _ hq)

theorem tget_tdel_same {t : Table α} (k : Nat) (w : tableWf t = true) : tget (tdel t k) k = none := by
  rw [tableWf_iff] at w
  induction t with
  | nil => rfl
  | cons p t ih =>
    obtain ⟨i, x⟩ := p
    rw [List.pairwise_cons] at w
    unfold tdel
    split
    · rename_i h; subst h; exact tget_none_of_lt w.1
    · rename_i h; simp only [tget, if_neg h]; exact ih w.2

theorem tget_tdel {t : Table α} (k j : Nat) (w : tableWf t = true) :
    tget (tdel t k) j = if j = k then none else tget t j := by
  split
  · rename_i h; subst h; exact tget_tdel_same j w
  · rename_i h; exact tget_tdel_other t k j h

theorem mem_tput {t : Table α} {k : Nat} {v : α} {p : Nat × α} (h : p ∈ tput t k v) : p = (k, v) ∨ p ∈ t := by
  induction t with
  | nil => simp [tput] at h; exact Or.inl h
  | cons q t ih =>
    obtain ⟨i, w⟩ := q
    unfold tput at h
    split at h
    · rcases List.mem_cons.mp h with h | h
      · exact Or.inl h
      · exact Or.inr h
    · split at h
      · rcases List.mem_cons.mp h with h | h
        · exact Or.inl h
        · exact Or.inr (List.mem_cons_of_mem _ h)
      · rcases List.mem_cons.mp h with h | h
        · exact Or.inr (h ▸ List.mem_cons_self)
        · rcases ih h with h | h
          · exact Or.inl h
          · exact Or.inr (List.mem_cons_of_mem _ h)

theorem tdel_sublist (t : Table α) (k : Nat) : (tdel t k).Sublist t := by
  induction t with
  | nil => exact List.Sublist.refl _
  | cons q t ih =>
    obtain ⟨i, w⟩ := q
    unfold tdel
    split
    · exact List.sublist_cons_self _ _
    · exact ih.cons_cons _

theorem tableWf_tput {t : Table α} (k : Nat) (v : α) (w : tableWf t = true) : tableWf (tput t k v) = true := by
  rw [tableWf_iff] at w ⊢
  induction t with
  | nil => simp [tput]
  | cons q t ih =>
    obtain ⟨i, x⟩ := q
    have w' := List.pairwise_cons.mp w
    unfold tput
    split
    · rename_i h
      refine List.pairwise_cons.mpr ⟨?_, w⟩
      intro p hp
      rcases List.mem_cons.mp hp with rfl | hp
      · exact h
      · exact Nat.lt_trans h (w'.1 p hp)
    · split
      · rename_i h; subst h; exact List.pairwise_cons.mpr ⟨w'.1, w'.2⟩
      · refine List.pairwise_cons.mpr ⟨?_, ih w'.2⟩
        intro p hp
        rcases mem_tput hp with rfl | hp
        · simp only; omega
        · exact w'.1 p hp

theorem tableWf_sublist {t u : Table α} (h : u.Sublist t) (w : tableWf t = true) : tableWf u = true := by
  rw [tableWf_iff] at w ⊢
  exact List.Pairwise.sublist h w

theorem tableWf_tdel {t : Table α} (k : Nat) (w : tableWf t = true) : tableWf (tdel t k) = true :=
  tableWf_sublist (tdel_sublist t k) w

theorem tableWf_tmap (f : Nat → α → β) {t : Table α} (w : tableWf t = true) : tableWf (tmap f t) = true := by
  rw [tableWf_iff] at w ⊢
  exact List.pairwise_map.mpr w

theorem tableWf_bput [DecidableEq α] (d : α) {t : Table α} (k : Nat) (v : α) (w : tableWf t = true) :
    tableWf (bput d t k v) = true := by
  unfold bput
  split
  · exact tableWf_tdel k w
  · exact tableWf_tput k v w

theorem tableWf_bmap [DecidableEq α] (d : α) (f : α → α) {t : Table α} (w : tableWf t = true) :
    tableWf (bmap d f t) = true :=
  tableWf_sublist List.filter_sublist (tableWf_tmap (fun _ x => f x) w)

/-! ### Banks -/

theorem bget_bput_same [DecidableEq α] (d : α) {t : Table α} (k : Nat) (v : α) (w : tableWf t = true) :
    bget d (bput d t k v) k = v := by
  unfold bget bput
  split
  · rename_i h; subst h; simp [tget_tdel_same k w]
  · simp [tget_tput_same]

theorem bget_bput_other [DecidableEq α] (d : α) (t : Table α) (k j : Nat) (v : α) (h : j ≠ k) :
    bget d (bput d t k v) j = bget d t j := by
  unfold bget bput
  split
  · rw [tget_tdel_other t k j h]
  · rw [tget_tput_other t k j v h]

end Sys2Proof.Machine
end

