-- ==== Sys2Proof/Laws/Ops.lean ====
section
/-! SUPPORT. What each shared operation does, said once: commands and events, replies and notices, records read after
they are written, routes that enter and leave, legs, and the engine between events. Proofs cite these and unfold no
operation. What an operation leaves alone stands in Frames.lean. -/

namespace Sys2Proof.Laws

open Sys2Proof.Machine

/-! ### Commands and events -/

/-- Taking a line leaves everything but the line queue, in a running part that nothing holds. -/
theorem lineFor_spec {i : Instr} {s u : State} (h : lineFor i s = some u) :
    u = s.setLink { s.link with lines := u.link.lines } ∧ (∃ l, s.link.lines = l ++ u.link.lines ∧ l.length ≤ 1)
    ∧ s.phase = .running ∧ s.link.hold = none ∧ s.link.held = none := by
  unfold lineFor at h
  split at h
  · contradiction
  · rename_i c
    simp [canTake] at c
    split at h
    · rename_i e
      have := Option.some.inj h
      subst this
      exact ⟨rfl, ⟨[], by simp⟩, c.1.1, c.1.2, c.2⟩
    · rename_i l rest e
      split at h
      · have := Option.some.inj h
        subst this
        exact ⟨rfl, ⟨[l], by simp [e]⟩, c.1.1, c.1.2, c.2⟩
      · contradiction

/-- A command taken with its operands in range acts and settles. -/
theorem command_of_takes {i : Instr} {s u : State} (h : Takes i s u) (plus : Bool) (f : State → State) :
    command i plus f s = .next (settle (f u)) := by
  simp [command, h.1, h.2]

/-- The four things a command can do: no line of it is taken, the decoder answers a long line or an operand, or its
owner acts. -/
theorem command_cases (i : Instr) (plus : Bool) (f : State → State) (s : State) :
    command i plus f s = .next s
    ∨ (∃ u, lineFor i s = some u ∧ fitsLine i = false
        ∧ command i plus f s = .next (replied false (erWith .syntaxErr (.word "LONG")) u))
    ∨ (∃ u e, lineFor i s = some u ∧ fitsLine i = true ∧ operandCheck i = some e
        ∧ command i plus f s = .next (replied plus (er e) u))
    ∨ ∃ u, Takes i s u ∧ command i plus f s = .next (settle (f u)) := by
  unfold command
  cases h : lineFor i s with
  | none => exact .inl rfl
  | some u =>
    cases w : fitsLine i with
    | false => exact .inr (.inl ⟨u, rfl, rfl, by simp [replied]⟩)
    | true =>
      cases e : operandCheck i with
      | none => exact .inr (.inr (.inr ⟨u, ⟨h, w, e⟩, by simp⟩))
      | some x => exact .inr (.inr (.inl ⟨u, x, rfl, rfl, rfl, by simp [replied]⟩))

/-- An event whose operands name what the part has acts and settles; otherwise it stops. -/
theorem event_cases (i : Instr) (f : State → State) (s : State) :
    (eventCheck i = none ∧ event i f s = .next (settle (f s))) ∨ ∃ x, eventCheck i = some x ∧ event i f s = .fault x := by
  unfold event
  cases h : eventCheck i with
  | none => exact .inl ⟨rfl, rfl⟩
  | some x => exact .inr ⟨x, rfl, rfl⟩

/-! ### Replies and notices -/

/-- A reply is placed in the slot or held, and touches the link alone. -/
theorem answer_spec (plus : Bool) (r : Reply) (s : State) :
    answer plus r s = s.setLink (answer plus r s).link
    ∧ ((s.link.slot = none ∧ ∃ o, (answer plus r s).link = { s.link with slot := some o })
      ∨ (s.link.slot ≠ none ∧ ∃ o, (answer plus r s).link = { s.link with held := some o })) := by
  unfold answer placeReply
  cases h : s.link.slot with
  | none => exact ⟨rfl, .inl ⟨rfl, _, rfl⟩⟩
  | some o => exact ⟨rfl, .inr ⟨by simp, _, rfl⟩⟩

/-- A notice handed to the Command Port touches the notice queue and lost-pending alone, and adds at most itself. -/
theorem notify_spec (n : Notice) (s : State) :
    notify n s = s.setLink (notify n s).link
    ∧ ((notify n s).link = s.link
      ∨ ((notify n s).link = { s.link with notices := s.link.notices ++ [n] } ∧ s.link.notices.length < 32)
      ∨ ((notify n s).link = { s.link with lost := true } ∧ 32 ≤ s.link.notices.length)) := by
  unfold notify
  split
  · unfold enqueue
    split
    · rename_i h; exact ⟨rfl, .inr (.inl ⟨rfl, h⟩)⟩
    · rename_i h; exact ⟨rfl, .inr (.inr ⟨rfl, Nat.le_of_not_lt h⟩)⟩
  · exact ⟨rfl, .inl rfl⟩

/-- What a notice does to the link follows from the link alone. -/
theorem notify_link {n : Notice} {s t : State} (h : s.link = t.link) : (notify n s).link = (notify n t).link := by
  unfold notify enqueue
  rw [h]
  split
  · split <;> rfl
  · exact h

/-- The end of an operation touches what a SYNC waits for and nothing else. -/
theorem opEnded_spec (o : Op) (s : State) :
    opEnded o s = s.setLink { s.link with hold := (opEnded o s).link.hold } := by
  unfold opEnded
  split <;> rfl

/-! ### Records read after they are written -/

/-- An element read after one was written. -/
theorem elemAt_setElem (e f : Nat) (x : Elem) (s : State) :
    elemAt (setElem e x s) f = if f = e then some x else elemAt s f := tget_tput _ _ _ _

/-- An element read after one was rewritten. -/
theorem elemAt_updElem (e f : Nat) (g : Elem → Elem) (s : State) :
    elemAt (updElem e g s) f = if f = e then (elemAt s e).map g else elemAt s f := by
  unfold updElem
  split
  · rename_i x h; rw [elemAt_setElem, h]; rfl
  · rename_i h
    split
    · rename_i hf; rw [hf, h]; rfl
    · rfl

/-- A card read after one was written. -/
theorem cardAt_setCard {s : State} (w : tableWf s.cards = true) (n m : Nat) (c : Card) :
    cardAt (setCard n c s) m = if m = n then c else cardAt s m := by
  split
  · rename_i h; subst h; exact bget_bput_same _ _ _ w
  · rename_i h; exact bget_bput_other _ _ _ _ _ h

/-- A fixture read after one was written. -/
theorem fixtureAt_setFixture {s : State} (w : tableWf s.fixtures = true) (n m : Nat) (f : Fixture) :
    fixtureAt (setFixture n f s) m = if m = n then f else fixtureAt s m := by
  split
  · rename_i h; subst h; exact bget_bput_same _ _ _ w
  · rename_i h; exact bget_bput_other _ _ _ _ _ h

/-- A loop read after one was written. -/
theorem loopAt_setLoop {s : State} (w : tableWf s.loops = true) (n m : Nat) (l : Loop) :
    loopAt (setLoop n l s) m = if m = n then l else loopAt s m := by
  split
  · rename_i h; subst h; exact bget_bput_same _ _ _ w
  · rename_i h; exact bget_bput_other _ _ _ _ _ h

/-- Every record of a bank rewritten by a function that fixes the default, read back. -/
theorem bget_bmap {α : Type} [DecidableEq α] (d : α) (f : α → α) (hf : f d = d) {t : Table α} (w : tableWf t = true)
    (k : Nat) : bget d (bmap d f t) k = f (bget d t k) := by
  have wm : tableWf (bmap d f t) = true := tableWf_bmap d f w
  unfold bget
  cases h : tget t k with
  | none =>
    cases g : tget (bmap d f t) k with
    | none => simp [hf]
    | some v =>
      have m := mem_of_tget g
      simp only [bmap, List.mem_filter, List.mem_map] at m
      obtain ⟨⟨p, hp, e⟩, -⟩ := m
      have : (k, p.2) ∈ t := by
        have : p.1 = k := congrArg Prod.fst e
        rw [← this]; exact hp
      rw [tget_of_mem w this] at h
      contradiction
  | some v =>
    by_cases e : f v = d
    · cases g : tget (bmap d f t) k with
      | none => simp [e]
      | some u =>
        have m := mem_of_tget g
        simp only [bmap, List.mem_filter, List.mem_map, decide_eq_true_eq] at m
        obtain ⟨⟨p, hp, ep⟩, ne⟩ := m
        have hk : p.1 = k := congrArg Prod.fst ep
        have hu : f p.2 = u := congrArg Prod.snd ep
        have : (k, p.2) ∈ t := by rw [← hk]; exact hp
        rw [tget_of_mem w this] at h
        rw [Option.some.inj h, e] at hu
        exact absurd hu.symm ne
    · have : (k, f v) ∈ bmap d f t := by
        simp only [bmap, List.mem_filter, List.mem_map, decide_eq_true_eq]
        exact ⟨⟨(k, v), mem_of_tget h, rfl⟩, e⟩
      rw [tget_of_mem wm this]
      rfl

/-! ### Routes that enter and leave (R74 to R76) -/

/-- A route that enters: the applied set and the record. -/
theorem routeEnter_eq (n r : Nat) (s : State) :
    routeEnter n r s = match routeAt s r with
      | some x => (withApplied (insertNat r s.engine.applied) s).setRoutes
          (tput s.routes r { x with state := .applied, last := some n, pending := false })
      | none => withApplied (insertNat r s.engine.applied) s := rfl

/-- A route that leaves: the applied set, and the record by its state. -/
theorem routeLeave_eq (r : Nat) (s : State) :
    routeLeave r s =
      let u := withApplied (s.engine.applied.erase r) s
      match routeAt s r with
      | some x => match x.state with
        | .applied => u.setRoutes (tput s.routes r { x with state := .ready })
        | .retiring => notify (.retire r) (u.setRoutes (tdel s.routes r))
        | _ => u
      | none => u := rfl

/-- The route table after a route enters. -/
theorem routeAt_routeEnter (n r q : Nat) (s : State) :
    routeAt (routeEnter n r s) q =
      if q = r then (routeAt s r).map fun x => { x with state := .applied, last := some n, pending := false }
      else routeAt s q := by
  rw [routeEnter_eq]
  cases h : routeAt s r with
  | none =>
    by_cases e : q = r
    · rw [if_pos e, e]; exact h
    · rw [if_neg e]; rfl
  | some x => exact tget_tput _ _ _ _

/-- The route table after a torn cause is written. -/
theorem routeAt_tornCause (c : TearCause) (r q : Nat) (s : State) :
    routeAt (tornCause c r s) q = if q = r then (routeAt s r).map fun x => { x with torn := some c } else routeAt s q := by
  unfold tornCause
  cases h : routeAt s r with
  | none =>
    by_cases e : q = r
    · rw [if_pos e, e]; exact h
    · rw [if_neg e]
  | some x => exact tget_tput _ _ _ _

/-- The applied set loses a route that leaves, whatever its record. -/
theorem applied_routeLeave (r : Nat) (s : State) : (routeLeave r s).engine.applied = s.engine.applied.erase r := by
  rw [routeLeave_eq]
  cases routeAt s r with
  | none => rfl
  | some x => cases h : x.state <;> simp [h, withApplied]

/-- The route table after a route leaves: an APPLIED route READY, a RETIRING one gone, others as they were. -/
theorem routeAt_routeLeave {s : State} (w : tableWf s.routes = true) (r q : Nat) :
    routeAt (routeLeave r s) q =
      if q = r then (routeAt s r).bind fun x =>
        match x.state with | .applied => some { x with state := .ready } | .retiring => none | _ => some x
      else routeAt s q := by
  rw [routeLeave_eq]
  cases h : routeAt s r with
  | none =>
    by_cases e : q = r
    · rw [if_pos e, e]; exact h
    · rw [if_neg e]; rfl
  | some x =>
    have same : routeAt s q = if q = r then some x else routeAt s q := by
      split
      · rename_i e; subst e; exact h
      · rfl
    cases k : x.state with
    | applied => simp only [k, Option.bind_some]; exact tget_tput _ _ _ _
    | retiring =>
      simp only [k, Option.bind_some]
      rw [(notify_spec _ _).1]
      exact tget_tdel _ _ w
    | ready => simp only [k, Option.bind_some]; exact same
    | stale => simp only [k, Option.bind_some]; exact same

/-- The route table after a notice of edit. -/
theorem routeAt_noticeOfEdit (n : Edit) (s : State) (r : Nat) :
    routeAt (noticeOfEdit n s) r =
      (routeAt s r).map fun x => if x.state == .ready && editReaches n x then { x with state := .stale } else x := by
  unfold noticeOfEdit routeAt
  rw [State.setRoutes_routes, tget_tmap]

/-! ### Legs (R32) -/

/-- The far end of a terminal, over a list of legs read from its head. -/
theorem partner_cons {s t : State} {x y : Terminal} (h : s.net.legs = (x, y) :: t.net.legs) (a : Terminal) :
    partner s a = if x = a then some y else if y = a then some x else partner t a := by
  unfold partner
  rw [h, List.find?_cons]
  by_cases hx : x = a
  · simp [hx]
  · by_cases hy : y = a
    · simp [hx, hy]
    · have : (x == a || y == a) = false := by simp [hx, hy]
      simp only [this, hx, hy, if_false]

/-- A terminal has no leg exactly when no leg of the table ends on it. -/
theorem partner_eq_none (s : State) (a : Terminal) : partner s a = none ↔ ∀ l ∈ s.net.legs, l.1 ≠ a ∧ l.2 ≠ a := by
  unfold partner
  split
  · rename_i x y h
    have hm := List.mem_of_find?_eq_some h
    have := List.find?_some h
    simp at this
    constructor
    · intro h; contradiction
    · intro k
      have := k _ hm
      rcases ‹x = a ∨ y = a› with e | e
      · exact absurd e this.1
      · exact absurd e this.2
  · rename_i h
    simp at h
    constructor
    · intro _ l hl; exact h l.1 l.2 hl
    · intro _; rfl

/-- A cut terminal has no leg. -/
theorem partner_cutLeg_self (a : Terminal) (s : State) : partner (cutLeg a s) a = none := by
  rw [partner_eq_none]
  intro l hl
  simp [cutLeg] at hl
  exact hl.2

/-- A leg that a cut does not touch stays. -/
theorem cutLeg_mem (a : Terminal) (s : State) (l : Terminal × Terminal) :
    l ∈ (cutLeg a s).net.legs ↔ l ∈ s.net.legs ∧ l.1 ≠ a ∧ l.2 ≠ a := by
  simp [cutLeg]

/-! ### The engine between events -/

/-- The engine set to the state it is in stays as it is. -/
theorem setMode_self {m : Mode} {s : State} (h : s.engine.mode = m) : setMode m s = s := by
  subst h; rfl

/-- No held DROP is taken unless one is held and the engine is IDLE. -/
theorem takeHeldDrop_idle {s : State} (h : s.engine.dropHeld = true → s.engine.mode ≠ .idle) : takeHeldDrop s = s := by
  unfold takeHeldDrop
  rw [if_neg]
  simpa using h

/-- With no held DROP to take and nothing asked, nothing follows. -/
theorem followUp_nothing {s : State} (h : s.engine.dropHeld = true → s.engine.mode ≠ .idle) :
    followUp rounds (s, .nothing) = s := takeHeldDrop_idle h

/-- With no held DROP to take, what the ring asks for staging reaches the engine. -/
theorem followUp_stage {s : State} (h : s.engine.dropHeld = true → s.engine.mode ≠ .idle) :
    followUp rounds (s, .stage) = stageNext s := by
  show stageNext (takeHeldDrop s) = _
  rw [takeHeldDrop_idle h]

/-- While drives of a phase go on, nothing follows from the end of another. -/
theorem advanceAll_busy {s : State} (h : s.engine.mode = .breaking ∨ s.engine.mode = .making)
    (a : s.engine.active ≠ []) : advanceAll s = s := by
  have e : advance s = (s, .nothing) := by
    rcases h with h | h <;> simp [advance, h, phaseAdvance] <;> split <;> simp_all
  rw [advanceAll, e, followUp_nothing]
  intro _
  rcases h with h | h <;> simp [h]

/-- In IDLE and MUTING the engine has no operation to look at. -/
theorem advance_still {s : State} (h : s.engine.mode = .idle ∨ s.engine.mode = .muting) : advance s = (s, .nothing) := by
  rcases h with h | h <;> simp [advance, h]

/-- A request taken in IDLE is checked at once: refused, or accepted and planned. -/
theorem takeRequest_idle {q : Request} {s : State} (h : s.engine.mode = .idle) (n : q.origin ≠ .step) :
    takeRequest q s = match checkSet s q with
      | some f => (s, .refused f)
      | none => (accept q s, .accepted) := by
  cases e : checkSet s q <;> simp [takeRequest, h, decideRequest, setMode_self h, n, e]

/-- No note and no stop tears a route at a transition's end. -/
theorem appliedTears_nil {s : State} {t : Trans} (h : t.notedElems = []) (k : t.notedFixtures = []) :
    appliedTears s t = [] := by
  unfold appliedTears
  rw [List.filterMap_eq_nil_iff]
  intro r _
  split
  · simp [notedTear, h, k, claimsAny, endsOnAny]
  · rfl

/-- The routes of the target set that a transition tears: none without a note, a fault, or a HOT or PERMIT stop. -/
theorem targetTears_nil {s : State} {t : Trans} (h : t.notedElems = []) (k : t.notedFixtures = [])
    (f : t.faultedElems = []) (a : t.stop ≠ some .hot) (b : t.stop ≠ some .permit) (l : List Nat) :
    targetTears s t l = [] := by
  unfold targetTears
  rw [List.filterMap_eq_nil_iff]
  intro r _
  split
  · simp [notedTear, h, k, f, claimsAny, endsOnAny] <;> (split <;> simp_all)
  · rfl

/-- The drive issued to an element is one of those in progress, and is its own. -/
theorem driveOf_spec {s : State} {e : Nat} {d : Drive} (h : driveOf s e = some d) :
    d ∈ s.engine.active ∧ d.elem = e := by
  have := List.find?_some h
  exact ⟨List.mem_of_find?_eq_some h, by simpa using this⟩

end Sys2Proof.Laws
end

