-- ==== Sys2Proof/Laws/PerInstr.lean ====
section
/-! SUPPORT. One lemma per command: no row of the opcode table is both a command line and an event. -/

namespace Sys2Proof.Laws

/-- A row is a command line, whose operands the decoder checks and which names no unit outside the part, or an event,
which the decoder never refuses: at most one of the two checks of `Instr.wf` applies to it. -/
def Split.Statement (i : Instr) : Prop := Machine.operandCheck i = none ∨ Machine.eventCheck i = none

theorem Split.powerOn : Split.Statement (.powerOn) := Or.inr rfl
theorem Split.resetNAsserted : Split.Statement (.resetNAsserted) := Or.inr rfl
theorem Split.reset (plus : Bool) : Split.Statement (.reset plus) := Or.inr rfl
theorem Split.resetEnd : Split.Statement (.resetEnd) := Or.inr rfl
theorem Split.discoveryEnd : Split.Statement (.discoveryEnd) := Or.inr rfl
theorem Split.lineReceived (chars : List Byte) (framingError : Bool) : Split.Statement (.lineReceived chars framingError) := Or.inl rfl
theorem Split.syntaxRefusal : Split.Statement (.syntaxRefusal) := Or.inr rfl
theorem Split.lineSent : Split.Statement (.lineSent) := Or.inr rfl
theorem Split.noteGapExpiry : Split.Statement (.noteGapExpiry) := Or.inr rfl
theorem Split.note (plus : Bool) (change : Option (NoteSel × Nat)) : Split.Statement (.note plus change) := Or.inr rfl
theorem Split.stat (plus : Bool) : Split.Statement (.stat plus) := Or.inr rfl
theorem Split.sync (plus : Bool) : Split.Statement (.sync plus) := Or.inr rfl
theorem Split.site (plus : Bool) (name : Setting) (value : Option SettingValue) : Split.Statement (.site plus name value) := Or.inr rfl
theorem Split.sitesave (plus : Bool) : Split.Statement (.sitesave plus) := Or.inr rfl
theorem Split.wipe (plus : Bool) : Split.Statement (.wipe plus) := Or.inr rfl
theorem Split.storeWriteEnd (result : WriteResult) : Split.Statement (.storeWriteEnd result) := Or.inl rfl
theorem Split.elem (plus : Bool) (e : Nat) (kind : ElemKind) (n card slot pulse settle guard life : Nat) : Split.Statement (.elem plus e kind n card slot pulse settle guard life) := Or.inr rfl
theorem Split.elemdel (plus : Bool) (e : Nat) : Split.Statement (.elemdel plus e) := Or.inr rfl
theorem Split.port (plus : Bool) (p : Nat) (cls : PortClass) (fixture : Option Nat) : Split.Statement (.port plus p cls fixture) := Or.inr rfl
theorem Split.portdel (plus : Bool) (p : Nat) : Split.Statement (.portdel plus p) := Or.inr rfl
theorem Split.leg (plus : Bool) (a b : Terminal) : Split.Statement (.leg plus a b) := Or.inr rfl
theorem Split.legCut (plus : Bool) (a : Terminal) : Split.Statement (.legCut plus a) := Or.inr rfl
theorem Split.elemQuery (plus : Bool) (e : Nat) : Split.Statement (.elemQuery plus e) := Or.inr rfl
theorem Split.portQuery (plus : Bool) (p : Nat) : Split.Statement (.portQuery plus p) := Or.inr rfl
theorem Split.legQuery (plus : Bool) (a : Terminal) : Split.Statement (.legQuery plus a) := Or.inr rfl
theorem Split.netQuery (plus : Bool) : Split.Statement (.netQuery plus) := Or.inr rfl
theorem Split.ecal (plus : Bool) (e k : Nat) (slot : Option Nat) : Split.Statement (.ecal plus e k slot) := Or.inr rfl
theorem Split.pcal (plus : Bool) (p : Nat) (slot : Option Nat) : Split.Statement (.pcal plus p slot) := Or.inr rfl
theorem Split.rel (plus : Bool) (e : Nat) : Split.Statement (.rel plus e) := Or.inr rfl
theorem Split.unrel (plus : Bool) (e : Nat) : Split.Statement (.unrel plus e) := Or.inr rfl
theorem Split.relQuery (plus : Bool) : Split.Statement (.relQuery plus) := Or.inr rfl
theorem Split.lock (plus : Bool) : Split.Statement (.lock plus) := Or.inr rfl
theorem Split.unlock (plus : Bool) : Split.Statement (.unlock plus) := Or.inr rfl
theorem Split.curve (plus : Bool) (c : Nat) (points : List (Nat × Int)) : Split.Statement (.curve plus c points) := Or.inr rfl
theorem Split.curvedel (plus : Bool) (c : Nat) : Split.Statement (.curvedel plus c) := Or.inr rfl
theorem Split.curveQuery (plus : Bool) (c : Nat) : Split.Statement (.curveQuery plus c) := Or.inr rfl
theorem Split.loss (plus : Bool) (r f : Nat) : Split.Statement (.loss plus r f) := Or.inr rfl
theorem Split.lossParts (plus : Bool) (r f : Nat) : Split.Statement (.lossParts plus r f) := Or.inr rfl
theorem Split.bal (plus : Bool) (limit : Option Nat) : Split.Statement (.bal plus limit) := Or.inr rfl
theorem Split.route (plus : Bool) (r src dst : Nat) (hops : List (Nat × Nat)) : Split.Statement (.route plus r src dst hops) := Or.inr rfl
theorem Split.find (plus : Bool) (r src dst : Nat) (guarded : Bool) : Split.Statement (.find plus r src dst guarded) := Or.inr rfl
theorem Split.routedel (plus : Bool) (r : Nat) : Split.Statement (.routedel plus r) := Or.inr rfl
theorem Split.routeQuery (plus : Bool) (r : Nat) : Split.Statement (.routeQuery plus r) := Or.inr rfl
theorem Split.routesQuery (plus : Bool) (state : Option RouteStateName) : Split.Statement (.routesQuery plus state) := Or.inr rfl
theorem Split.go (plus : Bool) (ids : List Nat) : Split.Statement (.go plus ids) := Or.inr rfl
theorem Split.muteAckAsserted : Split.Statement (.muteAckAsserted) := Or.inr rfl
theorem Split.muteAckDeasserted : Split.Statement (.muteAckDeasserted) := Or.inr rfl
theorem Split.muteWaitExpiry : Split.Statement (.muteWaitExpiry) := Or.inr rfl
theorem Split.driveAcknowledged : Split.Statement (.driveAcknowledged) := Or.inr rfl
theorem Split.cardNoAnswer : Split.Statement (.cardNoAnswer) := Or.inr rfl
theorem Split.pulseEnd (e : Nat) : Split.Statement (.pulseEnd e) := Or.inl rfl
theorem Split.settleEnd (e : Nat) : Split.Statement (.settleEnd e) := Or.inl rfl
theorem Split.senseResult (indicated : Option Nat) : Split.Statement (.senseResult indicated) := Or.inr rfl
theorem Split.retryDelayExpiry (e : Nat) : Split.Statement (.retryDelayExpiry e) := Or.inl rfl
theorem Split.halt (plus : Bool) : Split.Statement (.halt plus) := Or.inr rfl
theorem Split.survey (plus : Bool) : Split.Statement (.survey plus) := Or.inr rfl
theorem Split.engineQuery (plus : Bool) : Split.Statement (.engineQuery plus) := Or.inr rfl
theorem Split.aheadQuery (plus : Bool) : Split.Statement (.aheadQuery plus) := Or.inr rfl
theorem Split.step (plus : Bool) (i dwell rep freq : Nat) (flags : List StepFlag) (ids : List Nat) : Split.Statement (.step plus i dwell rep freq flags ids) := Or.inr rfl
theorem Split.stepdel (plus : Bool) (i : Nat) : Split.Statement (.stepdel plus i) := Or.inr rfl
theorem Split.stepQuery (plus : Bool) (i : Nat) : Split.Statement (.stepQuery plus i) := Or.inr rfl
theorem Split.ring (plus : Bool) (len : Nat) : Split.Statement (.ring plus len) := Or.inr rfl
theorem Split.run (plus : Bool) (i : Nat) : Split.Statement (.run plus i) := Or.inr rfl
theorem Split.markTimerExpiry : Split.Statement (.markTimerExpiry) := Or.inr rfl
theorem Split.dwellExpiry : Split.Statement (.dwellExpiry) := Or.inr rfl
theorem Split.trigIn : Split.Statement (.trigIn) := Or.inr rfl
theorem Split.trig (plus : Bool) : Split.Statement (.trig plus) := Or.inr rfl
theorem Split.hold (plus : Bool) : Split.Statement (.hold plus) := Or.inr rfl
theorem Split.resume (plus : Bool) : Split.Statement (.resume plus) := Or.inr rfl
theorem Split.stop (plus : Bool) : Split.Statement (.stop plus) := Or.inr rfl
theorem Split.reportQuery (plus : Bool) : Split.Statement (.reportQuery plus) := Or.inr rfl
theorem Split.ringQuery (plus : Bool) : Split.Statement (.ringQuery plus) := Or.inr rfl
theorem Split.pollGapExpiry : Split.Statement (.pollGapExpiry) := Or.inr rfl
theorem Split.pollAnswer (supplyGood overcurrent : Bool) : Split.Statement (.pollAnswer supplyGood overcurrent) := Or.inr rfl
theorem Split.cardRestart (plus : Bool) (n : Nat) : Split.Statement (.cardRestart plus n) := Or.inr rfl
theorem Split.restartAck : Split.Statement (.restartAck) := Or.inr rfl
theorem Split.restartWaitExpiry (n : Nat) : Split.Statement (.restartWaitExpiry n) := Or.inl rfl
theorem Split.restartPollAnswer (supplyGood overcurrent : Bool) : Split.Statement (.restartPollAnswer supplyGood overcurrent) := Or.inr rfl
theorem Split.cack (plus : Bool) (n : Option Nat) : Split.Statement (.cack plus n) := Or.inr rfl
theorem Split.cardQuery (plus : Bool) (n : Nat) : Split.Statement (.cardQuery plus n) := Or.inr rfl
theorem Split.cardsQuery (plus : Bool) : Split.Statement (.cardsQuery plus) := Or.inr rfl
theorem Split.fpresChange (n : Nat) (present : Bool) : Split.Statement (.fpresChange n present) := Or.inl rfl
theorem Split.fixturePresent (n : Nat) : Split.Statement (.fixturePresent n) := Or.inl rfl
theorem Split.fixtureAbsent (n : Nat) : Split.Statement (.fixtureAbsent n) := Or.inl rfl
theorem Split.admitFixture (plus : Bool) (n : Nat) : Split.Statement (.admitFixture plus n) := Or.inr rfl
theorem Split.admitWaitExpiry (n : Nat) : Split.Statement (.admitWaitExpiry n) := Or.inl rfl
theorem Split.identityRecord (n : Nat) (b0 b1 b2 b3 : Byte) : Split.Statement (.identityRecord n b0 b1 b2 b3) := Or.inl rfl
theorem Split.identityReadTimeout (n : Nat) : Split.Statement (.identityReadTimeout n) := Or.inl rfl
theorem Split.ffltAsserted (n : Nat) : Split.Statement (.ffltAsserted n) := Or.inl rfl
theorem Split.ownerBench (plus : Bool) (n : Nat) : Split.Statement (.ownerBench plus n) := Or.inr rfl
theorem Split.ownerLocal (plus : Bool) (n : Nat) : Split.Statement (.ownerLocal plus n) := Or.inr rfl
theorem Split.fack (plus : Bool) (n : Option Nat) : Split.Statement (.fack plus n) := Or.inr rfl
theorem Split.fixQuery (plus : Bool) (n : Nat) : Split.Statement (.fixQuery plus n) := Or.inr rfl
theorem Split.fixesQuery (plus : Bool) : Split.Statement (.fixesQuery plus) := Or.inr rfl
theorem Split.loopInputChange (n : Nat) (closed : Bool) : Split.Statement (.loopInputChange n closed) := Or.inl rfl
theorem Split.loopOpened (n : Nat) : Split.Statement (.loopOpened n) := Or.inl rfl
theorem Split.loopClosed (n : Nat) : Split.Statement (.loopClosed n) := Or.inl rfl
theorem Split.confirm (plus : Bool) (n : Nat) : Split.Statement (.confirm plus n) := Or.inr rfl
theorem Split.ilkQuery (plus : Bool) : Split.Statement (.ilkQuery plus) := Or.inr rfl
theorem Split.muteQuery (plus : Bool) : Split.Statement (.muteQuery plus) := Or.inr rfl
theorem Split.eclr (plus : Bool) (e : Nat) : Split.Statement (.eclr plus e) := Or.inr rfl
theorem Split.faultQuery (plus : Bool) : Split.Statement (.faultQuery plus) := Or.inr rfl
theorem Split.fclear (plus : Bool) : Split.Statement (.fclear plus) := Or.inr rfl
theorem Split.lateQuery (plus : Bool) : Split.Statement (.lateQuery plus) := Or.inr rfl
theorem Split.lateclr (plus : Bool) : Split.Statement (.lateclr plus) := Or.inr rfl
theorem Split.wearset (plus : Bool) (e count : Nat) : Split.Statement (.wearset plus e count) := Or.inr rfl
theorem Split.wearQuery (plus : Bool) (e : Nat) : Split.Statement (.wearQuery plus e) := Or.inr rfl
theorem Split.wearsave (plus : Bool) : Split.Statement (.wearsave plus) := Or.inr rfl
theorem Split.ffltDeasserted (n : Nat) : Split.Statement (.ffltDeasserted n) := Or.inl rfl

end Sys2Proof.Laws
end

