-- ==== Sys2Proof/Machine/Render.lean ====
section
/-! DEFINITION. The lines the part sends, as text (R4, R6, R8, scope 5.2): what a reply or notice held in the state reads
as on TXD, before its CR LF. -/

namespace Sys2Proof.Machine

/-- Words joined by a separator. -/
def joinWith (sep : String) : List String → String
  | [] => ""
  | [w] => w
  | w :: l => w ++ sep ++ joinWith sep l

/-- A number in decimal. -/
def natText (n : Nat) : String := Nat.repr n

/-- A number that may be negative, in decimal. -/
def intText (n : Int) : String := if n < 0 then "-" ++ natText n.natAbs else natText n.natAbs

/-- A value. -/
def valText : Val → String
  | .num n => intText n
  | .word w => w
  | .dash => "-"
  | .port p => "P" ++ natText p
  | .elem e => "E" ++ natText e
  | .common e => "E" ++ natText e ++ ".C"
  | .throw e k => "E" ++ natText e ++ "." ++ natText k
  | .curve c => "K" ++ natText c
  | .fixt f => "F" ++ natText f
  | .loop l => "L" ++ natText l
  | .hop e k => natText e ++ ":" ++ natText k
  | .hopSide e k c => natText e ++ ":" ++ natText k ++ (if c then "/C" else "/T")
  | .over x y => natText x ++ "/" ++ natText y
  | .slash a b => a ++ "/" ++ b
  | .commaNums l => joinWith "," (l.map natText)
  | .commaWords l => joinWith "," l
  | .loss v [] => intText v
  | .loss v flags => intText v ++ "/" ++ joinWith "," flags

/-- A contributor's name in a PARTS field: a hop is written `Ee:k` (R56). -/
def partName : Val → String
  | .hop e k => "E" ++ natText e ++ ":" ++ natText k
  | v => valText v

/-- A field. -/
def fieldText : Field → String
  | .bare v => valText v
  | .keyed k v => k ++ "=" ++ valText v
  | .item n v star => natText n ++ "=" ++ valText v ++ (if star then "*" else "")
  | .part k v => partName k ++ "=" ++ valText v

/-- A reply line (R4, R6). -/
def replyText (r : Reply) : String :=
  let head := match r.refused with
    | none => ["OK"]
    | some c => ["ER", errName c]
  let tail := match r.suffix with
    | none => []
    | some l => ";" :: l.map fieldText
  joinWith " " (head ++ r.fields.map fieldText ++ tail)

/-- The fields of a notice, in R8's order. -/
def noticeFields : Notice → List Val
  | .boot c n => [.word (resetName c), vnum n]
  | .lost => []
  | .done n o out c =>
    [optNum n, .word (originName o), .word (outcomeName out),
     match c with | some c => .word (endCauseName c) | none => .dash]
  | .fault c e => [.word (faultName c), optNum e]
  | .step i p n => [vnum i, vnum p, vnum n]
  | .roll p => [vnum p]
  | .halted c i => [.word (haltName c), vnum i]
  | .bal i n => [vnum i, vnum n]
  | .perm p a b c d =>
    [bit p, .word (loopName a), .word (loopName b), .word (loopName c), .word (loopName d)]
  | .card n st => [vnum n, .word (cardName st)]
  | .fixt n st o => [vnum n, .word (fixName st), .word (ownerName o)]
  | .wear e n => [vnum e, vnum n]
  | .late n => [vnum n]
  | .retire r => [vnum r]

/-- A notice line (R8). -/
def noticeText (n : Notice) : String :=
  joinWith " " (("!" ++ noticeName (noticeKind n)) :: (noticeFields n).map valText)

/-- The line the transmitter is sending, if it sends one (R9). -/
def sendingText (s : State) : Option String :=
  match s.link.tx, s.link.slot with
  | .notice n, _ => some (noticeText n)
  | .reply, some o => some (replyText o.reply)
  | _, _ => none

end Sys2Proof.Machine
end

