-- ==== Sys2Proof/WellFormed.lean ====
section
/-! DEFINITION. Well-formed commands: what the decoder passes to an owner, and what can happen to the part. -/

namespace Sys2Proof

/-- A command line passes the decoder's checks of count and range (R3); an event names a unit the part has and
something that can happen there. -/
def Instr.wf (i : Instr) : Bool := (Machine.operandCheck i).isNone && (Machine.eventCheck i).isNone

end Sys2Proof
end

