-- ==== Sys2Proof/Tests/Slice0.lean ====
section
/-! SUPPORT. Tests: the refusals of `Instr.wf`, lines of the manual read by the decoder, its worked examples worked out
by the machine, and for every statement about states or operands a case that meets its hypotheses. -/

namespace Sys2Proof.Tests

open Sys2Proof.Machine

/-! ### Small states -/

/-- The part after start-up, with nothing loaded and no line waiting. -/
def up : State := { State.reset with phase := .running }

/-- A latching relay with `n` throws on card 0, at position `pos`. -/
def latch (n slot : Nat) (pos : Option Nat) : Elem :=
  { kind := .latch, n := n, card := 0, slot := slot, pulse := some 15, settle := 20, guarded := false, life := 0,
    refs := [], pos := pos, faulted := false }

/-- A solid-state switch on card 1. -/
def solid (n slot : Nat) : Elem :=
  { kind := .solid, n := n, card := 1, slot := slot, pulse := none, settle := 5, guarded := false, life := 0,
    refs := [], pos := some 0, faulted := false }

/-- A card record in a state. -/
def card (st : CardState) : Card := { cardReset with state := st }

/-- A port record of a class, with no fixture and no cable. -/
def port (c : PortClass) : PortRec := { cls := c, fixture := none, cable := none }

/-- Source P0 by relay E0 to probe P10 or, over switch E6, to fixture port P12 bound to F0. -/
def net : Net :=
  { elems := [(0, latch 2 0 (some 0)), (6, { solid 2 0 with guarded := true })],
    ports := [(0, port .source), (10, port .probe), (12, { port .fixture with fixture := some 0 })],
    legs := [(.port 0, .common 0), (.throw 0 1, .port 10), (.throw 0 2, .common 6), (.throw 6 1, .port 12)],
    released := [6], locked := false }

/-- A route from P0 by E0 throw 1 to P10: it carries source and radiates. -/
def radiating (st : RouteState) : Route :=
  { state := st, src := 0, dst := 10, hops := [{ elem := 0, pos := 1, entersCommon := true }], found := false,
    carries := true, radiates := true, needsGuard := false, torn := none, last := none, pending := false }

/-- A route from P0 by E0 throw 2 and E6 throw 1 to fixture port P12. -/
def fixed (st : RouteState) : Route :=
  { state := st, src := 0, dst := 12,
    hops := [{ elem := 0, pos := 2, entersCommon := true }, { elem := 6, pos := 1, entersCommon := true }],
    found := true, carries := true, radiates := false, needsGuard := true, torn := none, last := none,
    pending := false }

/-- A loop that is closed and confirmed. -/
def conf : Loop := { closed := true, confirmed := true, input := true, counting := false }

/-- A fixture admitted with kind 3 and coupler 1850. -/
def admitted : Fixture :=
  { fixtureReset with state := .admitted, present := true, identity := some (3, 1850), last := some .ok, fpres := true }

/-- A step of one route. -/
def stepOf (dwell rep : Nat) (group : List Nat) : StepRec :=
  { dwell := dwell, rep := rep, freq := 0, ahead := false, mark := false, notice := false, group := group }

/-- The network loaded, its cards ENABLED, the permit present, fixture F0 ADMITTED, routes 1 and 2 READY, and a ring of
two steps. -/
def site : State :=
  { up with
    net := net
    cards := [(0, card .enabled), (1, card .enabled)]
    fixtures := [(0, admitted)]
    loops := [(1, conf), (2, conf), (3, conf), (4, conf)]
    routes := [(1, radiating .ready), (2, fixed .ready)]
    ring := { ringReset with steps := [(0, stepOf 0 1 [1]), (1, stepOf 10 2 [2])], len := 2 } }

/-- `site` with route 1 applied. -/
def lit : State :=
  { site with
    routes := [(1, radiating .applied), (2, fixed .ready)]
    net := { net with elems := [(0, latch 2 0 (some 1)), (6, { solid 2 0 with guarded := true })] }
    engine := { engineReset with applied := [1], number := 1 } }

/-- A transition in flight that drives E0 for route 1. -/
def trans : Trans :=
  { number := 1, origin := .command, old := [], target := [1], muteNeeded := true, brk := [0], mak := [(0, 1)],
    brkTodo := [0], makTodo := [(0, 1)], notedElems := [], notedFixtures := [], faultedElems := [], stop := none,
    firstFault := none, outcome := none, lastEm := none, claimed := [0], fixtures := [], radiating := true }

/-- `site` with that transition in a phase, all its drives issued once one is active. -/
def moving (m : Mode) (active : List Drive) : State :=
  { site with engine := { engineReset with
      mode := m, number := 1, mute := true, active := active
      trans := some (if active.isEmpty then trans else { trans with brkTodo := [], makTodo := [] })
      muteTimer := if m = .muting then some 20 else none } }

/-- A drive of E0 to throw 1 at a stage. -/
def driving (g : DriveStage) : Drive := { elem := 0, target := 1, settle := 20, stage := g }

/-- `site` with the ring in a state at step 1. -/
def ringIn (st : RingState) : State := { site with ring := { site.ring with state := st, ptr := 1 } }

/-- The longest curve of 16 points. -/
def worst : Curve := (List.range 16).map fun i => (10000 + i, -2000)

/-- With nothing queued, the decoder takes any command whose operands pass. -/
theorem takes (i : Instr) (s : State) (h : canTake s = true) (l : s.link.lines = []) (f : fitsLine i = true)
    (c : operandCheck i = none) : Takes i s s := by
  refine ⟨?_, f, c⟩
  simp [lineFor, h, l]

/-- The text of the reply that waits to be sent, or is being sent, after a step. -/
def replyOf : Host.Outcome State Fault Refusal → Option String
  | .next s => s.link.slot.map fun o => replyText o.reply
  | _ => none

/-- The notices that wait to be sent, or are being sent, after a step. -/
def noticesOf : Host.Outcome State Fault Refusal → List String
  | .next s => (match s.link.tx with | .notice n => [noticeText n] | _ => []) ++ s.link.notices.map noticeText
  | _ => []

/-- A field of the state after a step. -/
def after {α : Type} (f : State → α) : Host.Outcome State Fault Refusal → Option α
  | .next s => some (f s)
  | _ => none

/-- The characters of a line. -/
def chars (t : String) : List Byte := t.toList.map fun c => BitVec.ofNat 8 c.toNat

/-! ### What `Instr.wf` refuses: one ill-formed command for each check -/

theorem test_wf_accepts : (Instr.leg false (.throw 0 1) (.common 2)).wf = true
    ∧ (Instr.wearset true 95 4294967295).wf = true ∧ (Instr.pulseEnd 95).wf = true := by decide
theorem test_wf_note : (Instr.note false (some (.all, 2))).wf = false
    ∧ (Instr.note false (some (.kind .boot, 0))).wf = false ∧ (Instr.note false (some (.kind .lost, 0))).wf = false := by
  decide
theorem test_wf_site : (Instr.site false .pollGap (some (.num 9))).wf = false
    ∧ (Instr.site false .protDir (some (.num 0))).wf = false ∧ (Instr.site false .siteLock (some (.dir .low))).wf = false
    ∧ (Instr.site false .linkRate (some (.num 9600))).wf = false := by decide
theorem test_wf_elem : (Instr.elem false 96 .latch 2 0 0 15 20 0 0).wf = false
    ∧ (Instr.elem false 0 .latch 1 0 0 15 20 0 0).wf = false ∧ (Instr.elem false 0 .latch 2 12 0 15 20 0 0).wf = false
    ∧ (Instr.elem false 0 .latch 2 0 8 15 20 0 0).wf = false ∧ (Instr.elem false 0 .latch 2 0 0 51 20 0 0).wf = false
    ∧ (Instr.elem false 0 .latch 2 0 0 15 1001 0 0).wf = false ∧ (Instr.elem false 0 .latch 2 0 0 15 20 2 0).wf = false
    ∧ (Instr.elem false 0 .latch 2 0 0 15 20 0 4294967296).wf = false := by decide
theorem test_wf_element_number : (Instr.elemdel false 96).wf = false ∧ (Instr.elemQuery false 96).wf = false
    ∧ (Instr.rel false 96).wf = false ∧ (Instr.unrel false 96).wf = false ∧ (Instr.eclr false 96).wf = false
    ∧ (Instr.wearQuery false 96).wf = false ∧ (Instr.ecal false 0 9 none).wf = false
    ∧ (Instr.wearset false 0 4294967296).wf = false := by decide
theorem test_wf_ports : (Instr.port false 0 .sink (some 1)).wf = false ∧ (Instr.port false 0 .fixture none).wf = false
    ∧ (Instr.port false 0 .fixture (some 8)).wf = false ∧ (Instr.portdel false 160).wf = false
    ∧ (Instr.portQuery false 160).wf = false ∧ (Instr.pcal false 0 (some 256)).wf = false := by decide
theorem test_wf_terminals : (Instr.leg false (.port 160) (.common 0)).wf = false
    ∧ (Instr.leg false (.port 0) (.throw 0 9)).wf = false ∧ (Instr.legCut false (.throw 0 0)).wf = false
    ∧ (Instr.legQuery false (.common 96)).wf = false := by decide
theorem test_wf_curves : (Instr.curve false 0 []).wf = false ∧ (Instr.curve false 0 [(0, 0)]).wf = false
    ∧ (Instr.curve false 0 [(1, 12001)]).wf = false ∧ (Instr.curvedel false 256).wf = false
    ∧ (Instr.curveQuery false 256).wf = false ∧ (Instr.loss false 0 0).wf = false
    ∧ (Instr.lossParts false 0 65001).wf = false ∧ (Instr.bal false (some 65536)).wf = false := by decide
theorem test_wf_routes : (Instr.route false 0 1 2 []).wf = false ∧ (Instr.route false 0 1 2 [(0, 9)]).wf = false
    ∧ (Instr.find false 0 160 0 false).wf = false ∧ (Instr.routedel false 256).wf = false
    ∧ (Instr.routeQuery false 256).wf = false ∧ (Instr.go false [0, 1, 2, 3, 4, 5, 6, 7, 8]).wf = false
    ∧ (Instr.go false [256]).wf = false := by decide
theorem test_wf_ring : (Instr.step false 0 0 17 0 [] []).wf = false ∧ (Instr.step false 0 0 1 0 [.mark, .mark] []).wf = false
    ∧ (Instr.stepdel false 512).wf = false ∧ (Instr.stepQuery false 512).wf = false ∧ (Instr.run false 512).wf = false
    ∧ (Instr.ring false 0).wf = false ∧ (Instr.ring false 513).wf = false := by decide
theorem test_wf_units : (Instr.cardRestart false 12).wf = false ∧ (Instr.cardQuery false 12).wf = false
    ∧ (Instr.cack false (some 12)).wf = false ∧ (Instr.admitFixture false 8).wf = false
    ∧ (Instr.ownerBench false 8).wf = false ∧ (Instr.ownerLocal false 8).wf = false
    ∧ (Instr.fixQuery false 8).wf = false ∧ (Instr.fack false (some 8)).wf = false
    ∧ (Instr.confirm false 0).wf = false ∧ (Instr.confirm false 5).wf = false := by decide
theorem test_wf_events : (Instr.pulseEnd 96).wf = false ∧ (Instr.settleEnd 96).wf = false
    ∧ (Instr.retryDelayExpiry 96).wf = false ∧ (Instr.restartWaitExpiry 12).wf = false
    ∧ (Instr.fpresChange 8 true).wf = false ∧ (Instr.loopOpened 0).wf = false ∧ (Instr.loopClosed 5).wf = false
    ∧ (Instr.lineReceived [10] false).wf = false
    ∧ (Instr.storeWriteEnd (.fail 0 (.valid (.curve [(1, 0)])))).wf = false
    ∧ (Instr.storeWriteEnd (.fail 0 (.valid (.wear [(96, 1)])))).wf = false
    ∧ (Instr.storeWriteEnd (.fail 0 (.valid (.settings { siteDefault with pollGap := 0 })))).wf = false := by decide

/-! ### Lines of the manual, one or more of each family, as the decoder reads them (R3) -/

theorem test_line_link : decodeText (chars "note all 0") = .command (.note false (some (.all, 0)))
    ∧ decodeText (chars "RESET+") = .command (.reset true) ∧ decodeText (chars "STAT ") = .command (.stat false)
    ∧ decodeText (chars "SITE PROT_DIR HIGH") = .command (.site false .protDir (some (.dir .high)))
    ∧ decodeText (chars "STATUS") = .refused false .syntaxErr none := by decide
theorem test_line_network : decodeText (chars "ELEM 2 LATCH 3 0 2 15 20 0 2000000")
      = .command (.elem false 2 .latch 3 0 2 15 20 0 2000000)
    ∧ decodeText (chars "PORT 12 FIXTURE F0") = .command (.port false 12 .fixture (some 0))
    ∧ decodeText (chars "LEG E0.1 -") = .command (.legCut false (.throw 0 1))
    ∧ decodeText (chars "LEG? P0") = .command (.legQuery false (.port 0)) := by decide
theorem test_line_loss : decodeText (chars "CURVE? 9") = .command (.curveQuery false 9)
    ∧ decodeText (chars "LOSS 7 2450 PARTS") = .command (.lossParts false 7 2450)
    ∧ decodeText (chars "BAL 150") = .command (.bal false (some 150)) := by decide
theorem test_line_routes : decodeText (chars "FIND 3 P0 P10 G") = .command (.find false 3 0 10 true)
    ∧ decodeText (chars "ROUTES? STALE") = .command (.routesQuery false (some .stale)) := by decide
theorem test_line_engine : decodeText (chars "GO") = .command (.go false [])
    ∧ decodeText (chars "HALT") = .command (.halt false) := by decide
theorem test_line_ring : decodeText (chars "STEP 0 500 2 2450 AHEAD,MARK 1 2")
      = .command (.step false 0 500 2 2450 [.ahead, .mark] [1, 2])
    ∧ decodeText (chars "RUN 0") = .command (.run false 0) := by decide
theorem test_line_units : decodeText (chars "CARD 3 RESTART") = .command (.cardRestart false 3)
    ∧ decodeText (chars "CACK ALL") = .command (.cack false none)
    ∧ decodeText (chars "OWNER 2 BENCH") = .command (.ownerBench false 2)
    ∧ decodeText (chars "CONFIRM 4") = .command (.confirm false 4) := by decide
theorem test_line_records : decodeText (chars "WEARSET 5 100") = .command (.wearset false 5 100)
    ∧ decodeText (chars "FAULT?") = .command (.faultQuery false) := by decide

/-! ### The manual's worked cases and tables, worked out by the machine: one step each -/

-- R52's table of quotients, as segments over a step of 100 MHz or 1000 MHz.
theorem test_halves : interpolate 1050 (1000, 0) (1100, 25) = 13 ∧ interpolate 1050 (1000, 0) (1100, -25) = -12
    ∧ interpolate 1100 (1000, 10) (1200, 11) = 11 ∧ interpolate 1100 (1000, 11) (1200, 10) = 11
    ∧ interpolate 1001 (1000, 0) (1100, -1251) = -13 ∧ interpolate 1950 (700, 150) (3500, 410) = 266 := by decide
-- Section 3.7.1: the cable of P33 at 2100 MHz sits on its upper end, at 500 MHz below its lower end.
theorem test_curve_ends : curveValue 2100 [(1900, 512), (2100, 540)] = (540, false)
    ∧ curveValue 500 [(1900, 512), (2100, 540)] = (512, true)
    ∧ curveValue 2101 [(1900, 512), (2100, 540)] = (540, true) := by decide
-- Section 3.7.3: the sum 12905 is held at 12000 with SAT.
theorem test_loss_saturates : combine [⟨.port 5, 575, false, false, false⟩, ⟨.port 60, 6330, false, false, false⟩,
    ⟨.fixt 3, 6000, false, false, false⟩] = .value 12000 false false true := by decide
-- Section 3.7.4: spread 241 over 899 and 1140 with one OPEN; with one value left, 0.
theorem test_spread : spreadOf [(7, some (.value 899 false false false)), (11, some (.value 1140 true false false)),
      (12, some .openPath)] = 241
    ∧ spreadOf [(7, some (.value 899 false false false)), (11, some .openPath)] = 0 := by decide
theorem test_loss : replyOf (exec (.loss false 2 1950) site) = some "OK 2 1950 1850 NOCAL"
    ∧ replyOf (exec (.lossParts false 2 1950) site)
      = some "OK 2 1950 1850 NOCAL P0=0/NOCAL E0:2=0/NOCAL E6:1=0/NOCAL P12=0/NOCAL F0=1850" := by decide
theorem test_bal : replyOf (exec (.bal false (some 9000)) up) = some "OK BAL_LIMIT 6000"
    ∧ replyOf (exec (.bal false none) up) = some "OK BAL_LIMIT 0" := by decide
-- Section 1.4.1: the replies of lines A, C and E.
theorem test_site : replyOf (exec (.site false .pollGap (some (.num 40))) up) = some "OK"
    ∧ replyOf (exec (.site false .noteGap none) up) = some "OK NOTE_GAP 0"
    ∧ replyOf (exec (.site false .siteLock (some (.num 0))) { up with lock := true }) = some "ER PROT" := by decide
theorem test_stat : replyOf (exec (.stat false) lit) = some ("OK RING=IDLE STEP=0 VISIT=1 PASS=0 ENGINE=IDLE TN=1 "
    ++ "APPLIED=1 PERMIT=1 MUTE=0 FAULT=0 CARDCHG=0 FIXCHG=0") := by decide
theorem test_line_sent : after (fun s => (s.link.tx, s.link.slot)) (exec .lineSent
    { up with link := { linkReset with tx := .notice .lost } }) = some (.idle, none) := by decide
theorem test_note_gap : noticesOf (exec .noteGapExpiry
    { up with link := { linkReset with gap := { timer := some 10, count := 3, index := 4, pass := 1 } } })
      = ["!STEP 4 1 3"] := by decide
theorem test_note : replyOf (exec (.note false (some (.all, 0))) up) = some "OK"
    ∧ after (fun s => s.link.enabled) (exec (.note false (some (.all, 0))) up) = some [.boot, .lost] := by decide
theorem test_power_on : after (fun s => (s.phase, s.cause)) (exec .resetNAsserted lit) = some (.inReset, .line)
    ∧ after (fun s => s.engine.applied) (exec .powerOn lit) = some [] := by decide
theorem test_boot : noticesOf (exec .discoveryEnd { State.reset with phase := .discovery, failed := 2 })
      = ["!BOOT POWER 2"]
    ∧ after (fun s => s.bus.tx) (exec .resetEnd State.reset) = some (some (.pollDiscovery 0)) := by decide
theorem test_store_write : replyOf (exec (.storeWriteEnd .ok)
      { up with link := { linkReset with hold := some (.store false (.curve 9 [(100, 5), (200, 7)])) } }) = some "OK 9 2"
    ∧ replyOf (exec (.storeWriteEnd (.fail 0 .failed))
      { up with link := { linkReset with hold := some (.store false (.settings siteDefault)) } }) = some "ER STORE" := by
  decide
theorem test_elem : replyOf (exec (.elem false 1 .failsafe 3 0 1 15 20 0 0) site) = some "ER RANGE KIND"
    ∧ replyOf (exec (.elem false 1 .latch 2 0 0 15 20 0 0) site) = some "ER CONFLICT SLOT"
    ∧ after (fun s => (elemAt s 1).map fun x => x.pos) (exec (.elem false 1 .failsafe 2 0 1 15 20 0 0) site)
      = some (some (some 1)) := by decide
theorem test_elemdel : replyOf (exec (.elemdel false 0) lit) = some "ER INUSE"
    ∧ after (fun s => (s.net.legs, (routeAt s 2).map fun x => x.state)) (exec (.elemdel false 6) lit)
      = some ([(.port 0, .common 0), (.throw 0 1, .port 10)], some .stale) := by decide
theorem test_port : replyOf (exec (.port false 1 .fixture (some 0)) site) = some "ER CONFLICT FIXTURE"
    ∧ after (fun s => ((routeAt s 1).map (fun x => x.state), (routeAt s 2).map fun x => x.state))
      (exec (.portdel false 12) site) = some (some .ready, some .stale) := by decide
theorem test_leg : replyOf (exec (.leg false (.common 0) (.throw 0 1)) site) = some "ER CONFLICT SAME"
    ∧ after (fun s => s.net.legs) (exec (.leg false (.throw 0 1) (.port 12)) site)
      = some [(.port 0, .common 0), (.throw 0 2, .common 6), (.throw 0 1, .port 12)] := by decide
theorem test_net_queries : replyOf (exec (.portQuery false 12) site) = some "OK 12 FIXTURE F0 - E6.1"
    ∧ replyOf (exec (.legQuery false (.throw 0 3)) site) = some "ER RANGE"
    ∧ replyOf (exec (.netQuery false) site) = some "OK ELEMS=2 PORTS=3 LEGS=4 RELEASED=1 LOCK=0"
    ∧ replyOf (exec (.elemQuery false 6) site) = some "OK 6 SOLID 2 1 0 0 5 1 0 0 OK 1 - -" := by decide
theorem test_release : replyOf (exec (.rel false 0) site) = some "ER RANGE GUARD"
    ∧ replyOf (exec (.relQuery false) site) = some "OK 6" := by decide
theorem test_lock : replyOf (exec (.unlock false)
    { site with net := { net with locked := true }, site := { siteDefault with topoOneway := 1 } })
      = some "ER LOCKED" := by decide
-- Section 4.6.1: a leg that leads elsewhere, a last leg that misses the destination, the same port twice.
theorem test_route : replyOf (exec (.route false 9 0 10 [(0, 2)]) site) = some "ER BREAK 2"
    ∧ replyOf (exec (.route false 9 0 12 [(0, 1), (6, 1)]) site) = some "ER BREAK 2"
    ∧ replyOf (exec (.route false 9 0 0 [(0, 1)]) site) = some "ER CONFLICT SAME"
    ∧ replyOf (exec (.route false 9 0 10 [(0, 3)]) site) = some "ER RANGE 1"
    ∧ replyOf (exec (.route false 9 0 12 [(0, 2), (6, 1)]) site) = some "OK 9 2" := by decide
-- Sections 4.6.2 and 4.6.3: the search passes a guarded element only with G.
theorem test_find : replyOf (exec (.find false 9 0 10 false) site) = some "OK 9 1 0:1"
    ∧ replyOf (exec (.find false 9 0 12 false) site) = some "ER NOPATH"
    ∧ replyOf (exec (.find false 9 0 12 true) site) = some "OK 9 2 0:2 6:1" := by decide
theorem test_routedel : replyOf (exec (.routedel false 1) lit) = some "OK 1 RETIRING"
    ∧ replyOf (exec (.routedel false 2) lit) = some "OK 2 FREE" := by decide
theorem test_route_query : replyOf (exec (.routeQuery false 2) site) = some "OK 2 READY 0 12 FOUND 1 0 1 - - 2 0:2/C 6:1/C"
    ∧ replyOf (exec (.routesQuery false (some .ready)) site) = some "OK READY 2 1 2" := by decide
-- Section 1.4.1, line B: CHECK passes, mute is needed, and the reply shows MUTING with MUTE_REQ asserted.
theorem test_go : replyOf (exec (.go true [1]) site) = some "OK ; S=IDLE I=0 T=MUTING P=1 M=1 F=0"
    ∧ replyOf (exec (.go false [1, 2]) site) = some "ER CONFLICT 2"
    ∧ replyOf (exec (.go false [3]) site) = some "ER UNDEF 3" := by decide
theorem test_mute_ack : after (fun s => (s.engine.mode, s.bus.tx)) (exec .muteAckAsserted (moving .muting []))
    = some (.breaking, some (.drive 0 0 0 0 (some 15))) := by decide
theorem test_hot : after (fun s => (s.latch, s.engine.trans.map fun t => t.stop))
    (exec .muteAckDeasserted { moving .making [driving (.pulsing 15)] with muteAck := true })
      = some (true, some (some .hot)) := by decide
theorem test_mute_timeout : noticesOf (exec .muteWaitExpiry (moving .muting []))
    = ["!FAULT MUTE_TIMEOUT -", "!DONE 1 COMMAND FAULTED MUTE_TIMEOUT"] := by decide
theorem test_drive_events : after (fun s => s.engine.active.map fun d => d.stage)
      (exec (.pulseEnd 0) (moving .making [driving (.pulsing 15)])) = some [.settling 20]
    ∧ after (fun s => s.bus.tx) (exec (.settleEnd 0) (moving .making [driving (.settling 20)]))
      = some (some (.sense 0 0 0 false)) := by decide
theorem test_sense : after (fun s => s.engine.active.map fun d => d.stage)
      (exec (.senseResult (some 2))
        { moving .making [driving (.sensing false)] with bus := { busReset with tx := some (.sense 0 0 0 false) } })
      = some [.retryWait 50]
    ∧ after (fun s => s.bus.tx) (exec (.retryDelayExpiry 0) (moving .making [driving (.retryWait 50)]))
      = some (some (.sense 0 0 0 false)) := by decide
theorem test_halt : noticesOf (exec (.halt false) (moving .muting [])) = ["!DONE 1 COMMAND HALTED HALT"] := by decide
theorem test_survey : replyOf (exec (.survey false) { site with net := { net with elems := [(0, latch 2 0 none)] } })
    = some "OK 1" := by decide
theorem test_engine_query : replyOf (exec (.engineQuery false) up)
      = some "OK T=IDLE TN=0 ORG=- MUTE=- BRK=- MAK=- STOP=- OUT=- CAUSE=- STG=-"
    ∧ replyOf (exec (.aheadQuery false) up) = some "OK -" := by decide
-- Section 3.3: a full curve in its longest form fits in a line for K99 and is a long line for K100.
theorem test_long_line : replyOf (exec (.curve false 100 worst) up) = some "ER SYNTAX LONG"
    ∧ after (fun s => s.link.hold) (exec (.curve false 99 worst) up) = some (some (.store false (.curve 99 worst))) := by
  decide
-- R114: of 3 drives listed, 1 in progress and 1 taken off unissued by an early end, 1 has ended.
theorem test_staging_count : replyOf (exec (.engineQuery false) (site.setEngine { engineReset with
      mode := .staging, active := [driving (.settling 1)]
      staging := { total := 3, todo := [], cut := 1, discard := false } }))
    = some "OK T=STAGING TN=0 ORG=- MUTE=- BRK=- MAK=- STOP=- OUT=- CAUSE=- STG=1/3" := by decide
theorem test_step : replyOf (exec (.step false 2 0 1 0 [.mark] [1, 1]) site) = some "ER CONFLICT 1"
    ∧ replyOf (exec (.step false 1 0 1 0 [] []) (ringIn .dwelling)) = some "ER INUSE"
    ∧ replyOf (exec (.stepQuery false 1) site) = some "OK 1 10 2 0 - 1 2" := by decide
theorem test_ring : replyOf (exec (.run false 2) site) = some "ER RANGE"
    ∧ replyOf (exec (.ring false 2) (ringIn .held)) = some "ER BUSY"
    ∧ replyOf (exec (.run true 0) site) = some "OK 0 ; S=ENTERING I=0 T=MUTING P=1 M=1 F=0" := by decide
theorem test_trigger : replyOf (exec (.trig false) (ringIn .dwelling)) = some "OK IGNORED"
    ∧ replyOf (exec (.trig false) (ringIn .entering)) = some "OK PENDING"
    ∧ after (fun s => s.ring.overrun) (exec .trigIn
      { site with ring := { site.ring with state := .entering, pendingTrig := true } }) = some true := by decide
theorem test_dwell : after (fun s => (s.ring.visit, s.ring.dwellTimer)) (exec .dwellExpiry
    { site with ring := { site.ring with state := .dwelling, ptr := 1, dwellTimer := some 10 } })
      = some (2, some 10) := by decide
theorem test_hold : replyOf (exec (.hold false) (ringIn .dwelling)) = some "OK HELD"
    ∧ replyOf (exec (.resume false) (ringIn .held)) = some "OK DWELLING"
    ∧ replyOf (exec (.stop false) (ringIn .held)) = some "OK IDLE" := by decide
theorem test_polls : after (fun s => s.bus.tx) (exec .pollGapExpiry
      { site with bus := { busReset with pollTimer := some 50 } }) = some (some (.pollRound 0))
    ∧ noticesOf (exec (.pollAnswer true true) { site with bus := { busReset with tx := some (.pollRound 0), round := some 0 } })
      = ["!CARD 0 DISABLED", "!FAULT CARD_OC -"]
    ∧ noticesOf (exec .cardNoAnswer { site with bus := { busReset with tx := some (.pollRound 1), round := some 1 } })
      = ["!CARD 1 ABSENT", "!FAULT CARD_LOST -"] := by decide
theorem test_restart : replyOf (exec (.cardRestart false 2) site) = some "ER ABSENT"
    ∧ replyOf (exec (.cardRestart false 0) lit) = some "ER INUSE 1"
    ∧ replyOf (exec (.cardRestart false 1) lit) = some "OK 1 RESTARTING" := by decide
theorem test_restart_polled : noticesOf (exec (.restartPollAnswer true false)
    { site with cards := [(0, { card .restarting with restart := some .pollSent })],
                bus := { busReset with tx := some (.pollRestart 0) } }) = ["!CARD 0 ENABLED"] := by decide
theorem test_card_query : replyOf (exec (.cardQuery false 0) site)
    = some "OK 0 ENABLED PCHG=0 SCHG=0 CSF=0 LAST=- PULSES=0 ELEMS=1" := by decide
theorem test_fixture_found : noticesOf (exec (.fixturePresent 1)
      { site with fixtures := [(1, { fixtureReset with fpres := true, counting := true })] }) = ["!FIXT 1 PRESENT LOCAL"]
    ∧ noticesOf (exec (.fixtureAbsent 0)
      { site with fixtures := [(0, { admitted with fpres := false, counting := true })] })
      = ["!FIXT 0 EMPTY LOCAL"] := by decide
theorem test_admission : replyOf (exec (.admitFixture false 1) site) = some "ER ABSENT"
    ∧ noticesOf (exec (.identityRecord 1 3 7 58 188)
      { site with fixtures := [(1, { fixtureReset with state := .admitting, stage := some .reading, present := true })] })
      = ["!FIXT 1 ADMITTED LOCAL"] := by decide
-- The byte sets of R164.
theorem test_identity : judgeIdentity 3 7 58 188 = .ok ∧ judgeIdentity 1 23 112 120 = .ok
    ∧ judgeIdentity 2 24 56 174 = .range ∧ judgeIdentity 0 0 0 0 = .kind ∧ judgeIdentity 3 7 58 187 = .check := by decide
theorem test_owner : replyOf (exec (.ownerBench true 1) up) = some "OK 1 BENCH ; S=IDLE I=0 T=IDLE P=0 M=0 F=0"
    ∧ noticesOf (exec (.ownerBench false 0) site) = ["!FIXT 0 PRESENT BENCH"] := by decide
theorem test_supply : noticesOf (exec (.ffltAsserted 0) site) = ["!FIXT 0 FAULTED LOCAL"] := by decide
theorem test_fix_query : replyOf (exec (.fixQuery false 0) site)
    = some "OK 0 ADMITTED OWNER=LOCAL PRES=1 POWER=1 KIND=3 COUPLER=1850 LAST=OK PCHG=0 SCHG=0 PORT=P12" := by decide
-- R178 and R183: what ILK? and MUTE? read just after start-up.
theorem test_interlock_queries : replyOf (exec (.ilkQuery false) up) = some "OK P=0 L1=OPEN L2=OPEN L3=OPEN L4=OPEN"
    ∧ replyOf (exec (.muteQuery false) up) = some "OK M=0 ENG=0 EXP=0 LATCH=0" := by decide
theorem test_confirm : replyOf (exec (.confirm false 2) up) = some "ER OPEN L2"
    ∧ replyOf (exec (.confirm false 2) site) = some "OK 2 P=1" := by decide
theorem test_loop_opens : after (fun s => (permit s, s.engine.mode)) (exec (.loopOpened 3)
    { lit with loops := [(1, conf), (2, conf), (3, { conf with input := false, counting := true }), (4, conf)] })
      = some (false, .muting) := by decide
theorem test_eclr : replyOf (exec (.eclr false 0) lit) = some "ER INUSE 1"
    ∧ replyOf (exec (.eclr false 6) lit) = some "OK 6" := by decide
theorem test_fault_query : replyOf (exec (.faultQuery false) up) = some "OK -"
    ∧ replyOf (exec (.fclear false) up) = some "OK" := by decide
theorem test_late : replyOf (exec (.lateQuery false) up) = some "OK LATE=0 LIMIT=0"
    ∧ replyOf (exec (.lateclr false) up) = some "OK" := by decide
theorem test_wear : replyOf (exec (.wearset false 95 4294967295) up) = some "OK 95 4294967295"
    ∧ replyOf (exec (.wearQuery false 0) site) = some "OK 0 COUNT=0 LIMIT=0 NOTICED=0 LATE=0" := by decide
-- R6's example of a refusal with the status suffix.
theorem test_suffix : replyOf (exec (.stepdel true 1) { ringIn .dwelling with latch := true })
    = some "ER INUSE ; S=DWELLING I=1 T=IDLE P=1 M=1 F=0" := by decide

/-! ### For each statement with hypotheses, a case that meets them -/

/-- `s` with a line queued. -/
def queued (s : State) (l : List Line) : State := s.setLink { s.link with lines := l }

/-- `up` with link state `k`. -/
def linked (k : Link) : State := up.setLink k

/-- A reply OK. -/
def okLine (thenReset : Bool) : OutReply := { reply := ok [], thenReset := thenReset }

/-- `site` with a transaction on the bus. -/
def onBus (t : BusTx) : State := site.setBus { busReset with tx := some t }

/-- `site` with staging of E0 to throw 1 under way. -/
def staging (active : List Drive) (discard : Bool) : State :=
  site.setEngine { engineReset with
    mode := .staging, active := active, staging := { total := 1, todo := [], cut := 0, discard := discard } }

/-- `site` with fixture F0 as given. -/
def withFix (f : Fixture) : State := site.setFixtures [(0, f)]

/-- `site` with card 1 as given. -/
def withCard (c : Card) : State := site.setCards [(0, card .enabled), (1, c)]

/-- `site` with loop 3 as given. -/
def withLoop (l : Loop) : State := site.setLoops [(1, conf), (2, conf), (3, l), (4, conf)]

/-- `site` with a survey under way. -/
def surveying (todo : List Nat) (current : Option Nat) : State :=
  site.setEngine { engineReset with
    mode := .survey, survey := { total := 2, returned := 0, todo := todo, current := current } }

/-- `site` with a staging drive in progress and a request waiting in CHECK. -/
def checking (q : Option Request) : State :=
  site.setEngine { engineReset with
    mode := .check, active := [driving (.settling 1)], waiting := q
    staging := { total := 1, todo := [], cut := 0, discard := false } }

/-- A request of an origin. -/
def asking (o : Origin) (l : List Nat) : Request := { origin := o, target := l, plus := false }

/-- `lit` with the permit gone. -/
def dark : State := lit.setLoops [(1, conf), (2, conf), (4, conf)]

/-- `site` with a transition of record `t` in a phase. -/
def flying (m : Mode) (t : Trans) (active : List Drive) : State :=
  (moving m active).setEngine { (moving m active).engine with trans := some t }

/-- `site` with card 1 in the restart sequence. -/
def restarting (r : RestartStage) : State := withCard { card .restarting with restart := some r }

/-- `site` with discovery and the poll round as given. -/
def polling (discovery round : Option Nat) : State :=
  site.setBus { busReset with discovery := discovery, round := round }

/-- `up` with a store write in progress. -/
def writing (w : StoreWrite) : State := linked { linkReset with hold := some (.store false w) }

/-- A MAKE that drives E0 and E6, with two pulses in progress on the card of E0. -/
def bothPulse : State :=
  (flying .making { trans with brkTodo := [], makTodo := [(0, 1), (6, 1)] } []).setCards
    [(0, { card .enabled with pulses := 2 }), (1, card .enabled)]

/-- `checking` once its last staging drive has ended. -/
def quiet (q : Option Request) (hold : Option Hold) : State :=
  (site.setEngine { engineReset with
    mode := .check, waiting := q, staging := { total := 1, todo := [], cut := 0, discard := false } }).setLink
      { linkReset with hold := hold }

/-- `lit` at a step whose group stands applied, with AHEAD. -/
def standing : State :=
  lit.setRing { lit.ring with
    steps := [(0, { stepOf 0 1 [1] with ahead := true }), (1, stepOf 10 2 [2])], state := .dwelling }

/-- `site` with fixture F7 in a state, unplugged for the filter's time. -/
def leaving (st : FixState) : State :=
  site.setFixtures [(7, { fixtureReset with state := st, present := true, counting := true })]

theorem witness_StepTakesTheFrontCommand :
    (up.setPending [.trigIn]).pending = .trigIn :: [] ∧ up.pending = [] := by decide

theorem witness_CommandsAreTakenInOrder :
    plusOf (.elemdel true 96) = some true ∧ lineFor (.elemdel true 96) up = some up ∧ fitsLine (.elemdel true 96) = true
    ∧ operandCheck (.elemdel true 96) = some .range ∧ lineFor (.elemdel true 96) State.reset = none
    ∧ lineFor (.curve false 100 worst) up = some up ∧ fitsLine (.curve false 100 worst) = false
    ∧ curveOk worst = true ∧ fitsLine (.curve false 99 worst) = true
    ∧ fitsLine (.curve false 255 ((9999, -2000) :: worst.tail)) = true := by
  and_intros <;> first | rfl | decide

theorem witness_RepliesAndNoticesTakeTurns :
    up.link.slot = none ∧ (linked { linkReset with slot := some (okLine false) }).link.slot ≠ none
    ∧ (linked { linkReset with tx := .notice .lost }).link.tx = .notice .lost
    ∧ (linked { linkReset with tx := .reply, slot := some (okLine false) }).link.tx = .reply
    ∧ (okLine false).thenReset = false ∧ up.link.tx = .idle ∧ up.phase = .running
    ∧ (linked { linkReset with slot := some (okLine false), notices := [.lost] }).link.owed = 0
    ∧ (linked { linkReset with slot := some (okLine false), notices := [.lost], owed := 1 }).link.owed ≠ 0
    ∧ (linked { linkReset with lost := true, notices := List.replicate 31 .lost }).link.lost = true
    ∧ (List.replicate 31 Notice.lost).length < 32 ∧ 32 ≤ (List.replicate 32 Notice.lost).length := by decide

theorem witness_SettlingMovesBusAndLinkOnly :
    Quiet up ∧ grantBus up = up ∧ (onBus (.restart 11)).bus.tx ≠ none ∧ State.reset.phase = .inReset
    -- a free bus: the due SENSE, the first drive that may be issued, a survey's sense
    ∧ site.bus.tx = none ∧ site.phase ≠ .inReset ∧ site.engine.due = []
    ∧ (site.setEngine { engineReset with due := [0] }).engine.due = 0 :: []
    ∧ FirstWith (fun p : Nat × Nat => mayIssue (moving .breaking []) p.1 = true)
        (waitingDrives (moving .breaking [])) (0, 0)
    ∧ FirstWith (fun p : Nat × Nat => mayIssue bothPulse p.1 = true) (waitingDrives bothPulse) (6, 1)
    ∧ (surveying [0] none).engine.mode = .survey ∧ (surveying [0] none).engine.survey.current = none
    ∧ (surveying [0] none).engine.survey.todo = 0 :: []
    ∧ (∀ p ∈ waitingDrives (surveying [0] none), mayIssue (surveying [0] none) p.1 = false)
    -- a restart, discovery, the round, nothing
    ∧ (cardAt (restarting .wantRestart) 1).restart = some .wantRestart
    ∧ (cardAt (restarting .wantPoll) 1).restart = some .wantPoll
    ∧ (∀ m, m < 1 → (cardAt (restarting .wantPoll) m).restart = none)
    ∧ (cardAt (site.setCards [(11, { card .restarting with restart := some .wantRestart })]) 11).restart
        = some .wantRestart
    ∧ (∀ p ∈ waitingDrives site, mayIssue site p.1 = false)
    ∧ (∀ n, n ≤ 11 → (cardAt site n).restart = none)
    ∧ (polling (some 11) none).bus.discovery = some 11 ∧ (polling none (some 0)).bus.round = some 0
    ∧ (roundAt 0 (polling none (some 0))).bus.round = some 0
    ∧ (roundAt 11 ((polling none (some 11)).setCards [(11, card .restarting)])).bus.round = none
    ∧ site.bus.discovery = none ∧ site.bus.round = none
    -- the waiting drives by mode
    ∧ (moving .breaking []).engine.trans = some trans ∧ (moving .making []).engine.trans = some trans
    ∧ (moving .making []).engine.mode = .making ∧ (staging [] false).engine.mode = .staging
    ∧ site.engine.mode = .idle := by
  refine ⟨?_, by decide, by decide, by decide, by decide, by decide, by decide, by decide,
    ⟨[], [], rfl, by simp, by decide⟩, ⟨[(0, 1)], [], rfl, by decide, by decide⟩, ?_⟩
  · unfold Quiet; decide
  · decide

theorem witness_CompletedLinesJoinTheQueue :
    (chars "STAT").contains 10 = false ∧ up.phase ≠ .inReset ∧ (13 : Byte) ≠ 65 := by decide

theorem witness_RefusedLinesAreAnswered :
    canTake (queued up [.long]) = true ∧ (queued up [.long]).link.lines = .long :: []
    ∧ decodeLine .long = .refused false .syntaxErr (some "LONG") ∧ ([7] : List Byte).all printable = false := by decide

theorem witness_NoticesAreMaskedAndCoalesced :
    (linked { linkReset with enabled := [.boot, .lost] }).link.enabled.contains .step = false
    ∧ up.link.enabled.contains .step = true ∧ up.link.gap.timer = none
    ∧ (linked { linkReset with gap := { gapReset with timer := some 1 } }).link.gap.timer = some 1
    ∧ (linked { linkReset with gap := { gapReset with timer := some 1, count := 1 } }).link.gap.count ≠ 0
    ∧ up.link.notices.length < 32 ∧ 32 ≤ (linked { linkReset with notices := List.replicate 32 .lost }).link.notices.length
    ∧ Takes (.note false none) up up ∧ Takes (.note false (some (.kind .step, 0))) up up := by
  and_intros <;> first | exact takes _ _ rfl rfl rfl rfl | decide

theorem witness_SyncWaitsForOperations :
    Takes (.sync true) up up
    ∧ (linked { linkReset with hold := some (.sync true [.staging]) }).link.hold = some (.sync true (.staging :: []))
    ∧ (linked { linkReset with hold := some (.sync true []) }).link.hold = some (.sync true []) := by
  and_intros <;> first | exact takes _ _ rfl rfl rfl rfl | decide

theorem witness_SettingsAndStoreWrites :
    Takes (.site false .pollGap none) up up ∧ Takes (.site false .pollGap (some (.num 10))) up up
    ∧ (up.setLock true).lock = true ∧ Takes (.site false .siteLock (some (.num 1))) (up.setLock true) (up.setLock true)
    ∧ Takes (.sitesave false) up up ∧ Takes (.wearsave false) up up ∧ Takes (.wipe false) up up ∧ up.engine.mode = .idle
    ∧ Takes (.wipe false) (staging [] false) (staging [] false) ∧ (staging [] false).engine.mode ≠ .idle
    ∧ Takes (.curvedel false 255) up up ∧ slotProtected up.site 255 = false
    ∧ Takes (.curvedel false 0) (up.setSite { siteDefault with protOn := 1 }) (up.setSite { siteDefault with protOn := 1 })
    ∧ slotProtected { siteDefault with protOn := 1 } 0 = true
    ∧ Takes (.curve false 0 [(1, 0)]) up up ∧ Takes (.curve false 0 [(1, 0), (1, 0)]) up up
    ∧ pointsRise [(1, 0), (1, 0)] = false ∧ Takes (.curve false 255 [(1, -2000), (65000, 12000)]) up up
    ∧ pointsRise [(1, -2000), (65000, 12000)] = true
    ∧ (linked { linkReset with hold := some (.store true (.wipe 0)) }).link.hold = some (.store true (.wipe 0))
    ∧ Takes (.site false .protDir (some (.dir .low))) up up ∧ Takes (.site false .protDir (some (.dir .high))) up up := by
  and_intros <;> first | exact takes _ _ rfl rfl rfl rfl | decide

theorem witness_StoreWriteEndAnswers :
    (linked { linkReset with hold := some (.store true (.wipe 3)) }).link.hold = some (.store true (.wipe 3))
    ∧ eventCheck (.storeWriteEnd (.fail 257 (.valid (.wear [(0, 9)])))) = none
    ∧ failPossible (.wipe 3) 257 = true ∧ failPossible (.wipe 3) 2 = false ∧ failPossible (.wipe 258) 257 = false
    ∧ eventCheck (.storeWriteEnd (.fail 0 .failed)) = none
    ∧ (linked { linkReset with hold := some (.store false (.curveDel 0)) }).link.hold = some (.store false (.curveDel 0))
    ∧ failPossible (.curveDel 0) 0 = true ∧ failPossible (.curveDel 0) 1 = false
    ∧ (258 : Nat) ≤ 258 ∧ tableWf up.store.curves = true ∧ tableWf up.images = true := by decide

theorem witness_ResetsBegin :
    (linked { linkReset with tx := .reply, slot := some (okLine true) }).link.slot = some (okLine true)
    ∧ (okLine true).thenReset = true ∧ Takes (.reset true) up up
    ∧ up.link.hold = none
    ∧ (writing (.settings siteDefault)).link.hold = some (.store false (.settings siteDefault))
    ∧ (writing (.wear [(95, 1)])).link.hold = some (.store false (.wear [(95, 1)]))
    ∧ (writing (.curve 255 worst)).link.hold = some (.store false (.curve 255 worst))
    ∧ (writing (.curveDel 0)).link.hold = some (.store false (.curveDel 0))
    ∧ (writing (.wipe 0)).link.hold = some (.store false (.wipe 0))
    ∧ (writing (.wipe 257)).link.hold = some (.store false (.wipe 257)) := by
  and_intros <;> first | exact takes _ _ rfl rfl rfl rfl | rfl | decide

theorem witness_StartUpLoadsAndBoots :
    State.reset.phase = .inReset ∧ discoveryDone (State.reset.setPhase .discovery) = true
    ∧ (∀ w, State.reset.store.wear ≠ .valid w)
    ∧ (State.reset.setStore { State.reset.store with wear := .valid [(0, 5), (95, 7)] }).store.wear = .valid [(0, 5), (95, 7)]
    ∧ tableWf [(0, 5), (95, 7)] = true
    ∧ tableWf State.reset.fixtures = true ∧ tableWf State.reset.loops = true
    ∧ (fixtureAt ((withFix { fixtureReset with fpres := true, fflt := true }).setPhase .inReset) 0).fpres = true
    ∧ (loopAt (site.setPhase .inReset) 4).input = true := by
  and_intros <;> first | decide | (intro w h; cases h)

theorem witness_TopologyEditsAreGuarded :
    editPlus (.portdel false 0) = some false
    ∧ Takes (.portdel false 0) site site
    ∧ Takes (.portdel false 0) (site.setNet { net with locked := true }) (site.setNet { net with locked := true })
    ∧ (site.setNet { net with locked := true }).net.locked = true
    ∧ site.net.locked = false
    ∧ Takes (.portdel false 0) (moving .muting []) (moving .muting [])
    ∧ engineEngaged (moving .muting []) = true
    ∧ Takes (.elemdel true 0) (staging [driving (.senseDue false)] false) (staging [driving (.senseDue false)] false)
    ∧ elemBusy (staging [driving (.senseDue false)] false) 0 = true := by
  and_intros <;> first | exact takes _ _ rfl rfl rfl rfl | decide

theorem witness_ElemEditsDefineAndRemove :
    engineEngaged site = false
    ∧ elemBusy site 0 = false
    ∧ site.engine.dropHeld = false
    ∧ Takes (.elem false 0 .latch 2 0 0 0 20 0 0) site site
    ∧ kindMismatch .latch 2 0 = true
    ∧ Takes (.elem false 1 .latch 2 0 0 15 20 0 0) site site
    ∧ slotHeld site 1 0 0 = true
    ∧ Takes (.elem false 0 .latch 2 0 0 15 20 0 0) lit lit
    ∧ kindMismatch .latch 2 15 = false
    ∧ slotHeld lit 0 0 0 = false
    ∧ appliedClaims lit 0 = true
    ∧ Takes (.elem false 95 .solid 8 11 7 0 1000 1 4294967295) site site
    ∧ elemAt site 95 = none
    ∧ kindMismatch .solid 8 0 = false
    ∧ Takes (.elem false 0 .failsafe 2 0 0 50 0 0 0) site site
    ∧ elemAt site 0 = some (latch 2 0 (some 0))
    ∧ appliedClaims site 0 = false
    ∧ Takes (.elemdel false 95) site site
    ∧ Takes (.elemdel false 0) lit lit
    ∧ Takes (.elemdel false 6) site site
    ∧ elemAt site 6 = some { solid 2 0 with guarded := true }
    ∧ Takes (.elemdel false 0) (surveying [0] none) (surveying [0] none)
    ∧ engineEngaged (surveying [0] none) = false
    ∧ elemBusy (surveying [0] none) 0 = false
    ∧ appliedClaims (surveying [0] none) 0 = false
    ∧ tableWf site.net.elems = true := by
  and_intros <;> first | exact takes _ _ rfl rfl rfl rfl | decide

theorem witness_PortEditsWriteOnePort :
    site.net.locked = false
    ∧ engineEngaged site = false
    ∧ Takes (.port false 1 .fixture (some 0)) site site
    ∧ fixtureBound site 1 (some 0) = true
    ∧ Takes (.port false 0 .sink none) lit lit
    ∧ portInUse lit 0 = true
    ∧ Takes (.port false 159 .fixture (some 7)) site site
    ∧ fixtureBound site 159 (some 7) = false
    ∧ portAt site 159 = none
    ∧ Takes (.port false 12 .term none) site site
    ∧ portAt site 12 ≠ none
    ∧ portInUse site 12 = false
    ∧ Takes (.portdel false 159) site site
    ∧ Takes (.portdel false 0) lit lit
    ∧ Takes (.portdel false 12) site site
    ∧ tableWf site.net.ports = true
    ∧ (∀ l ∈ site.net.legs, l.1 ≠ l.2)
    ∧ partner site (.port 12) = some (.throw 6 1) := by
  and_intros <;> first | exact takes _ _ rfl rfl rfl rfl | decide

theorem witness_LegEditsJoinAndCut :
    Takes (.leg false (.port 1) (.common 0)) site site
    ∧ terminalUndef site (.port 1) = true
    ∧ Takes (.leg false (.throw 0 3) (.port 0)) site site
    ∧ throwAbove site (.throw 0 3) = true
    ∧ Takes (.leg false (.common 0) (.throw 0 1)) site site
    ∧ sameTerminal (.common 0) (.throw 0 1) = true
    ∧ Takes (.leg false (.throw 0 1) (.port 12)) lit lit
    ∧ terminalInUse lit (.throw 0 1) = true
    ∧ Takes (.leg false (.throw 0 1) (.port 12)) site site
    ∧ sameTerminal (.throw 0 1) (.port 12) = false
    ∧ terminalInUse site (.throw 0 1) = false
    ∧ partner site (.throw 6 1) = some (.port 12)
    ∧ partner site (.throw 6 2) = none
    ∧ Takes (.legCut false (.port 1)) site site
    ∧ Takes (.legCut false (.throw 0 3)) site site
    ∧ Takes (.legCut false (.common 0)) lit lit
    ∧ Takes (.legCut false (.throw 6 2)) site site
    ∧ Takes (.legCut false (.throw 6 1)) site site
    ∧ terminalInUse site (.throw 6 1) = false
    ∧ throwAbove site (.throw 6 2) = false
    ∧ terminalUndef site (.throw 6 2) = false := by
  and_intros <;> first | exact takes _ _ rfl rfl rfl rfl | decide

theorem witness_EditsMakeReadyRoutesStale :
    routeAt site 3 = none
    ∧ routeAt site 1 = some (radiating .ready)
    ∧ routeAt lit 1 = some (radiating .applied) := by decide

theorem witness_NetCommandsChangeOneThing :
    Takes (.ecal false 95 1 none) site site
    ∧ elemAt site 95 = none
    ∧ Takes (.ecal false 0 3 none) site site
    ∧ Takes (.ecal false 0 2 (some 255)) site site
    ∧ elemAt site 0 = some (latch 2 0 (some 0))
    ∧ Takes (.pcal false 159 none) site site
    ∧ portAt site 159 = none
    ∧ Takes (.pcal false 0 (some 0)) site site
    ∧ portAt site 0 = some (port .source)
    ∧ Takes (.rel false 95) site site
    ∧ Takes (.rel false 0) site site
    ∧ Takes (.rel false 6) site site
    ∧ (elemAt site 6).map (fun x => x.guarded) = some true
    ∧ Takes (.unrel false 95) site site
    ∧ Takes (.unrel false 0) lit lit
    ∧ appliedClaims lit 0 = true
    ∧ Takes (.unrel false 6) site site
    ∧ appliedClaims site 6 = false
    ∧ targetClaims site 6 = false
    ∧ Takes (.lock false) site site
    ∧ Takes (.unlock false) site site
    ∧ Takes (.unlock false) ({ site with net := { net with locked := true }, site := { siteDefault with topoOneway := 1 } }) ({ site with net := { net with locked := true }, site := { siteDefault with topoOneway := 1 } }) := by
  and_intros <;> first | exact takes _ _ rfl rfl rfl rfl | decide

theorem witness_InterpolationRoundsHalfUp :
    (1 : Nat) < 2
    ∧ (2 : Nat) < 65000
    ∧ (1 : Nat) ≤ 1
    ∧ (-2000 : Int) ≤ -2000
    ∧ (12000 : Int) ≤ 12000 := by decide

theorem witness_CurveValueByCase :
    curveOk [(1, -2000), (65000, 12000)] = true
    ∧ ([(1, -2000), (65000, 12000)] : Curve) = [] ++ (1, -2000) :: (65000, 12000) :: []
    ∧ curveOk [(2, 0), (64999, 0)] = true
    ∧ (1 : Nat) < 2
    ∧ (64999 : Nat) < 65000
    ∧ tget site.images 0 = none
    ∧ tget [(0, [(1, 0), (2, 0)])] 0 = some ([(1, 0), (2, 0)] : Curve) := by decide

theorem witness_LossIsTheHeldSum :
    (∃ c ∈ [(⟨.fixt 0, 0, false, false, true⟩ : Contributor)], c.isOpen = true)
    ∧ (∀ c ∈ [(⟨.fixt 0, 6000, false, false, false⟩ : Contributor)], c.isOpen = false) := by decide

theorem witness_SpreadIsGreatestLessLeast :
    (numericValues [(1, some (.value 5 false false false))]).length < 2
    ∧ numericValues [(1, some (.value 5 false false false))] ≠ []
    ∧ (stepOf 0 1 [1]).freq = 0
    ∧ { stepOf 0 1 [1] with freq := 65000 }.freq ≠ 0
    ∧ (12000 : Int) ∈ numericValues [(1, some (.value 12000 false false false)), (2, some .openPath), (3, none)] := by decide

theorem witness_LossCommandsAnswer :
    routeAt site 1 = some (radiating .ready)
    ∧ (radiating .ready).state ≠ .retiring
    ∧ Takes (.loss false 1 1) site site
    ∧ Takes (.lossParts false 1 65000) site site
    ∧ routeAt site 255 = none
    ∧ Takes (.loss false 255 1) site site
    ∧ Takes (.lossParts false 255 1) site site
    ∧ Takes (.bal false none) site site
    ∧ Takes (.bal false (some 65535)) site site
    ∧ Takes (.curveQuery false 255) site site
    ∧ tget site.images 255 = none
    ∧ portFixture site 0 = none ∧ portFixture site 12 = some 0
    ∧ (fixtureAt site 0).state = .admitted ∧ (fixtureAt site 0).identity = some (3, 1850)
    ∧ (fixtureAt (withFix fixtureReset) 0).state ≠ .admitted
    ∧ Takes (.curveQuery false 0) (site.setImages [(0, [(1, 0), (2, 0)])]) (site.setImages [(0, [(1, 0), (2, 0)])]) := by
  and_intros <;> first | exact takes _ _ rfl rfl rfl rfl | decide

theorem witness_TheWalkIsContinuity :
    walk site 10 1 (.port 0) [(0, 1)] = .ok [{ elem := 0, pos := 1, entersCommon := true }]
    ∧ walk site 12 1 (.port 0) [(0, 1)] = .error 2
    ∧ walk site 12 1 (.port 0) [(6, 1)] = .error 1 := by
  and_intros <;> first | decide | rfl

theorem witness_FindFindsAContinuousPath :
    search site 0 12 true = some (fixed .ready).hops ∧ LegsSafe site
    ∧ partner site (.port 0) = some (.common 0)
    ∧ Extends site false (.common 0, []) (.port 10, [{ elem := 0, pos := 1, entersCommon := true }]) := by
  refine ⟨by decide, by unfold LegsSafe; decide, by decide, ?_⟩
  exact ⟨_, _, rfl, rfl, by decide, by decide, by decide, by decide, rfl, rfl⟩

theorem witness_RouteCommandsWriteOneRecord :
    Takes (.route false 1 0 10 [(0, 1)]) lit lit
    ∧ routeAt lit 1 = some (radiating .applied)
    ∧ Takes (.route false 1 0 10 [(0, 1)]) (site.setRoutes [(1, { radiating .ready with pending := true })])
        (site.setRoutes [(1, { radiating .ready with pending := true })])
    ∧ Takes (.route false 255 1 2 [(0, 1)]) site site
    ∧ routeAt site 255 = none ∧ portAt site 1 = none
    ∧ Takes (.route false 255 0 2 [(0, 1)]) site site
    ∧ portAt site 0 ≠ none ∧ portAt site 2 = none
    ∧ Takes (.route false 255 0 12 [(0, 2), (1, 1)]) site site
    ∧ portAt site 12 ≠ none
    ∧ FirstWith (fun h : Nat × Nat => elemAt site h.1 = none) [(0, 2), (1, 1)] (1, 1)
    ∧ Takes (.route false 255 0 12 [(0, 2), (6, 3)]) site site
    ∧ (∃ y, elemAt site 6 = some y ∧ y.n < 3)
    ∧ Takes (.route false 255 0 0 [(0, 1)]) site site
    ∧ Takes (.route false 255 0 12 [(0, 1), (6, 1), (0, 2)]) site site
    ∧ (0, 2).1 ∈ [(0, 1), (6, 1)].map (fun b : Nat × Nat => b.1)
    ∧ Takes (.route false 255 0 12 [(0, 1)]) site site
    ∧ walk site 12 1 (.port 0) [(0, 1)] = .error 2
    ∧ Takes (.route false 0 0 10 [(0, 1)]) site site
    ∧ walk site 10 1 (.port 0) [(0, 1)] = .ok (radiating .ready).hops
    ∧ Takes (.find false 1 0 10 false) lit lit
    ∧ Takes (.find false 255 1 2 false) site site
    ∧ Takes (.find false 255 0 0 false) site site
    ∧ Takes (.find false 2 0 12 false) site site
    ∧ search site 0 12 false = none
    ∧ Takes (.find false 2 0 12 true) site site
    ∧ search site 0 12 true = some (fixed .ready).hops
    ∧ Takes (.routedel false 255) site site
    ∧ Takes (.routedel false 1) (site.setRoutes [(1, { radiating .ready with pending := true })]) (site.setRoutes [(1, { radiating .ready with pending := true })])
    ∧ Takes (.routedel false 1) (site.setRoutes [(1, radiating .stale)]) (site.setRoutes [(1, radiating .stale)])
    ∧ Takes (.routedel false 1) lit lit
    ∧ Takes (.routedel false 1) (site.setRoutes [(1, radiating .retiring)]) (site.setRoutes [(1, radiating .retiring)]) := by
  and_intros <;> first
    | exact takes _ _ rfl rfl rfl rfl
    | decide
    | rfl
    | exact ⟨[(0, 2)], [], rfl, by decide, by decide⟩

theorem witness_GoIsCheckedThenTaken :
    Takes (.go false [1]) (moving .making []) (moving .making [])
    ∧ engineEngaged (moving .making []) = true
    ∧ Takes (.go false [1]) (ringIn .held) (ringIn .held)
    ∧ ringRuns (ringIn .held) = true
    ∧ engineEngaged (ringIn .held) = false
    ∧ Takes (.go false [1, 1]) site site
    ∧ firstRepeat [] [1, 1] = some 1
    ∧ ringRuns site = false
    ∧ site.engine.mode ≠ .survey
    ∧ Takes (.go false [1]) site site
    ∧ firstRepeat [] [1] = none
    ∧ site.engine.mode = .idle
    ∧ checkSet site { origin := .command, target := [1], plus := false } = none
    ∧ Takes (.go false [3]) site site
    ∧ checkSet site { origin := .command, target := [3], plus := false } = some (.undef, .num 3)
    ∧ Takes (.go false []) (staging [driving (.settling 1)] false) (staging [driving (.settling 1)] false)
    ∧ (staging [driving (.settling 1)] false).engine.mode = .staging
    ∧ (staging [driving (.settling 1)] false).engine.active ≠ []
    ∧ Takes (.go false [1]) (staging [] false) (staging [] false)
    ∧ (staging [] false).engine.mode = .staging ∧ (staging [] false).engine.active = []
    ∧ checkSet ((staging [] false).setEngine engineReset) (asking .command [1]) = none
    ∧ checkSet ((staging [] false).setEngine engineReset) (asking .command [3]) = some (.undef, .num 3)
    ∧ -- what the end of the last drive leads to
      (moving .muting []).engine.mode = .muting ∧ (moving .breaking []).engine.mode = .breaking
    ∧ (surveying [] (some 0)).engine.survey.current ≠ none
    ∧ (surveying [0] none).engine.survey.current = none ∧ passOver ((surveying [0] none).setCards []) [0] = []
    ∧ passOver (surveying [0] none) [0] = [0]
    ∧ (staging [] false).engine.staging.todo = []
    ∧ (checking none).engine.mode = .check ∧ (checking none).engine.active ≠ []
    ∧ (quiet none none).engine.active = [] ∧ (quiet none none).engine.waiting = none
    ∧ (quiet (some (asking .command [1])) (some (.goWait true))).engine.waiting = some (asking .command [1])
    ∧ (quiet (some (asking .command [1])) (some (.goWait true))).link.hold = some (.goWait true)
    ∧ (quiet (some (asking .step [3])) none).engine.waiting = some (asking .step [3])
    ∧ (quiet (some (asking .drop [])) none).engine.waiting = some (asking .drop [])
    ∧ checkSet (quiet none none) (asking .drop []) = none
    ∧ ((quiet (some (asking .step [1])) none).setEngine { engineReset with
        mode := .check, waiting := some (asking .step [1]), holder := some { elem := 0, commanded := 1, indicated := none } }).engine.holder
        = some { elem := 0, commanded := 1, indicated := none }
    ∧ -- what follows an entry into IDLE
      (continueEntry (beginEntry (takeHeldDrop (site.setRing ringReset)))).2 = .nothing
    ∧ (continueEntry (beginEntry (takeHeldDrop standing))).2 = .stage := by
  and_intros <;> first | exact takes _ _ rfl rfl rfl rfl | decide

theorem witness_CheckAdmitsUsableRoutes :
    Origin.command ≠ .drop
    ∧ FirstWith (fun r => routeAt site r = none) [1, 3] 3
    ∧ checkSet site (asking .command [1, 3]) = some (.undef, .num 3)
    ∧ FirstWith (fun r => (routeAt (site.setRoutes [(1, radiating .stale)]) r).map (fun x => x.state) = some .stale) [1] 1
    ∧ checkSet (site.setRoutes [(1, radiating .stale)]) (asking .command [1]) = some (.stale, .num 1)
    ∧ checkSet site (asking .step [1, 2]) = some (.conflict, .num 2)
    ∧ FirstWith (fun h : Hop => cardEnabled (site.setCards [(0, card .enabled)])
        (if h.elem = 0 then 0 else 1) = false) (fixed .ready).hops { elem := 6, pos := 1, entersCommon := true }
    ∧ checkSet (site.setCards [(0, card .enabled)]) (asking .step [2]) = some (.unavail, .elem 6)
    ∧ checkSet (site.setNet { net with released := [] }) (asking .step [2]) = some (.guard, .elem 6)
    ∧ portFixture site 0 = none ∧ portFixture site 12 = some 0
    ∧ checkSet (withFix { admitted with owner := .bench }) (asking .step [2]) = some (.unavail, .fixt 0)
    ∧ permit (withLoop loopReset) = false
    ∧ checkSet (withLoop loopReset) (asking .step [1]) = some (.permit, .num 1)
    ∧ checkSet (withLoop loopReset) (asking .drop []) = none
    ∧ checkSet site (asking .step [2]) = none := by
  refine ⟨by decide, ⟨[1], [], rfl, by decide, rfl⟩, by decide, ⟨[], [], rfl, by simp, rfl⟩, by decide, by decide,
    ⟨[_], [], rfl, by decide, by decide⟩, ?_⟩
  decide

theorem witness_AcceptedRequestsArePlanned :
    tableWf site.net.elems = true
    ∧ elemAt site 0 = some (latch 2 0 (some 0))
    ∧ elemAt site 95 = none
    ∧ routeAt site 1 = some (radiating .ready) := by decide

theorem witness_MuteEventsActInTheirPhase :
    site.engine.mode ≠ .muting
    ∧ (moving .muting []).engine.mode = .muting
    ∧ (moving .muting []).engine.trans = some trans
    ∧ trans.brkTodo ≠ []
    ∧ lit.engine.trans = none
    ∧ (moving .making [driving (.pulsing 15)]).engine.mute = true
    ∧ emDriveLeft (moving .making [driving (.pulsing 15)]) { trans with brkTodo := [], makTodo := [] } = true
    ∧ (moving .making [driving (.pulsing 15)]).engine.active ≠ []
    ∧ (moving .making []).engine.muteTimer = none
    ∧ (moving .muting []).engine.muteTimer ≠ none
    ∧ trans.origin = .command ∧ trans.stop = none ∧ trans.firstFault = none
    ∧ trans.notedElems = [] ∧ trans.notedFixtures = [] ∧ trans.faultedElems = []
    ∧ (moving .muting []).engine.dropHeld = false
    ∧ { trans with origin := .step }.origin = .step ∧ (ringIn .entering).ring.state = .entering
    ∧ -- the start of BREAK
      tableWf lit.routes = true ∧ lit.engine.applied.Nodup ∧ [1].Nodup ∧ lit.engine.mode ≠ .staging
    ∧ routeAt lit 1 = some (radiating .applied)
    ∧ routeAt (lit.setRoutes [(1, radiating .retiring)]) 1 = some (radiating .retiring)
    ∧ 1 ∈ { trans with old := [1], target := [] }.old ∧ 1 ∉ { trans with old := [1], target := [] }.target
    ∧ { trans with origin := .drop }.origin = .drop ∧ trans.origin ≠ .drop
    ∧ (lit.setRing { lit.ring with state := .held }).ring.state = .held ∧ currentGroup lit = [1]
    ∧ (moving .breaking []).engine.mode = .breaking
    ∧ ((moving .muting []).setMuteAck true).muteAck = true ∧ (moving .muting []).muteAck = false
    ∧ { trans with brkTodo := [] }.brkTodo = []
    ∧ -- hot with no drive in progress, and a timeout after a note
      (moving .making []).engine.mute = true ∧ (moving .making []).engine.mode = .making
    ∧ emDriveLeft (moving .making []) trans = true ∧ (moving .making []).engine.active = []
    ∧ (flying .muting { trans with firstFault := some .card, notedElems := [0] } []).engine.trans
        = some { trans with firstFault := some .card, notedElems := [0] } := by decide

theorem witness_DrivesRunFromIssueToEnd :
    elemAt site 0 = some (latch 2 0 (some 0))
    ∧ tableWf site.cards = true
    ∧ tableWf site.records.wear = true
    ∧ (95 : Nat) ≤ 95
    ∧ (onBus (.drive 0 0 0 1 (some 15))).bus.tx = some (.drive 0 0 0 1 (some 15))
    ∧ up.bus.tx = none
    ∧ driveOf site 0 = none
    ∧ driveOf (moving .making [driving (.pulsing 15)]) 0 = some (driving (.pulsing 15))
    ∧ driveOf (moving .making [driving (.settling 20)]) 0 = some (driving (.settling 20))
    ∧ (latch 2 0 (some 0)).kind = .latch
    ∧ (moving .making []).engine.mode ≠ .idle
    ∧ driveOf (moving .making [{ driving (.settling 5) with elem := 6 }, driving (.pulsing 15)]) 6 = some { driving (.settling 5) with elem := 6 }
    ∧ (solid 2 0).kind ≠ .latch
    ∧ driveOf (moving .making [driving (.senseDue true)]) 0 = some (driving (.senseDue true))
    ∧ driveOf (moving .making [driving (.retryWait 50)]) 0 = some (driving (.retryWait 50))
    ∧ (wearAt site 0).count ≤ 4294967295 ∧ (wearAt site 0).noticed = false
    ∧ -- the life limit: 0, reached by this throw, and a count at its top
      ¬(0 < (latch 2 0 (some 0)).life)
    ∧ (let x := { latch 2 0 (some 0) with life := 1 }
       0 < x.life ∧ x.life ≤ min ((wearAt site 0).count + 1) 4294967295)
    ∧ (wearAt (site.setRecords { recordsReset with wear := [(0, { count := 4294967295, noticed := true, late := 0 })] }) 0).count
        = 4294967295
    ∧ mayIssue site 6 = true
    ∧ isEm (latch 2 0 (some 0)).kind = true ∧ inFlight (moving .breaking []) = true
    ∧ isEm (solid 2 0).kind = false ∧ inFlight (staging [] false) = false := by decide

theorem witness_SensesAreJudged :
    site.bus.tx = none
    ∧ (onBus (.sense 0 0 0 false)).bus.tx = some (.sense 0 0 0 false)
    ∧ driveOf (moving .making [driving (.sensing false)]) 0 = some (driving (.sensing false))
    ∧ site.site.retryDelay ≠ 0
    ∧ (staging [driving (.sensing true), { driving (.settling 5) with elem := 6 }] false).engine.mode = .staging
    ∧ (∃ d ∈ [driving (.sensing true), { driving (.settling 5) with elem := 6 }], d.elem ≠ 0)
    ∧ (moving .breaking [driving (.sensing true)]).engine.trans = some { trans with brkTodo := [], makTodo := [] }
    ∧ site.records.fault = none
    ∧ passOver (site.setEngine { engineReset with mode := .survey, survey := { total := 2, returned := 0, todo := [6], current := some 0 } }) [6] = [6]
    ∧ ((surveying [] (some 0)).setBus { busReset with tx := some (.sense 0 0 0 true) }).bus.tx = some (.sense 0 0 0 true)
    ∧ (surveying [] (some 0)).engine.mode = .survey ∧ (surveying [] (some 0)).engine.survey.current = some 0
    ∧ passOver (surveying [] (some 0)) [] = [] ∧ (surveying [] (some 0)).engine.dropHeld = false
    ∧ (staging [driving (.sensing true)] false).engine.staging.discard = false
    ∧ (staging [driving (.sensing true)] true).engine.staging.discard = true
    ∧ (checking none).engine.mode = .check
    ∧ (moving .making [driving (.sensing true)]).engine.mode = .making
    ∧ driveOf (moving .making [driving (.sensing true)]) 0 = some (driving (.sensing true))
    ∧ (none : Option Nat).bind (fun k => if k ≤ 2 then some k else none) ≠ some 1 := by decide

theorem witness_LostCardsParkTheirElements :
    inFlight (moving .making []) = true
    ∧ (moving .making []).engine.trans = some trans
    ∧ site.bus.tx = none
    ∧ (onBus (.drive 2 0 0 1 (some 15))).bus.tx = some (.drive 2 0 0 1 (some 15))
    ∧ cardEnabled (onBus (.drive 2 0 0 1 (some 15))) 2 = false
    ∧ cardEnabled (onBus (.drive 0 0 0 1 (some 15))) 0 = true
    ∧ (onBus (.restart 11)).bus.tx = some (.restart 11)
    ∧ (onBus (.pollRound 11)).bus.tx = some (.pollRound 11)
    ∧ (onBus (.pollDiscovery 0)).bus.tx = some (.pollDiscovery 0)
    ∧ tableWf site.cards = true
    ∧ -- leaving ENABLED
      elemAt site 0 = some (latch 2 0 (some 0)) ∧ elemAt site 95 = none ∧ elemsOnCard site 0 = [0]
    ∧ inFlight site = false ∧ site.engine.trans = none
    ∧ tableWf site.net.elems = true
    ∧ (dropCardDrives 0 (setPulses 0 (fun _ => 0) (moving .making []))).engine.trans
        = some { trans with brkTodo := [], makTodo := [] }
    ∧ trans.firstFault = none ∧ 0 ∈ trans.brk ∧ 0 ∈ trans.claimed
    ∧ { trans with firstFault := some .fixture }.firstFault ≠ none
    ∧ elemsOnCard site 1 = [6] ∧ 6 ∉ trans.brk ∧ (6, 1) ∉ trans.mak ∧ 6 ∉ trans.claimed
    ∧ site.phase ≠ .discovery ∧ (cardAt (restarting .restartSent) 1).state ≠ .absent := by decide

theorem witness_HaltStopsWhatRuns :
    Takes (.halt false) site site
    ∧ site.engine.mode = .idle
    ∧ Takes (.halt false) (checking none) (checking none)
    ∧ (checking none).engine.mode = .check ∧ (checking none).engine.active ≠ [] ∧ (checking none).engine.waiting = none
    ∧ Takes (.halt false) (checking (some (asking .step [1]))) (checking (some (asking .step [1])))
    ∧ Takes (.halt false) (staging [driving (.settling 1)] false) (staging [driving (.settling 1)] false)
    ∧ (staging [driving (.settling 1)] false).engine.active ≠ []
    ∧ Takes (.halt false) (staging [] false) (staging [] false)
    ∧ (staging [] false).engine.mode = .staging ∧ (staging [] false).engine.active = []
    ∧ Takes (.halt false) (moving .breaking [driving (.settling 1)]) (moving .breaking [driving (.settling 1)])
    ∧ (moving .breaking [driving (.settling 1)]).engine.trans = some { trans with brkTodo := [], makTodo := [] }
    ∧ trans.stop = none ∧ { trans with stop := some .hot }.stop ≠ none
    ∧ Takes (.halt false) (moving .breaking []) (moving .breaking [])
    ∧ (moving .breaking []).engine.active = [] ∧ (moving .breaking []).engine.trans = some trans
    ∧ Takes (.halt false) (moving .muting []) (moving .muting [])
    ∧ (moving .muting []).engine.mode = .muting ∧ (moving .muting []).engine.dropHeld = false
    ∧ trans.notedElems = [] ∧ trans.notedFixtures = [] ∧ trans.faultedElems = []
    ∧ Takes (.halt false) (surveying [] (some 0)) (surveying [] (some 0))
    ∧ (surveying [] (some 0)).engine.survey.current = some 0
    ∧ Takes (.halt false) (surveying [0] none) (surveying [0] none)
    ∧ (surveying [0] none).engine.survey.current = none ∧ (surveying [0] none).engine.dropHeld = false := by
  and_intros <;> first | exact takes _ _ rfl rfl rfl rfl | decide

theorem witness_SurveysListUnknownLatches :
    Takes (.survey false) (staging [] false) (staging [] false)
    ∧ (staging [] false).engine.mode ≠ .idle
    ∧ Takes (.survey false) site site
    ∧ site.engine.mode = .idle
    ∧ ringRuns site = false
    ∧ tableWf site.net.elems = true := by
  and_intros <;> first | exact takes _ _ rfl rfl rfl rfl | decide

theorem witness_CleanTransitionsApplyTheirRoutes :
    (moving .making []).engine.trans = some trans
    ∧ trans.origin = .command ∧ trans.stop = none ∧ trans.firstFault = none
    ∧ trans.notedElems = [] ∧ trans.notedFixtures = [] ∧ trans.faultedElems = []
    ∧ tableWf lit.routes = true ∧ lit.engine.applied.Pairwise (fun a b => a < b)
    ∧ (∀ r ∈ lit.engine.applied, r ∈ { trans with old := [1], notedElems := [0] }.old)
    ∧ routeAt lit 1 = some (radiating .applied)
    ∧ (∃ h ∈ (radiating .applied).hops, h.elem ∈ { trans with old := [1], notedElems := [0] }.notedElems)
    ∧ (moving .making [driving (.settling 1)]).engine.active ≠ []
    ∧ (moving .breaking []).engine.active = [] ∧ (moving .breaking []).engine.mode = .breaking ∧ trans.brkTodo ≠ []
    ∧ (moving .making []).engine.mode = .making ∧ trans.makTodo ≠ []
    ∧ { trans with brkTodo := [] }.brkTodo = [] ∧ { trans with brkTodo := [], makTodo := [] }.makTodo = []
    ∧ -- a note, a stop and a fault before the end, and a transition of the ring
      { trans with stop := some .hot, origin := .step }.origin = .step
    ∧ portFixture site (fixed .ready).dst = some 0
    ∧ (∃ h ∈ (fixed .ready).hops, h.elem ∈ [6])
    ∧ { trans with faultedElems := [0] }.faultedElems ≠ [] ∧ { trans with stop := some .permit }.stop ≠ none
    ∧ site.ring.state ≠ .dwelling ∧ site.ring.state ≠ .held := by decide

theorem witness_TornRoutesLeaveTheAppliedSet :
    lit.engine.applied.Nodup
    ∧ ([1] : List Nat).Nodup
    ∧ tableWf lit.routes = true
    ∧ (∀ r ∈ [1], r ∈ lit.engine.applied)
    ∧ routeAt lit 1 = some (radiating .applied)
    ∧ (lit.setRing { lit.ring with state := .dwelling }).ring.state = .dwelling
    ∧ FirstWith (fun r => r ∈ currentGroup (lit.setRing { lit.ring with state := .dwelling })) [1] 1
    ∧ lit.ring.state ≠ .dwelling ∧ lit.ring.state ≠ .held ∧ lit.engine.waiting = none
    ∧ currentGroup (lit.setRing { lit.ring with state := .held, ptr := 1 }) = [2]
    ∧ (lit.setEngine { lit.engine with waiting := some (asking .drop [1]) }).engine.waiting = some (asking .drop [1])
    ∧ (lit.setEngine { lit.engine with waiting := some (asking .step [1]) }).engine.waiting = some (asking .step [1])
    ∧ routeAt (lit.setRoutes [(1, radiating .retiring)]) 1 = some (radiating .retiring) := by
  refine ⟨by decide, by decide, by decide, by decide, by decide, rfl, ⟨[], [], rfl, by simp, by decide⟩, ?_⟩
  decide

theorem witness_StepCommandsEditTheRing :
    Takes (.step false 1 65535 16 65000 [] [1]) (ringIn .held) (ringIn .held)
    ∧ ringRuns (ringIn .held) = true
    ∧ (ringIn .held).ring.ptr = 1
    ∧ Takes (.step false 511 0 1 0 [] [1, 1]) site site
    ∧ firstRepeat [] [1, 1] = some 1
    ∧ Takes (.step false 0 0 1 0 [.notice] [1]) site site
    ∧ firstRepeat [] [1] = none
    ∧ Takes (.stepdel false 1) (ringIn .held) (ringIn .held)
    ∧ Takes (.stepdel false 511) site site
    ∧ stepAt site 511 = none
    ∧ Takes (.stepdel false 0) site site
    ∧ stepAt site 0 ≠ none
    ∧ Takes (.ring false 512) (ringIn .held) (ringIn .held)
    ∧ Takes (.ring false 1) site site
    ∧ ringRuns site = false := by
  and_intros <;> first | exact takes _ _ rfl rfl rfl rfl | decide

theorem witness_RunEntersItsStep :
    Takes (.run false 2) site site
    ∧ site.ring.len ≤ 2
    ∧ Takes (.run false 1) (ringIn .held) (ringIn .held)
    ∧ 1 < (ringIn .held).ring.len
    ∧ Takes (.run false 1) (moving .making []) (moving .making [])
    ∧ engineEngaged (moving .making []) = true
    ∧ Takes (.run false 1) site site
    ∧ site.engine.mode = .idle ∧ site.engine.dropHeld = false
    ∧ stepAt site 1 = some (stepOf 10 2 [2])
    ∧ Takes (.run false 0) (site.setRing { ringReset with len := 512 }) (site.setRing { ringReset with len := 512 })
    ∧ stepAt (site.setRing { ringReset with len := 512 }) 0 = none
    ∧ Takes (.run false 1) (staging [driving (.settling 1)] false) (staging [driving (.settling 1)] false)
    ∧ (staging [driving (.settling 1)] false).engine.active ≠ []
    ∧ Takes (.run false 0) ((staging [driving (.settling 1)] false).setRing { ringReset with len := 512 })
        ((staging [driving (.settling 1)] false).setRing { ringReset with len := 512 })
    ∧ stepAt ((staging [driving (.settling 1)] false).setRing { ringReset with len := 512 }) 0 = none
    ∧ Takes (.run false 1) (staging [] false) (staging [] false)
    ∧ (staging [] false).engine.mode = .staging ∧ (staging [] false).engine.active = []
    ∧ (staging [] false).engine.dropHeld = false
    ∧ checkSet ((staging [] false).setEngine engineReset) (asking .step [2]) = none
    ∧ Takes (.run false 1) ((staging [] false).setRoutes []) ((staging [] false).setRoutes [])
    ∧ checkSet (((staging [] false).setRoutes []).setEngine engineReset) (asking .step [2]) = some (.undef, .num 2)
    ∧ Takes (.run false 0) ((staging [] false).setRing { ringReset with len := 512 })
        ((staging [] false).setRing { ringReset with len := 512 })
    ∧ stepAt ((staging [] false).setRing { ringReset with len := 512 }) 0 = none := by
  and_intros <;> first | exact takes _ _ rfl rfl rfl rfl | decide

theorem witness_VisitsEndByDwellOrTrigger :
    site.engine.dropHeld = false
    ∧ site.ring.state ≠ .dwelling
    ∧ (site.setRing { site.ring with state := .dwelling, ptr := 1, dwellTimer := some 10 }).ring.dwellTimer = some 10
    ∧ stepAt site 1 = some (stepOf 10 2 [2])
    ∧ (1 : Nat) < (stepOf 10 2 [2]).rep
    ∧ (stepOf 10 2 [2]).rep ≤ 2
    ∧ stepAt site 0 = some (stepOf 0 1 [1])
    ∧ stepAt (site.setRing ringReset) (site.setRing ringReset).ring.ptr = none
    ∧ site.engine.mode = .idle
    ∧ (staging [] false).engine.mode = .staging ∧ (staging [] false).engine.active = []
    ∧ stepAt (staging [] false) (staging [] false).ring.ptr = some (stepOf 0 1 [1])
    ∧ (staging [driving (.settling 1)] false).engine.active ≠ []
    ∧ (stepOf 10 2 [2]).dwell ≠ 0
    ∧ (stepOf 0 1 [1]).rep ≤ 1
    ∧ (ringIn .entering).ring.pendingTrig = false
    ∧ Takes (.trig false) (ringIn .dwelling) (ringIn .dwelling)
    ∧ Takes (.trig false) (ringIn .entering) (ringIn .entering)
    ∧ Takes (.trig false) (ringIn .halted) (ringIn .halted) := by
  and_intros <;> first | exact takes _ _ rfl rfl rfl rfl | decide

theorem witness_HoldResumeAndStopActByState :
    tableWf site.net.elems = true ∧ site.engine.mode = .idle
    ∧ stepAt site ((site.ring.ptr + 1) % site.ring.len) = some (stepOf 10 2 [2])
    ∧ (surveying [0] none).engine.mode ≠ .idle ∧ (site.engine.mode ≠ .staging)
    ∧ (staging [] false).engine.mode = .staging ∧ (staging [] false).engine.active = []
    ∧ (staging [driving (.settling 1)] false).engine.active ≠ []
    ∧ Takes (.hold false) (ringIn .dwelling) (ringIn .dwelling)
    ∧ (ringIn .dwelling).ring.dwellTimer = none
    ∧ Takes (.hold false) (site.setRing { site.ring with state := .dwelling, ptr := 1, dwellTimer := some 10 }) (site.setRing { site.ring with state := .dwelling, ptr := 1, dwellTimer := some 10 })
    ∧ Takes (.hold false) (ringIn .entering) (ringIn .entering)
    ∧ Takes (.hold false) (ringIn .held) (ringIn .held)
    ∧ Takes (.resume false) (ringIn .held) (ringIn .held)
    ∧ stepAt (ringIn .held) (ringIn .held).ring.ptr = some (stepOf 10 2 [2])
    ∧ Takes (.resume false) (ringIn .entering) (ringIn .entering)
    ∧ Takes (.resume false) (ringIn .halted) (ringIn .halted)
    ∧ Takes (.stop false) (ringIn .held) (ringIn .held)
    ∧ ringRuns (ringIn .held) = true
    ∧ Takes (.stop false) (ringIn .halted) (ringIn .halted)
    ∧ Takes (.stop false) site site
    ∧ site.ring.state = .idle := by
  and_intros <;> first | exact takes _ _ rfl rfl rfl rfl | decide

theorem witness_CleanEntriesFormTheReport :
    (ringIn .entering).ring.overrun = false
    ∧ (ringIn .entering).ring.holdPending = false
    ∧ (ringIn .entering).ring.pendingTrig = false
    ∧ (stepOf 0 1 [1]).dwell = 0 ∧ (stepOf 0 1 [1]).rep ≤ 1
    ∧ (ringIn .entering).ring.len ≤ (ringIn .entering).ring.ptr + 1
    ∧ (ringIn .entering).ring.state = .entering ∧ site.ring.state ≠ .entering ∧ TransOutcome.halted ≠ .clean
    ∧ stepAt (ringIn .entering) (ringIn .entering).ring.ptr = some (stepOf 10 2 [2])
    ∧ stepAt ((ringIn .entering).setRing { ringReset with state := .entering }) 0 = none
    ∧ { (ringIn .entering).ring with overrun := true }.overrun = true
    ∧ site.ring.ptr + 1 < site.ring.len := by decide

theorem witness_PollsAreJudged :
    site.bus.pollTimer = none
    ∧ (site.setBus { busReset with pollTimer := some 50 }).bus.pollTimer ≠ none
    ∧ (12 : Nat) ≤ 12
    ∧ (cardAt site 11).state ≠ .restarting
    ∧ (onBus (.pollRound 0)).bus.tx = some (.pollRound 0)
    ∧ (onBus (.pollDiscovery 11)).bus.tx = some (.pollDiscovery 11)
    ∧ tableWf site.cards = true
    ∧ (cardAt site 2).state = .absent
    ∧ (cardAt site 0).state = .enabled
    ∧ site.phase = .running
    ∧ (cardAt (withCard (card .disabled)) 1).state = .disabled
    ∧ (cardAt (withCard (card .restarting)) 1).state = .restarting
    ∧ PollResult.oc ≠ .good
    ∧ -- a change of state, in discovery and out of it
      (cardAt site 0).state = .enabled ∧ (up.setPhase .discovery).phase = .discovery ∧ site.phase ≠ .discovery
    ∧ (cardAt site 2).state ≠ .disabled ∧ CardState.disabled ≠ .absent ∧ CardState.enabled ≠ .disabled
    ∧ -- the classes of a POLL
      PollResult.silent ≠ .good ∧ PollResult.bad ≠ .silent ∧ (cardAt site 11).state = .absent := by decide

theorem witness_RestartsRunTheirSequence :
    Takes (.cardRestart false 11) site site
    ∧ (cardAt site 11).state = .absent
    ∧ Takes (.cardRestart false 1) (withCard (card .restarting)) (withCard (card .restarting))
    ∧ Takes (.cardRestart false 0) (staging [] false) (staging [] false)
    ∧ Takes (.cardRestart false 0) lit lit
    ∧ appliedWhere lit (fun x => claimsAny x (elemsOnCard lit 0)) = some 1
    ∧ Takes (.cardRestart false 1) site site
    ∧ (cardAt site 1).state = .enabled
    ∧ appliedWhere site (fun x => claimsAny x (elemsOnCard site 1)) = none
    ∧ (onBus (.restart 1)).bus.tx = some (.restart 1)
    ∧ (cardAt (withCard { card .restarting with restart := some .waiting }) 1).restart = some .waiting
    ∧ (cardAt site 1).restart ≠ some .waiting
    ∧ (onBus (.pollRestart 1)).bus.tx = some (.pollRestart 1)
    ∧ tableWf site.cards = true
    ∧ Takes (.cardRestart false 1) (withCard (card .disabled)) (withCard (card .disabled))
    ∧ (cardAt (withCard (card .disabled)) 1).state = .disabled ∧ (withCard (card .disabled)).engine.mode = .idle
    ∧ appliedWhere (withCard (card .disabled)) (fun x => claimsAny x (elemsOnCard site 1)) = none
    ∧ (elemAt site 6).map (fun x => (x.card, x.kind)) = some (1, .solid)
    ∧ (cardAt (restarting .pollSent) 1).state = .restarting ∧ (up.setPhase .discovery).phase = .discovery
    ∧ up.phase ≠ .discovery := by
  and_intros <;> first | exact takes _ _ rfl rfl rfl rfl | decide

theorem witness_PresenceMovesTheFixture :
    (7 : Nat) ≤ 7
    ∧ (fixtureAt site 0).counting = false
    ∧ (withFix { fixtureReset with fpres := true, counting := true }).phase = .running
    ∧ (fixtureAt (withFix { fixtureReset with fpres := true, counting := true }) 0).state = .empty
    ∧ (fixtureAt (withFix { admitted with fpres := false, counting := true }) 0).present = true
    ∧ tableWf (withFix admitted).fixtures = true
    ∧ fixtureInUse { lit with routes := [(2, fixed .applied)], engine := { engineReset with applied := [2] } } 0 = true
    ∧ fixtureInUse site 0 = false
    ∧ site.records.fault = none
    ∧ inFlight site = false ∧ inFlight (moving .making []) = true ∧ (moving .making []).engine.trans = some trans
    ∧ trans.firstFault = none ∧ 0 ∈ { trans with fixtures := [0] }.fixtures ∧ 0 ∉ trans.fixtures
    ∧ { trans with firstFault := some .card }.firstFault ≠ none
    ∧ (fixtureAt (leaving .present) 7).state = .present ∧ (fixtureAt (leaving .faulted) 7).state = .faulted
    ∧ (fixtureAt (leaving .admitting) 7).state = .admitting ∧ (fixtureAt (leaving .admitting) 7).counting = true
    ∧ (fixtureAt (leaving .admitting) 7).fpres = false ∧ (fixtureAt (leaving .admitting) 7).present = true
    ∧ tableWf (leaving .admitting).fixtures = true := by decide

theorem witness_AdmissionsRunTheirSequence :
    tableWf site.fixtures = true
    ∧ Takes (.admitFixture false 7) site site
    ∧ (fixtureAt site 7).state = .empty
    ∧ Takes (.admitFixture false 0) (withFix { admitted with owner := .bench, state := .present }) (withFix { admitted with owner := .bench, state := .present })
    ∧ Takes (.admitFixture false 0) (withFix { admitted with state := .admitting }) (withFix { admitted with state := .admitting })
    ∧ Takes (.admitFixture false 0) site site
    ∧ (fixtureAt site 0).state = .admitted ∧ (fixtureAt site 0).owner = .localOwner
    ∧ appliedWhere site (fun x => endsOnFixture site x 0) = none
    ∧ appliedWhere { lit with routes := [(2, fixed .applied)], engine := { engineReset with applied := [2] } } (fun x => endsOnFixture lit x 0) = some 2
    ∧ (fixtureAt (withFix { fixtureReset with state := .admitting, stage := some (.wait 20) }) 0).stage = some (.wait 20)
    ∧ (fixtureAt (withFix { fixtureReset with state := .admitting, stage := some .reading, fflt := true }) 0).fflt = true
    ∧ (fixtureAt (withFix { fixtureReset with state := .admitting, stage := some .reading }) 0).stage = some .reading
    ∧ judgeIdentity 3 7 58 188 = .ok
    ∧ judgeIdentity 0 0 0 0 ≠ .ok
    ∧ (fixtureAt (withFix { fixtureReset with state := .admitting, stage := some (.wait 20), fflt := true }) 0).fflt = true
    ∧ (fixtureAt (withFix { fixtureReset with state := .admitting, stage := some .reading }) 0).fflt = false := by
  and_intros <;> first | exact takes _ _ rfl rfl rfl rfl | decide

theorem witness_SupplyAndOwnerChangeTheFixture :
    tableWf site.fixtures = true
    ∧ (7 : Nat) ≤ 7
    ∧ (fixtureAt site 7).state ≠ .admitted
    ∧ (fixtureAt site 0).state = .admitted
    ∧ fixtureInUse site 0 = false
    ∧ site.records.fault = none
    ∧ Takes (.ownerBench false 0) site site
    ∧ (fixtureAt site 0).owner = .localOwner
    ∧ appliedWhere site (fun x => endsOnFixture site x 0) = none
    ∧ Takes (.ownerBench false 7) (withFix admitted) (withFix admitted)
    ∧ Takes (.ownerLocal false 0) site site
    ∧ Takes (.ownerLocal false 0) (withFix { fixtureReset with owner := .bench }) (withFix { fixtureReset with owner := .bench })
    ∧ (fixtureAt (withFix { fixtureReset with owner := .bench }) 0).owner = .bench
    ∧ fixtureInUse { lit with routes := [(2, fixed .applied)], engine := { engineReset with applied := [2] } } 0 = true
    ∧ Takes (.ownerBench false 0) (withFix { admitted with state := .present })
        (withFix { admitted with state := .present })
    ∧ (fixtureAt (withFix { admitted with state := .present }) 0).state ≠ .admitted
    ∧ Takes (.ownerBench false 7) (leaving .admitting) (leaving .admitting)
    ∧ (fixtureAt (leaving .admitting) 7).state = .admitting ∧ (fixtureAt (leaving .admitting) 7).owner = .localOwner
    ∧ appliedWhere (leaving .admitting) (fun x => endsOnFixture (leaving .admitting) x 7) = none
    ∧ (fixtureAt (leaving .faulted) 7).state = .faulted ∧ (fixtureAt (withFix admitted) 7).state = .empty := by
  and_intros <;> first | exact takes _ _ rfl rfl rfl rfl | decide

theorem witness_LoopsPermitAndMuteRequest :
    tableWf site.loops = true
    ∧ (1 : Nat) ≤ 1 ∧ (4 : Nat) ≤ 4
    ∧ (loopAt site 1).counting = false
    ∧ (loopAt (withLoop { conf with input := false, counting := true }) 3).counting = true
    ∧ (loopAt (withLoop { loopReset with input := true, counting := true }) 3).closed = false
    ∧ permit up = false
    ∧ Takes (.confirm false 4) site site
    ∧ (loopAt site 4).confirmed = true
    ∧ Takes (.confirm false 3) (withLoop { conf with confirmed := false }) (withLoop { conf with confirmed := false })
    ∧ (loopAt (withLoop { conf with confirmed := false }) 3).closed = true
    ∧ Takes (.confirm false 1) up up
    ∧ (loopAt up 1).closed = false
    -- what the engine does
    ∧ dark.engine.mode = .idle ∧ permit dark = false ∧ anyRadiates dark dark.engine.applied = true
    ∧ anyRadiates site site.engine.applied = false
    ∧ (checking (some (asking .command [1]))).engine.mode = .check
    ∧ anyRadiates (checking (some (asking .command [1]))) [1] = true
    ∧ ((checking (some (asking .command [1]))).setLink { linkReset with hold := some (.goWait true) }).link.hold
        = some (.goWait true)
    ∧ (checking none).engine.waiting = none
    ∧ (moving .muting []).engine.trans = some trans ∧ trans.radiating = true ∧ trans.stop = none
    ∧ (moving .making [driving (.settling 1)]).engine.active ≠ []
    ∧ (surveying [] (some 0)).engine.mode = .survey ∧ (surveying [] (some 0)).engine.survey.current = some 0
    ∧ (dark.setEngine { dark.engine with dropHeld := true }).engine.dropHeld = true
    ∧ dark.engine.applied.filter (fun r => (routeAt dark r).any fun x => x.radiates) = [1]
    ∧ checkSet dark (asking .drop []) = none
    ∧ currentGroup dark = [1]
    ∧ -- a loss with no drive and with no sense in progress
      (moving .breaking []).engine.active = [] ∧ (moving .breaking []).engine.mode ≠ .muting
    ∧ (surveying [0] none).engine.mode = .survey ∧ (surveying [0] none).engine.survey.current = none
    ∧ (flying .breaking { trans with stop := some .halt } [driving (.settling 1)]).engine.trans
        = some { trans with stop := some .halt }
    ∧ { trans with radiating := false }.radiating = false
    ∧ anyRadiates ((surveying [0] none).setRoutes lit.routes) [1] = true := by
  and_intros <;> first | exact takes _ _ rfl rfl rfl rfl | decide

theorem witness_FaultsAndRecordsAreKept :
    tableWf site.records.wear = true
    ∧ site.records.late ≤ 65535
    ∧ (wearAt site 95).late ≤ 65535
    ∧ Takes (.eclr false 95) site site
    ∧ elemAt site 95 = none
    ∧ Takes (.eclr false 0) (moving .making []) (moving .making [])
    ∧ engineEngaged (moving .making []) = true
    ∧ Takes (.eclr false 0) lit lit
    ∧ appliedWhere lit (fun x => claimsElem x 0) = some 1
    ∧ Takes (.eclr false 6) lit lit
    ∧ appliedWhere lit (fun x => claimsElem x 6) = none
    ∧ Takes (.fclear false) site site
    ∧ Takes (.lateclr false) site site
    ∧ Takes (.wearset false 95 4294967295) site site
    ∧ Takes (.cack false (some 11)) site site
    ∧ Takes (.cack false none) site site
    ∧ Takes (.fack false (some 7)) site site
    ∧ Takes (.fack false none) site site
    ∧ tableWf site.cards = true
    ∧ tableWf site.fixtures = true := by
  and_intros <;> first | exact takes _ _ rfl rfl rfl rfl | decide

theorem witness_QueriesAnswerFromTheState :
    Takes (.stat false) site site
    ∧ Takes (.elemQuery false 95) site site
    ∧ Takes (.elemQuery false 6) site site
    ∧ Takes (.portQuery false 159) site site
    ∧ Takes (.portQuery false 0) site site
    ∧ Takes (.legQuery false (.port 1)) site site
    ∧ terminalUndef site (.port 1) = true
    ∧ Takes (.legQuery false (.throw 0 3)) site site
    ∧ throwAbove site (.throw 0 3) = true
    ∧ Takes (.legQuery false (.throw 0 2)) site site
    ∧ Takes (.netQuery false) site site
    ∧ Takes (.relQuery false) site site
    ∧ Takes (.routeQuery false 255) site site
    ∧ Takes (.routeQuery false 1) site site
    ∧ Takes (.routesQuery false none) site site
    ∧ Takes (.routesQuery false (some .free)) site site
    ∧ Takes (.engineQuery false) site site
    ∧ Takes (.aheadQuery false) site site
    ∧ Takes (.stepQuery false 511) site site
    ∧ Takes (.stepQuery false 0) site site
    ∧ Takes (.reportQuery false) site site
    ∧ Takes (.ringQuery false) site site
    ∧ Takes (.ringQuery false) (ringIn .held) (ringIn .held)
    ∧ Takes (.ringQuery false) (ringIn .dwelling) (ringIn .dwelling)
    ∧ (ringIn .dwelling).ring.dwellTimer = none
    ∧ Takes (.ringQuery false) (site.setRing { site.ring with state := .dwelling, ptr := 1, dwellTimer := some 10 }) (site.setRing { site.ring with state := .dwelling, ptr := 1, dwellTimer := some 10 }) := by
  and_intros <;> first | exact takes _ _ rfl rfl rfl rfl | decide

theorem witness_UnitQueriesAnswer :
    Takes (.cardQuery false 11) site site
    ∧ Takes (.cardsQuery false) site site
    ∧ Takes (.fixQuery false 7) site site
    ∧ Takes (.fixesQuery false) site site
    ∧ Takes (.ilkQuery false) site site
    ∧ Takes (.muteQuery false) site site
    ∧ Takes (.faultQuery false) site site
    ∧ site.records.fault = none
    ∧ Takes (.faultQuery false) (site.setRecords { recordsReset with fault := some (plainFault .hot) }) (site.setRecords { recordsReset with fault := some (plainFault .hot) })
    ∧ Takes (.lateQuery false) site site
    ∧ Takes (.wearQuery false 95) site site := by
  and_intros <;> first | exact takes _ _ rfl rfl rfl rfl | decide

/-- `site` with one command queued. -/
def toStep : State := site.setPending [.trigIn]

/-- The ring of a running sequence, within its ranges. -/
theorem witness_StepsKeepTheRingInRange : RingSafe toStep ∧ step toStep = .next (settle (toStep.setPending [])) := by
  refine ⟨?_, rfl⟩
  refine ⟨by decide, by decide, by decide, by decide, ?_⟩
  intro p h
  have e : toStep.ring.steps = [(0, stepOf 0 1 [1]), (1, stepOf 10 2 [2])] := rfl
  rw [e] at h
  simp only [List.mem_cons, List.not_mem_nil, or_false] at h
  rcases h with rfl | rfl <;> decide

theorem witness_StepsKeepTheQueuesBounded : LinkSafe toStep := ⟨by decide, by decide⟩

/-- What holds of the record found holds of every record found. -/
theorem holds_of {α : Type} {o : Option α} {a : α} {P : α → Prop} (h : o = some a) (p : P a) : ∀ x, o = some x → P x := by
  intro x hx
  obtain rfl := Option.some.inj (h.symm.trans hx)
  exact p

/-- No card is in the restart sequence. -/
theorem cards_enabled (s : State) (h : s.cards = [(0, card .enabled), (1, card .enabled)]) (n : Nat) :
    (cardAt s n).restart = none := by
  simp only [cardAt, bget, h, tget]
  split
  · rfl
  · split <;> rfl

/-- With no card in the restart sequence and nothing on the bus, the law of R147 holds. -/
theorem no_restart (s : State) (h : s.cards = [(0, card .enabled), (1, card .enabled)]) (b : s.bus.tx = none)
    (n : Nat) :
    (cardAt s n).restart ≠ none ∨ s.bus.tx = some (.restart n) ∨ s.bus.tx = some (.pollRestart n) →
      (cardAt s n).state = .restarting := by
  intro k
  rw [cards_enabled s h n, b] at k
  rcases k with k | k | k
  · exact absurd rfl k
  · cases k
  · cases k

/-- Route 1 stands applied, its element in place. -/
theorem lit_engineSafe : EngineSafe lit := by
  refine ⟨⟨List.pairwise_singleton _ _, ⟨by decide, ?_⟩, fun _ => ?_⟩, ⟨by decide, by decide⟩,
    ⟨by decide, by decide, nofun, by decide, ?_, ?_, nofun, no_restart lit rfl rfl⟩, nofun⟩
  · exact List.forall_mem_singleton.mpr ⟨_, rfl, .inl rfl⟩
  · exact List.forall_mem_singleton.mpr (holds_of rfl (List.forall_mem_singleton.mpr ⟨_, rfl, by decide⟩))
  · exact fun h => absurd h (by decide)
  · exact (rfl : lit.engine.survey.current = none)

/-- MAKE of the transition of route 1, its drive in progress. -/
def aloft : State :=
  (moving .making [driving (.settling 20)]).setRoutes [(1, { radiating .ready with pending := true }), (2, fixed .ready)]

/-- A transition in flight keeps what the laws rest on. -/
theorem aloft_engineSafe : EngineSafe aloft := by
  refine ⟨⟨.nil, ⟨by decide, nofun⟩, nofun⟩, ⟨by decide, by decide⟩,
    ⟨by decide, by decide, nofun, by decide, ?_, ?_, nofun, no_restart aloft rfl rfl⟩, fun _ => ⟨_, rfl, ?_, ?_, ?_⟩⟩
  · exact fun h => absurd h (by decide)
  · exact (rfl : aloft.engine.survey.current = none)
  · exact ⟨by decide, List.pairwise_singleton _ _, List.forall_mem_singleton.mpr ⟨_, rfl, .inl ⟨rfl, rfl⟩⟩, rfl⟩
  · exact ⟨List.forall_mem_singleton.mpr (holds_of rfl ⟨by decide, by decide, by decide⟩), by decide, nofun, nofun, by decide⟩
  · refine ⟨nofun, fun _ => List.forall_mem_singleton.mpr (holds_of rfl (List.forall_mem_singleton.mpr ?_))⟩
    exact .inr (.inr ⟨_, rfl, rfl, rfl, .inr (.inr (.inl ⟨_, .head _, rfl, rfl⟩))⟩)

theorem lit_drivesSafe : DrivesSafe lit := by
  refine ⟨fun n => ?_, by decide, by decide, by decide, by decide, ?_, by decide, by decide, by decide⟩
  rotate_left
  · exact fun t h => nomatch (h : (none : Option Trans) = some t)
  have e : lit.cards = [(0, card .enabled), (1, card .enabled)] := rfl
  have p : pulsesOn lit n = 0 := rfl
  rw [p]
  simp only [cardAt, bget, e, tget]
  split
  · rfl
  · split <;> rfl

theorem lit_appliedSafe : AppliedSafe lit := ⟨by decide, fun _ h => absurd h (by decide)⟩

theorem witness_StepsKeepTheTablesCanonical :
    TablesSafe toStep ∧ TablesSafe lit ∧ DrivesSafe lit ∧ AppliedSafe lit ∧ EngineSafe lit ∧ EngineSafe aloft
    ∧ lit.pending = [] :=
  ⟨by unfold TablesSafe; decide, by unfold TablesSafe; decide, lit_drivesSafe, lit_appliedSafe, lit_engineSafe,
    aloft_engineSafe, rfl⟩

theorem witness_StepsKeepTheLegsPaired : LegsSafe toStep := by unfold LegsSafe; decide

theorem witness_StepsKeepTheDriveBudget : BudgetSafe toStep := by
  intro n
  have e : toStep.cards = [(0, card .enabled), (1, card .enabled)] := rfl
  simp only [cardAt, bget, e, tget]
  split <;> simp [card, cardReset]
  split <;> simp

/-- The same invariant's companion, with one coil pulse in progress on card 0. -/
theorem witness_StepsKeepTheDriveBudget_pulsing :
    DrivesSafe ((moving .making [driving (.pulsing 15)]).setCards [(0, { card .enabled with pulses := 1 })]) := by
  refine ⟨fun n => ?_, by decide, by decide, by decide, by decide, fun t h => ?_, by decide, by decide, by decide⟩
  · have p : pulsesOn ((moving .making [driving (.pulsing 15)]).setCards [(0, { card .enabled with pulses := 1 })]) n
        = ([driving (.pulsing 15)].filter fun _ => (0 : Nat) == n).length := rfl
    have c : cardAt ((moving .making [driving (.pulsing 15)]).setCards [(0, { card .enabled with pulses := 1 })]) n
        = (if 0 = n then { card .enabled with pulses := 1 } else cardReset) := by
      simp only [cardAt, bget, State.setCards, tget]
      split <;> rfl
    rw [p, c]
    by_cases h : 0 = n
    · subst h; rfl
    · rw [if_neg h]
      simp [h, cardReset]
  · have e : t = { trans with brkTodo := [], makTodo := [] } := by cases h; rfl
    subst e
    decide

theorem witness_StepsKeepTheMuteLaw : MuteSafe (moving .muting []) := by
  intro t h
  have e : (moving .muting []).engine.trans = some trans := rfl
  rw [e] at h
  cases h
  refine ⟨fun _ => by decide, fun m => ?_⟩
  revert m
  decide

theorem witness_FaultRecordsStayAsRecorded :
    (site.setRecords { recordsReset with fault := some (plainFault .hot) }).records.fault = some (plainFault .hot)
    ∧ resets .trigIn site = false := by decide

theorem witness_ThrowCountsRiseByDrives : tableWf site.records.wear = true ∧ resets .muteAckAsserted (moving .muting []) = false
    ∧ (∀ d ∈ (moving .muting []).engine.active, d.elem ≠ 0)
    ∧ after (fun s => (s.engine.active.any fun d => d.elem == 0, (wearAt s 0).count))
        (exec .muteAckAsserted (moving .muting [])) = some (true, 1) := by decide

theorem witness_ResetMeetsTheInvariants : MuteSafe State.reset ∧ LinkSafe State.reset := by
  refine ⟨fun t h => ?_, by decide, by decide⟩
  cases h

end Sys2Proof.Tests
end

/-! ### Curves: interpolation and the value of a curve (R51, R52) -/

namespace Sys2Proof.CurveLaws

open Sys2Proof.Machine

/-! #### The nearest integer, halves going upward -/

/-- The integer nearest to `n / d`, halves going upward, as R52 gives it. -/
def nearest (n d : Int) : Int := (2 * n + d) / (2 * d)

theorem interpolate_eq (f : Nat) (p q : Nat × Int) :
    interpolate f p q = p.2 + nearest ((q.2 - p.2) * ((f : Int) - p.1)) ((q.1 : Int) - p.1) := rfl

section
variable {n m d : Int} (hd : 0 < d)
include hd

theorem nearest_bounds : 2 * d * nearest n d ≤ 2 * n + d ∧ 2 * n + d < 2 * d * (nearest n d + 1) := by
  have h2 : 0 < 2 * d := by omega
  refine ⟨Int.mul_ediv_self_le (Int.ne_of_gt h2), ?_⟩
  rw [Int.mul_add, Int.mul_one]
  exact Int.lt_mul_ediv_self_add h2

theorem nearest_mono (h : n ≤ m) : nearest n d ≤ nearest m d :=
  Int.ediv_le_ediv (by omega) (by omega)

theorem nearest_zero : nearest 0 d = 0 := Int.ediv_eq_zero_of_lt (by omega) (by omega)

/-- A whole number of units goes through the rounding. -/
theorem nearest_add_mul (n k : Int) : nearest (n + k * d) d = nearest n d + k := by
  have h : 2 * (n + k * d) + d = (2 * n + d) + k * (2 * d) := by grind
  rw [nearest, nearest, h, Int.add_mul_ediv_right _ _ (by omega)]

theorem nearest_mul (k : Int) : nearest (k * d) d = k := by
  simpa only [Int.zero_add, nearest_zero hd] using nearest_add_mul hd 0 k

end

/-! #### Interpolation -/

section
variable {f : Nat} {p q : Nat × Int} (hp : p.1 < f) (hq : f < q.1)
include hp hq

/-- The product is between 0 and the whole rise, and rounding keeps that order. -/
theorem interpolate_between : min p.2 q.2 ≤ interpolate f p q ∧ interpolate f p q ≤ max p.2 q.2 := by
  have hd : (0 : Int) < (q.1 : Int) - p.1 := by omega
  have hx : (0 : Int) ≤ (f : Int) - p.1 := by omega
  have hxd : (f : Int) - p.1 ≤ (q.1 : Int) - p.1 := by omega
  have zero := nearest_zero hd
  have whole := nearest_mul hd (q.2 - p.2)
  rw [interpolate_eq]
  rcases Int.le_total p.2 q.2 with h | h
  · have rise : 0 ≤ q.2 - p.2 := by omega
    have low := nearest_mono hd (Int.mul_nonneg rise hx)
    have high := nearest_mono hd (Int.mul_le_mul_of_nonneg_left hxd rise)
    omega
  · have fall : q.2 - p.2 ≤ 0 := by omega
    have low := nearest_mono hd (Int.mul_le_mul_of_nonpos_left fall hxd)
    have high := nearest_mono hd (Int.mul_nonpos_of_nonpos_of_nonneg fall hx)
    omega

/-- Read from the other end, the product differs by the whole rise. -/
theorem interpolate_from_other_end : interpolate f p q
    = q.2 + nearest ((p.2 - q.2) * ((q.1 : Int) - f)) ((q.1 : Int) - p.1) := by
  have hd : (0 : Int) < (q.1 : Int) - p.1 := by omega
  have h : (q.2 - p.2) * ((f : Int) - p.1)
      = (p.2 - q.2) * ((q.1 : Int) - f) + (q.2 - p.2) * ((q.1 : Int) - p.1) := by grind
  rw [interpolate_eq, h, nearest_add_mul hd]
  omega

end

/-- Settles O19: the quotient is `nearest`, whose laws are those of a floor division. -/
theorem interpolationRoundsHalfUp : Obligations.InterpolationRoundsHalfUp := by
  intro f f0 f1 v0 v1 h0 h1 num den q
  have hd : 0 < den := by omega
  have hv : interpolate f (f0, v0) (f1, v1) = v0 + nearest num den := interpolate_eq f (f0, v0) (f1, v1)
  have hq : q = nearest num den := by omega
  have hsum : v0 + q = interpolate f (f0, v0) (f1, v1) := by omega
  refine ⟨hq, hq ▸ nearest_bounds hd, ?_, ?_, fun _ _ _ _ _ _ => ⟨?_, by decide⟩⟩
  · rw [hsum]
    exact interpolate_between (p := (f0, v0)) (q := (f1, v1)) h0 h1
  · rw [hsum]
    exact interpolate_from_other_end (p := (f0, v0)) (q := (f1, v1)) h0 h1
  · rw [Int.natAbs_mul]
    exact Nat.mul_le_mul (by omega) (by omega)

/-! #### A defined curve -/

/-- The frequencies rise along the whole curve (R43), which the model's `risingFrom` says of neighbours. -/
abbrev Rising (c : Curve) : Prop := c.Pairwise fun p q => p.1 < q.1

theorem risingFrom_spec {k : Nat} {c : Curve} (h : risingFrom k c = true) :
    (∀ p ∈ c, k < p.1) ∧ Rising c := by
  induction c generalizing k with
  | nil => exact ⟨fun _ mem => (nomatch mem), .nil⟩
  | cons q l ih =>
    simp only [risingFrom, Bool.and_eq_true, decide_eq_true_eq] at h
    obtain ⟨first, rest⟩ := h
    obtain ⟨above, rising⟩ := ih rest
    exact ⟨List.forall_mem_cons.2 ⟨first, fun p hp => Nat.lt_trans first (above p hp)⟩, .cons above rising⟩

/-- What R43 gives of a defined curve that R51 needs. -/
theorem curveOk_spec {c : Curve} (h : curveOk c = true) :
    c ≠ [] ∧ Rising c ∧ ∀ p ∈ c, -2000 ≤ p.2 ∧ p.2 ≤ 12000 := by
  simp only [curveOk, within, lossInRange, Bool.and_eq_true, decide_eq_true_eq, List.all_eq_true] at h
  obtain ⟨⟨⟨count, -⟩, rising⟩, range⟩ := h
  refine ⟨?_, (risingFrom_spec rising).2, fun p hp => (range p hp).2⟩
  rintro rfl
  exact absurd count (by decide)

/-! #### The walk along the points -/

theorem curveFrom_at (f : Nat) (p : Nat × Int) (l : Curve) (h : f = p.1) : curveFrom f p l = (p.2, false) := by
  cases l with
  | nil => rw [curveFrom, decide_eq_false (by omega)]
  | cons q l => exact if_pos h

theorem curveFrom_past {f : Nat} {p q : Nat × Int} {l : Curve} (hp : p.1 < f) (hq : q.1 ≤ f) :
    curveFrom f p (q :: l) = curveFrom f q l := by
  rw [curveFrom, if_neg (by omega), if_neg (by omega)]

theorem curveFrom_between {f : Nat} {p q : Nat × Int} {l : Curve} (hp : p.1 < f) (hq : f < q.1) :
    curveFrom f p (q :: l) = (interpolate f p q, false) := by
  rw [curveFrom, if_neg (by omega), if_pos hq]

theorem curveFrom_skip {f : Nat} {p q : Nat × Int} {before after : Curve} (hp : p.1 < q.1)
    (rising : Rising (before ++ q :: after)) (hq : q.1 ≤ f) :
    curveFrom f p (before ++ q :: after) = curveFrom f q after := by
  induction before generalizing p with
  | nil => exact curveFrom_past (by omega) hq
  | cons x before ih =>
    obtain ⟨above, rising⟩ := List.pairwise_cons.1 rising
    have hx : x.1 < q.1 := above q (List.mem_append_right _ (.head _))
    exact (curveFrom_past (by omega) (by omega)).trans (ih hx rising)

/-- On a rising curve the walk reaches every point that does not lie above the frequency. -/
theorem curveValue_reaches {f : Nat} {p : Nat × Int} {before after : Curve}
    (rising : Rising (before ++ p :: after)) (hp : p.1 ≤ f) :
    curveValue f (before ++ p :: after) = curveFrom f p after := by
  cases before with
  | nil => exact if_neg (by omega)
  | cons x before =>
    obtain ⟨above, rising⟩ := List.pairwise_cons.1 rising
    have hx : x.1 < p.1 := above p (List.mem_append_right _ (.head _))
    exact (if_neg (by omega)).trans (curveFrom_skip hx rising hp)

/-! #### The value lies within the losses of the curve -/

/-- `v` lies between two losses of `c`. -/
def WithinLosses (c : Curve) (v : Int) : Prop := ∃ p ∈ c, ∃ q ∈ c, p.2 ≤ v ∧ v ≤ q.2

theorem withinLosses_of_mem {c : Curve} {p : Nat × Int} (h : p ∈ c) : WithinLosses c p.2 :=
  ⟨p, h, p, h, Int.le_refl _, Int.le_refl _⟩

theorem WithinLosses.cons {c : Curve} {v : Int} (h : WithinLosses c v) (p : Nat × Int) :
    WithinLosses (p :: c) v := by
  obtain ⟨a, ha, b, hb, bounds⟩ := h
  exact ⟨a, .tail _ ha, b, .tail _ hb, bounds⟩

theorem interpolate_withinLosses {f : Nat} {p q : Nat × Int} {c : Curve} (hp : p ∈ c) (hq : q ∈ c)
    (hpf : p.1 < f) (hfq : f < q.1) : WithinLosses c (interpolate f p q) := by
  have bounds := interpolate_between hpf hfq
  rcases Int.le_total p.2 q.2 with h | h
  · exact ⟨p, hp, q, hq, by omega, by omega⟩
  · exact ⟨q, hq, p, hp, by omega, by omega⟩

theorem curveFrom_withinLosses {f : Nat} {p : Nat × Int} {l : Curve} (hp : p.1 ≤ f) :
    WithinLosses (p :: l) (curveFrom f p l).1 := by
  induction l generalizing p with
  | nil => exact withinLosses_of_mem (.head _)
  | cons q l ih =>
    rcases Nat.eq_or_lt_of_le hp with atPoint | above
    · rw [curveFrom_at f p _ atPoint.symm]
      exact withinLosses_of_mem (.head _)
    · rcases Nat.lt_or_ge f q.1 with below | reached
      · rw [curveFrom_between above below]
        exact interpolate_withinLosses (.head _) (.tail _ (.head _)) above below
      · rw [curveFrom_past above reached]
        exact (ih reached).cons p

theorem curveValue_withinLosses (f : Nat) {c : Curve} (h : c ≠ []) : WithinLosses c (curveValue f c).1 := by
  cases c with
  | nil => exact absurd rfl h
  | cons p l =>
    rw [curveValue]
    split
    · exact withinLosses_of_mem (.head _)
    · exact curveFrom_withinLosses (by omega)

/-! #### Contributors from a slot -/

theorem curveContributor_of_none (s : State) (f : Nat) (name : Val) {slot : Option Nat}
    (h : slot.bind (tget s.images) = none) : curveContributor s f name slot
      = { name := name, value := 0, nocal := true, edge := false, isOpen := false } := by
  rw [curveContributor, h]

theorem curveContributor_of_some (s : State) (f : Nat) (name : Val) {slot : Option Nat} {c : Curve}
    (h : slot.bind (tget s.images) = some c) : curveContributor s f name slot
      = { name := name, value := (curveValue f c).1, nocal := false, edge := (curveValue f c).2, isOpen := false } := by
  rw [curveContributor, h]

/-- Settles O20: on a rising curve the walk reaches the last point not above the frequency (`curveValue_reaches`), and
each case is one step of the walk from there. -/
theorem curveValueByCase : Obligations.CurveValueByCase := by
  refine ⟨fun c f ok => ?_, fun s f name slot => ⟨?_, ?_⟩⟩
  · obtain ⟨nonempty, rising, range⟩ := curveOk_spec ok
    have within := curveValue_withinLosses f nonempty
    refine ⟨?below, ?above, ?atPoint, ?between, within, ?range⟩
    case below =>
      intro p first hp
      obtain ⟨l, rfl⟩ := List.head?_eq_some_iff.1 first
      exact if_pos hp
    case above =>
      intro p last hp
      obtain ⟨before, rfl⟩ := List.getLast?_eq_some_iff.1 last
      rw [curveValue_reaches rising (Nat.le_of_lt hp), curveFrom, decide_eq_true hp]
    case atPoint =>
      intro p mem hp
      obtain ⟨before, after, rfl⟩ := List.append_of_mem mem
      rw [curveValue_reaches rising (Nat.le_of_eq hp.symm), curveFrom_at f p after hp]
    case between =>
      rintro before after p q rfl hp hq
      rw [curveValue_reaches rising (Nat.le_of_lt hp), curveFrom_between hp hq]
    case range =>
      obtain ⟨p, hp, q, hq, low, high⟩ := within
      exact ⟨Int.le_trans (range p hp).1 low, Int.le_trans high (range q hq).2⟩
  · rintro (rfl | ⟨c, rfl, undefd⟩)
    · exact curveContributor_of_none s f name rfl
    · exact curveContributor_of_none s f name undefd
  · rintro c points rfl defd
    exact curveContributor_of_some s f name defd

end Sys2Proof.CurveLaws

/-! ### What a step can do

`Acts i s v` lists, once for all rows of the opcode table, what the row `i` does to the state `s` before all that follows
at once; `exec_next` is the inversion: an `exec` that answers next took at most one line, acted so and settled. The step
invariants are proved by cases on `Acts`. -/

namespace Sys2Proof.StepLaws

open Sys2Proof.Machine Sys2Proof.Laws

/-- Row `i` takes `s` to `v` before all that follows at once, with what its refusals passed. -/
inductive Acts : Instr → State → State → Prop
  | nothing (i : Instr) (s : State) : Acts i s s
  | replies {i : Instr} {s v : State} (o : OutReply) (h : Acts i s v) : Acts i s (placeReply o v)
  -- the Command Port
  | beginReset {i : Instr} (c : ResetCause) (s : State) (h : resets i s = true) : Acts i s (beginReset c s)
  | startUp (s : State) (h : s.phase = .inReset) : Acts .resetEnd s (startUp s)
  | endDiscovery (s : State) : Acts .discoveryEnd s (endDiscovery s)
  | queueLine (chars : List Byte) (framing : Bool) (l : Line) (s : State) :
      Acts (.lineReceived chars framing) s (queueLine l s)
  | dropLine (s : State) (l : Line) (rest : List Line) (h : s.link.lines = l :: rest) :
      Acts .syntaxRefusal s (s.setLink { s.link with lines := rest })
  | noticeSent (s : State) (n : Notice) (h : s.link.tx = .notice n) :
      Acts .lineSent s (s.setLink { s.link with tx := .idle })
  | replySent (s : State) (h : s.link.tx = .reply) :
      Acts .lineSent s (s.setLink { s.link with
        tx := .idle, slot := s.link.held, held := none, owed := s.link.notices.length })
  | gapExpires (s : State) : Acts .noteGapExpiry s (gapExpires s)
  | mask (plus : Bool) (change : Option (NoteSel × Nat)) (l : List NoticeKind) (s : State) :
      Acts (.note plus change) s (s.setLink { s.link with enabled := l })
  | holds {i : Instr} (k : Hold) (s : State) : Acts i s (s.setLink { s.link with hold := some k })
  | writeEnds (r : WriteResult) (s : State) : Acts (.storeWriteEnd r) s (writeEnds r s)
  | setSite {i : Instr} (v : Site) (s : State) : Acts i s (s.setSite v)
  -- the Net Table
  | defineElem (plus : Bool) (e : Nat) (kind : ElemKind) (n card slot pulse settle guard life : Nat) (x : Elem)
      (s : State) (engaged : engineEngaged s = false) (busy : elemBusy s e = false) (unused : appliedClaims s e = false)
      : Acts (.elem plus e kind n card slot pulse settle guard life) s (defineElem e x s)
  | deleteElem (plus : Bool) (e : Nat) (s : State) (engaged : engineEngaged s = false) (busy : elemBusy s e = false)
      (unused : appliedClaims s e = false) : Acts (.elemdel plus e) s (deleteElem e s)
  | definePort (plus : Bool) (p : Nat) (cls : PortClass) (fixture : Option Nat) (s : State)
      (engaged : engineEngaged s = false) : Acts (.port plus p cls fixture) s (definePort p cls fixture s)
  | deletePort (plus : Bool) (p : Nat) (s : State) (engaged : engineEngaged s = false) :
      Acts (.portdel plus p) s (deletePort p s)
  | joinLeg (plus : Bool) (a b : Terminal) (s : State) (engaged : engineEngaged s = false)
      (apart : sameTerminal a b = false) : Acts (.leg plus a b) s (joinLeg a b s)
  | removeLeg (plus : Bool) (a : Terminal) (s : State) (engaged : engineEngaged s = false) :
      Acts (.legCut plus a) s (removeLeg a s)
  | setRefs (plus : Bool) (e k : Nat) (slot : Option Nat) (x : Elem) (refs : Table Nat) (s : State)
      (h : elemAt s e = some x) : Acts (.ecal plus e k slot) s (setElem e { x with refs := refs } s)
  | setCable (plus : Bool) (p : Nat) (slot : Option Nat) (q : PortRec) (s : State) (h : portAt s p = some q) :
      Acts (.pcal plus p slot) s (s.setNet { s.net with ports := tput s.net.ports p { q with cable := slot } })
  | setReleased {i : Instr} (l : List Nat) (s : State) : Acts i s (s.setNet { s.net with released := l })
  | setLocked {i : Instr} (b : Bool) (s : State) : Acts i s (s.setNet { s.net with locked := b })
  -- routes
  | defineRoute {i : Instr} (r src dst : Nat) (hops : List Hop) (found : Bool) (s : State) (held : routeHeld s r = false)
      (pending : routePending s r = false) (ports : undefPort s src dst = none) (ends : src ≠ dst)
      (made : (∃ l, firstRepeat [] (l.map fun h => h.1) = none ∧ walk s dst 1 (.port src) l = .ok hops)
        ∨ ∃ guarded, search s src dst guarded = some hops) :
      Acts i s (setRoute r (newRoute s src dst hops found) s)
  | deleteRoute (plus : Bool) (r : Nat) (s : State) : Acts (.routedel plus r) s (deleteRoute r s).2
  -- the Throw Engine
  | requestGo (plus : Bool) (ids : List Nat) (s : State) (h : goRefusal s ids = none) (len : ids.length ≤ 8) :
      Acts (.go plus ids) s (requestGo plus ids s)
  | muteSeen (s : State) (h : s.engine.mode = .muting) :
      Acts .muteAckAsserted s (followUp rounds (startBreak (s.setMuteAck true)))
  | muteUp (s : State) (h : s.engine.mode ≠ .muting) : Acts .muteAckAsserted s (s.setMuteAck true)
  | muteDown (s : State) : Acts .muteAckDeasserted s (muteAckLost (s.setMuteAck false))
  | muteTimeout (s : State) (h : s.engine.mode = .muting) : Acts .muteWaitExpiry s (muteTimeout s)
  | freeBus (s : State) (c k e p : Nat) (w : Option Nat) (h : s.bus.tx = some (.drive c k e p w)) :
      Acts .driveAcknowledged s (setTx none s)
  | noAnswer (s : State) : Acts .cardNoAnswer s (noAnswer s)
  | pulseEnds (e : Nat) (s : State) : Acts (.pulseEnd e) s (pulseEnds e s)
  | settleEnds (e : Nat) (s : State) : Acts (.settleEnd e) s (settleEnds e s)
  | senseReturns (got : Option Nat) (s : State) : Acts (.senseResult got) s (senseReturns got s)
  | retryEnds (e : Nat) (s : State) : Acts (.retryDelayExpiry e) s (retryEnds e s)
  | halt (plus : Bool) (s : State) : Acts (.halt plus) s (haltEngine s)
  | survey (plus : Bool) (s : State) (h : s.engine.mode = .idle) (runs : ringRuns s = false) :
      Acts (.survey plus) s (beginSurvey (tkeys (fun _ x => surveyable s x) s.net.elems) s)
  -- the Step Ring
  | defineStep (plus : Bool) (i dwell rep freq : Nat) (flags : List StepFlag) (ids : List Nat) (x : StepRec) (s : State)
      (free : stepInUse s i = false) (len : ids.length ≤ 8) (group : x.group = ids) (low : 1 ≤ x.rep) (high : x.rep ≤ 16) :
      Acts (.step plus i dwell rep freq flags ids) s (afterStepEdit i (setSteps (tput s.ring.steps i x) s))
  | deleteStep (plus : Bool) (i : Nat) (s : State) (free : stepInUse s i = false) :
      Acts (.stepdel plus i) s (afterStepEdit i (setSteps (tdel s.ring.steps i) s))
  | setRingLen (plus : Bool) (len : Nat) (s : State) (runs : ringRuns s = false) (low : 1 ≤ len) (high : len ≤ 512) :
      Acts (.ring plus len) s (s.setRing { s.ring with len := len, ptr := 0, visit := 1 })
  | startRun (plus : Bool) (i : Nat) (s : State) (range : i < s.ring.len) (runs : ringRuns s = false)
      (engaged : engineEngaged s = false) (survey : s.engine.mode ≠ .survey) : Acts (.run plus i) s (startRun plus i s)
  | markEnds (s : State) : Acts .markTimerExpiry s (s.setRing { s.ring with markTimer := false })
  | dwellEnds (s : State) : Acts .dwellExpiry s (followUp rounds (continueEntry (dwellEnds s)))
  | trigger (s : State) : Acts .trigIn s (followUp rounds (continueEntry (takeTrigger s).1))
  | trig (plus : Bool) (s : State) : Acts (.trig plus) s (trigTaken plus s)
  | hold (plus : Bool) (s : State) : Acts (.hold plus) s (holdRing s)
  | resume (plus : Bool) (s : State) : Acts (.resume plus) s (resumeRing s)
  | stop (plus : Bool) (s : State) : Acts (.stop plus) s (stopRing s)
  | dwellRead (plus : Bool) (s : State) : Acts (.ringQuery plus) s (dwellRead s)
  -- cards and fixtures
  | beginRound (s : State) : Acts .pollGapExpiry s (roundAt 0 (s.setBus { s.bus with pollTimer := none }))
  | polled (good oc : Bool) (s : State) : Acts (.pollAnswer good oc) s (pollDone (pollClass good oc) s)
  | beginRestart (plus : Bool) (n : Nat) (s : State) (h : restartRefusal s n = none) :
      Acts (.cardRestart plus n) s (beginRestart n s)
  | restartAcked (n : Nat) (s : State) (h : s.bus.tx = some (.restart n)) :
      Acts .restartAck s (setRestart n .waiting (setTx none s))
  | restartWaited (n : Nat) (s : State) (h : (cardAt s n).restart = some .waiting) :
      Acts (.restartWaitExpiry n) s (setRestart n .wantPoll s)
  | restartPolled (good oc : Bool) (n : Nat) (s : State) (h : s.bus.tx = some (.pollRestart n)) :
      Acts (.restartPollAnswer good oc) s (restartPolled n (pollClass good oc) (setTx none s))
  | ackCard (plus : Bool) (n : Nat) (s : State) : Acts (.cack plus (some n)) s (setCard n (ackCard (cardAt s n)) s)
  | ackCards (plus : Bool) (s : State) : Acts (.cack plus none) s (s.setCards (bmap cardReset ackCard s.cards))
  | fpresAt (n : Nat) (present : Bool) (s : State) : Acts (.fpresChange n present) s (fpresAt n present s)
  | foundPresent (n : Nat) (s : State) : Acts (.fixturePresent n) s (foundPresent n s)
  | foundAbsent (n : Nat) (s : State) : Acts (.fixtureAbsent n) s (foundAbsent n s)
  | beginAdmission (plus : Bool) (n : Nat) (s : State) (h : admitRefusal s n = none) :
      Acts (.admitFixture plus n) s (beginAdmission n s)
  | admitWaitEnds (n : Nat) (s : State) : Acts (.admitWaitExpiry n) s (admitWaitEnds n s)
  | identityRead (n : Nat) (b0 b1 b2 b3 : Byte) (s : State) :
      Acts (.identityRecord n b0 b1 b2 b3) s (identityRead n b0 b1 b2 b3 s)
  | identityTimeout (n : Nat) (s : State) (h : (fixtureAt s n).stage = some .reading) :
      Acts (.identityReadTimeout n) s (failAdmission n .noid s)
  | supplyDown (n : Nat) (s : State) :
      Acts (.ffltAsserted n) s (watchSupply n (setFixture n { fixtureAt s n with fflt := true } s))
  | supplyUp (n : Nat) (s : State) : Acts (.ffltDeasserted n) s (setFixture n { fixtureAt s n with fflt := false } s)
  | toBench (plus : Bool) (n : Nat) (s : State) (h : appliedOnFixture s n = none) : Acts (.ownerBench plus n) s (toBench n s)
  | toLocal (plus : Bool) (n : Nat) (s : State) :
      Acts (.ownerLocal plus n) s (changeFixture n { fixtureAt s n with owner := .localOwner } s)
  | ackFixture (plus : Bool) (n : Nat) (s : State) :
      Acts (.fack plus (some n)) s (setFixture n (ackFixture (fixtureAt s n)) s)
  | ackFixtures (plus : Bool) (s : State) :
      Acts (.fack plus none) s (s.setFixtures (bmap fixtureReset ackFixture s.fixtures))
  -- interlocks and records
  | loopInputAt (n : Nat) (closed : Bool) (s : State) : Acts (.loopInputChange n closed) s (loopInputAt n closed s)
  | loopOpens (n : Nat) (s : State) : Acts (.loopOpened n) s (loopOpens n s)
  | loopCloses (n : Nat) (s : State) : Acts (.loopClosed n) s (loopCloses n s)
  | confirm (plus : Bool) (n : Nat) (s : State) : Acts (.confirm plus n) s (confirmLoop plus n s)
  | clearElem (plus : Bool) (e : Nat) (s : State) (h : eclrRefusal s e = none) : Acts (.eclr plus e) s (clearElem e s)
  | clearFault (plus : Bool) (s : State) :
      Acts (.fclear plus) s (s.setRecords { s.records with fault := none, more := 0 })
  | clearLate (plus : Bool) (s : State) :
      Acts (.lateclr plus) s (s.setRecords { s.records with
        late := 0, wear := bmap wearZero (fun w => { w with late := 0 }) s.records.wear })
  | setWear (plus : Bool) (e count : Nat) (s : State) :
      Acts (.wearset plus e count) s (s.setRecords { s.records with
        wear := bput wearZero s.records.wear e { wearAt s e with count := count, noticed := false } })

/-- At most one line has left the head of the line queue, and nothing else has changed. -/
def Taken (s u : State) : Prop :=
  u = s.setLink { s.link with lines := u.link.lines } ∧ ∃ l, s.link.lines = l ++ u.link.lines

theorem taken_refl (s : State) : Taken s s := ⟨rfl, [], rfl⟩

theorem taken_of_lineFor {i : Instr} {s u : State} (h : lineFor i s = some u) : Taken s u := by
  obtain ⟨same, ⟨l, lines, -⟩, -⟩ := lineFor_spec h
  exact ⟨same, l, lines⟩

/-- The state after a command that changed something: a line taken, the row's own effect, all that follows at once. -/
def Moves (i : Instr) (s t : State) : Prop := ∃ u v, Taken s u ∧ Acts i u v ∧ t = settle v

theorem Acts.answer {i : Instr} {s v : State} (plus : Bool) (r : Reply) (h : Acts i s v) : Acts i s (answer plus r v) :=
  h.replies _

theorem command_moves {i : Instr} {plus : Bool} {f : State → State} {s t : State} (h : command i plus f s = .next t)
    (acts : ∀ u, Takes i s u → Acts i u (f u)) : t = s ∨ Moves i s t := by
  rcases command_cases i plus f s with e | ⟨u, line, -, e⟩ | ⟨u, c, line, -, -, e⟩ | ⟨u, takes, e⟩ <;>
    rw [e] at h <;> cases h
  · exact .inl rfl
  · exact .inr ⟨u, _, taken_of_lineFor line, (Acts.nothing i u).answer _ _, rfl⟩
  · exact .inr ⟨u, _, taken_of_lineFor line, (Acts.nothing i u).answer _ _, rfl⟩
  · exact .inr ⟨u, _, taken_of_lineFor takes.1, acts u takes, rfl⟩

theorem event_moves {i : Instr} {f : State → State} {s t : State} (h : event i f s = .next t)
    (acts : Acts i s (f s)) : t = s ∨ Moves i s t := by
  rcases event_cases i f s with ⟨-, e⟩ | ⟨x, -, e⟩ <;> rw [e] at h <;> cases h
  exact .inr ⟨s, _, taken_refl s, acts, rfl⟩

/-- A checked command acts, with every check passed, or is refused. -/
theorem acts_checked {i : Instr} {plus : Bool} {checks : List (Bool × Reply)} {effect : State → State} {s : State}
    (acts : firstRefusal checks = none → Acts i s (effect s)) : Acts i s (checked plus checks effect s) := by
  unfold checked
  split
  · exact (Acts.nothing i s).answer _ _
  · rename_i h; exact (acts h).answer _ _

theorem firstRefusal_eq_none {l : List (Bool × Reply)} : firstRefusal l = none ↔ ∀ p ∈ l, p.1 = false := by
  induction l with
  | nil => simp [firstRefusal]
  | cons p l ih => cases h : p.1 <;> simp [firstRefusal, h, ih]

theorem within_iff (lo hi n : Nat) : within lo hi n = true ↔ lo ≤ n ∧ n ≤ hi := by simp [within]

theorem decoderCheck_eq_none {form range : Bool} (h : decoderCheck form range = none) : form = true ∧ range = true := by
  cases form <;> cases range <;> simp_all [decoderCheck]

theorem routeRefusal_none {s : State} {r src dst : Nat} {hops : List (Nat × Nat)} (h : routeRefusal s r src dst hops = none) :
    routeHeld s r = false ∧ routePending s r = false ∧ undefPort s src dst = none ∧ src ≠ dst
    ∧ firstRepeat [] (hops.map fun h => h.1) = none := by
  unfold routeRefusal at h
  split at h; · contradiction
  split at h; · contradiction
  split at h; · contradiction
  rename_i held pending _ items
  split at h; · contradiction
  split at h; · contradiction
  rename_i ends
  have ports : undefPort s src dst = none := by
    unfold undefItem at items
    cases e : undefPort s src dst <;> simp_all
  exact ⟨by simpa using held, by simpa using pending, ports, ends, by simpa using h⟩

theorem findRefusal_none {s : State} {r src dst : Nat} (h : findRefusal s r src dst = none) :
    routeHeld s r = false ∧ routePending s r = false ∧ undefPort s src dst = none ∧ src ≠ dst := by
  unfold findRefusal at h
  split at h; · contradiction
  split at h; · contradiction
  split at h; · contradiction
  split at h; · contradiction
  rename_i held pending _ ports ends
  exact ⟨by simpa using held, by simpa using pending, ports, ends⟩

/-! #### One lemma per row -/

theorem execPowerOn_moves {s t : State} (h : execPowerOn s = .next t) :
    t = s ∨ Moves .powerOn s t := 
  event_moves h (.beginReset _ _ rfl)

theorem execResetNAsserted_moves {s t : State} (h : execResetNAsserted s = .next t) :
    t = s ∨ Moves .resetNAsserted s t := 
  event_moves h (.beginReset _ _ rfl)

theorem execReset_moves {plus : Bool} {s t : State} (h : execReset plus s = .next t) :
    t = s ∨ Moves (.reset plus) s t := 
  command_moves h fun u _ => (Acts.nothing _ u).replies _

theorem execResetEnd_moves {s t : State} (h : execResetEnd s = .next t) :
    t = s ∨ Moves .resetEnd s t := by
  refine event_moves h ?_
  split
  · rename_i phase; exact .startUp _ phase
  · exact .nothing _ _

theorem execDiscoveryEnd_moves {s t : State} (h : execDiscoveryEnd s = .next t) :
    t = s ∨ Moves .discoveryEnd s t := 
  event_moves h (.endDiscovery _)

theorem execLineReceived_moves {chars : List Byte} {framingError : Bool} {s t : State} (h : execLineReceived chars framingError s = .next t) :
    t = s ∨ Moves (.lineReceived chars framingError) s t := by
  refine event_moves h ?_
  (repeat' split) <;> first | exact .nothing _ _ | exact .queueLine _ _ _ _

theorem execSyntaxRefusal_moves {s t : State} (h : execSyntaxRefusal s = .next t) :
    t = s ∨ Moves .syntaxRefusal s t := by
  refine event_moves h ?_
  split
  · split
    · exact .nothing _ _
    · rename_i l rest lines
      split
      · exact .nothing _ _
      · exact (Acts.dropLine _ l rest lines).answer _ _
  · exact .nothing _ _

theorem execLineSent_moves {s t : State} (h : execLineSent s = .next t) : t = s ∨ Moves .lineSent s t := by
  refine event_moves h ?_
  unfold lineLeft
  split
  · exact .nothing _ _
  · rename_i n tx; exact .noticeSent s n tx
  · rename_i tx
    cases slot : s.link.slot with
    | none => exact .replySent s tx
    | some o =>
      cases r : o.thenReset with
      | true => simpa [r] using Acts.beginReset .command s (i := .lineSent) (by simp [resets, slot, r])
      | false => simpa [r] using Acts.replySent s tx

theorem execNoteGapExpiry_moves {s t : State} (h : execNoteGapExpiry s = .next t) :
    t = s ∨ Moves .noteGapExpiry s t := 
  event_moves h (.gapExpires _)

theorem execNote_moves {plus : Bool} {change : Option (NoteSel × Nat)} {s t : State} (h : execNote plus change s = .next t) :
    t = s ∨ Moves (.note plus change) s t := by
  refine command_moves h fun u _ => ?_
  split
  · exact (Acts.nothing _ u).answer _ _
  · exact (Acts.mask plus _ _ u).answer _ _

theorem execStat_moves {plus : Bool} {s t : State} (h : execStat plus s = .next t) :
    t = s ∨ Moves (.stat plus) s t := 
  command_moves h fun u _ => (Acts.nothing _ u).answer _ _

theorem execSync_moves {plus : Bool} {s t : State} (h : execSync plus s = .next t) :
    t = s ∨ Moves (.sync plus) s t := 
  command_moves h fun u _ => .holds _ u

theorem execSite_moves {plus : Bool} {name : Setting} {value : Option SettingValue} {s t : State} (h : execSite plus name value s = .next t) :
    t = s ∨ Moves (.site plus name value) s t := by
  refine command_moves h fun u _ => ?_
  split
  · exact (Acts.nothing _ u).answer _ _
  · split
    · exact (Acts.nothing _ u).answer _ _
    · exact (Acts.setSite _ u).answer _ _

theorem execSitesave_moves {plus : Bool} {s t : State} (h : execSitesave plus s = .next t) :
    t = s ∨ Moves (.sitesave plus) s t := 
  command_moves h fun u _ => .holds _ u

theorem execWipe_moves {plus : Bool} {s t : State} (h : execWipe plus s = .next t) :
    t = s ∨ Moves (.wipe plus) s t := by
  refine command_moves h fun u _ => ?_
  split
  all_goals first | exact .holds _ u | exact (Acts.nothing _ u).answer _ _

theorem execStoreWriteEnd_moves {result : WriteResult} {s t : State} (h : execStoreWriteEnd result s = .next t) :
    t = s ∨ Moves (.storeWriteEnd result) s t := 
  event_moves h (.writeEnds result _)

theorem execElem_moves {plus : Bool} {e : Nat} {kind : ElemKind} {n card slot pulse settle guard life : Nat} {s t : State} (h : execElem plus e kind n card slot pulse settle guard life s = .next t) :
    t = s ∨ Moves (.elem plus e kind n card slot pulse settle guard life) s t := by
  refine command_moves h fun u _ => acts_checked fun passed => ?_
  simp [firstRefusal_eq_none, elemOpen] at passed
  exact .defineElem _ _ _ _ _ _ _ _ _ _ _ u passed.2.1.1 passed.2.1.2 passed.2.2.2.2

theorem execElemdel_moves {plus : Bool} {e : Nat} {s t : State} (h : execElemdel plus e s = .next t) :
    t = s ∨ Moves (.elemdel plus e) s t := by
  refine command_moves h fun u _ => acts_checked fun passed => ?_
  simp [firstRefusal_eq_none, elemOpen] at passed
  exact .deleteElem _ _ u passed.2.1.1 passed.2.1.2 passed.2.2.2

theorem execPort_moves {plus : Bool} {p : Nat} {cls : PortClass} {fixture : Option Nat} {s t : State} (h : execPort plus p cls fixture s = .next t) :
    t = s ∨ Moves (.port plus p cls fixture) s t := by
  refine command_moves h fun u _ => acts_checked fun passed => ?_
  simp [firstRefusal_eq_none, editOpen] at passed
  exact .definePort _ _ _ _ u passed.2.1

theorem execPortdel_moves {plus : Bool} {p : Nat} {s t : State} (h : execPortdel plus p s = .next t) :
    t = s ∨ Moves (.portdel plus p) s t := by
  refine command_moves h fun u _ => acts_checked fun passed => ?_
  simp [firstRefusal_eq_none, editOpen] at passed
  exact .deletePort _ _ u passed.2.1

theorem execLeg_moves {plus : Bool} {a b : Terminal} {s t : State} (h : execLeg plus a b s = .next t) :
    t = s ∨ Moves (.leg plus a b) s t := by
  refine command_moves h fun u _ => acts_checked fun passed => ?_
  simp [firstRefusal_eq_none, editOpen] at passed
  exact .joinLeg _ _ _ u passed.2.1 passed.2.2.2.2.1

theorem execLegCut_moves {plus : Bool} {a : Terminal} {s t : State} (h : execLegCut plus a s = .next t) :
    t = s ∨ Moves (.legCut plus a) s t := by
  refine command_moves h fun u _ => acts_checked fun passed => ?_
  simp [firstRefusal_eq_none, editOpen] at passed
  exact .removeLeg _ _ u passed.2.1

theorem execElemQuery_moves {plus : Bool} {e : Nat} {s t : State} (h : execElemQuery plus e s = .next t) :
    t = s ∨ Moves (.elemQuery plus e) s t := by
  refine command_moves h fun u _ => ?_
  split
  · exact (Acts.nothing _ u).answer _ _
  · exact (Acts.nothing _ u).answer _ _

theorem execPortQuery_moves {plus : Bool} {p : Nat} {s t : State} (h : execPortQuery plus p s = .next t) :
    t = s ∨ Moves (.portQuery plus p) s t := by
  refine command_moves h fun u _ => ?_
  split
  · exact (Acts.nothing _ u).answer _ _
  · exact (Acts.nothing _ u).answer _ _

theorem execLegQuery_moves {plus : Bool} {a : Terminal} {s t : State} (h : execLegQuery plus a s = .next t) :
    t = s ∨ Moves (.legQuery plus a) s t := by
  refine command_moves h fun u _ => ?_
  split
  · exact (Acts.nothing _ u).answer _ _
  split
  · exact (Acts.nothing _ u).answer _ _
  · exact (Acts.nothing _ u).answer _ _

theorem execNetQuery_moves {plus : Bool} {s t : State} (h : execNetQuery plus s = .next t) :
    t = s ∨ Moves (.netQuery plus) s t := 
  command_moves h fun u _ => (Acts.nothing _ u).answer _ _

theorem execEcal_moves {plus : Bool} {e k : Nat} {slot : Option Nat} {s t : State} (h : execEcal plus e k slot s = .next t) :
    t = s ∨ Moves (.ecal plus e k slot) s t := by
  refine command_moves h fun u _ => ?_
  split
  · exact (Acts.nothing _ u).answer _ _
  · rename_i x defd
    split
    · exact (Acts.setRefs _ _ _ _ x _ u defd).answer _ _
    · exact (Acts.nothing _ u).answer _ _

theorem execPcal_moves {plus : Bool} {p : Nat} {slot : Option Nat} {s t : State} (h : execPcal plus p slot s = .next t) :
    t = s ∨ Moves (.pcal plus p slot) s t := by
  refine command_moves h fun u _ => ?_
  split
  · exact (Acts.nothing _ u).answer _ _
  · rename_i q defd
    exact (Acts.setCable _ _ _ q u defd).answer _ _

theorem execRel_moves {plus : Bool} {e : Nat} {s t : State} (h : execRel plus e s = .next t) :
    t = s ∨ Moves (.rel plus e) s t := by
  refine command_moves h fun u _ => ?_
  split
  · exact (Acts.nothing _ u).answer _ _
  · split
    · exact (Acts.setReleased _ u).answer _ _
    · exact (Acts.nothing _ u).answer _ _

theorem execUnrel_moves {plus : Bool} {e : Nat} {s t : State} (h : execUnrel plus e s = .next t) :
    t = s ∨ Moves (.unrel plus e) s t := 
  command_moves h fun u _ => acts_checked fun _ => .setReleased _ u

theorem execRelQuery_moves {plus : Bool} {s t : State} (h : execRelQuery plus s = .next t) :
    t = s ∨ Moves (.relQuery plus) s t := 
  command_moves h fun u _ => (Acts.nothing _ u).answer _ _

theorem execLock_moves {plus : Bool} {s t : State} (h : execLock plus s = .next t) :
    t = s ∨ Moves (.lock plus) s t := 
  command_moves h fun u _ => (Acts.setLocked _ u).answer _ _

theorem execUnlock_moves {plus : Bool} {s t : State} (h : execUnlock plus s = .next t) :
    t = s ∨ Moves (.unlock plus) s t := by
  refine command_moves h fun u _ => ?_
  split
  · exact (Acts.nothing _ u).answer _ _
  · exact (Acts.setLocked _ u).answer _ _

theorem execCurve_moves {plus : Bool} {c : Nat} {points : List (Nat × Int)} {s t : State} (h : execCurve plus c points s = .next t) :
    t = s ∨ Moves (.curve plus c points) s t := by
  refine command_moves h fun u _ => ?_
  split
  all_goals first | exact .holds _ u | exact (Acts.nothing _ u).answer _ _

theorem execCurvedel_moves {plus : Bool} {c : Nat} {s t : State} (h : execCurvedel plus c s = .next t) :
    t = s ∨ Moves (.curvedel plus c) s t := by
  refine command_moves h fun u _ => ?_
  split
  all_goals first | exact .holds _ u | exact (Acts.nothing _ u).answer _ _

theorem execCurveQuery_moves {plus : Bool} {c : Nat} {s t : State} (h : execCurveQuery plus c s = .next t) :
    t = s ∨ Moves (.curveQuery plus c) s t := by
  refine command_moves h fun u _ => ?_
  split
  · exact (Acts.nothing _ u).answer _ _
  · exact (Acts.nothing _ u).answer _ _

theorem execLoss_moves {plus : Bool} {r f : Nat} {s t : State} (h : execLoss plus r f s = .next t) :
    t = s ∨ Moves (.loss plus r f) s t := by
  refine command_moves h fun u _ => ?_
  split
  · exact (Acts.nothing _ u).answer _ _
  · exact (Acts.nothing _ u).answer _ _

theorem execLossParts_moves {plus : Bool} {r f : Nat} {s t : State} (h : execLossParts plus r f s = .next t) :
    t = s ∨ Moves (.lossParts plus r f) s t := by
  refine command_moves h fun u _ => ?_
  split
  · exact (Acts.nothing _ u).answer _ _
  · exact (Acts.nothing _ u).answer _ _

theorem execBal_moves {plus : Bool} {limit : Option Nat} {s t : State} (h : execBal plus limit s = .next t) :
    t = s ∨ Moves (.bal plus limit) s t := by
  refine command_moves h fun u _ => ?_
  cases limit with
  | none => exact (Acts.nothing _ u).answer _ _
  | some n => exact (Acts.setSite _ u).answer _ _

theorem execRoute_moves {plus : Bool} {r src dst : Nat} {hops : List (Nat × Nat)} {s t : State} (h : execRoute plus r src dst hops s = .next t) :
    t = s ∨ Moves (.route plus r src dst hops) s t := by
  refine command_moves h fun u _ => ?_
  split
  · exact (Acts.nothing _ u).answer _ _
  · rename_i passed
    obtain ⟨held, pending, ports, ends, distinct⟩ := routeRefusal_none passed
    split
    · exact (Acts.nothing _ u).answer _ _
    · rename_i path walked
      exact (Acts.defineRoute r src dst path false u held pending ports ends (.inl ⟨hops, distinct, walked⟩)).answer _ _

theorem execFind_moves {plus : Bool} {r src dst : Nat} {guarded : Bool} {s t : State} (h : execFind plus r src dst guarded s = .next t) :
    t = s ∨ Moves (.find plus r src dst guarded) s t := by
  refine command_moves h fun u _ => ?_
  split
  · exact (Acts.nothing _ u).answer _ _
  · rename_i passed
    obtain ⟨held, pending, ports, ends⟩ := findRefusal_none passed
    split
    · exact (Acts.nothing _ u).answer _ _
    · rename_i hops found
      exact (Acts.defineRoute r src dst hops true u held pending ports ends (.inr ⟨guarded, found⟩)).answer _ _

theorem execRoutedel_moves {plus : Bool} {r : Nat} {s t : State} (h : execRoutedel plus r s = .next t) :
    t = s ∨ Moves (.routedel plus r) s t := 
  command_moves h fun u _ => (Acts.deleteRoute plus r u).answer _ _

theorem execRouteQuery_moves {plus : Bool} {r : Nat} {s t : State} (h : execRouteQuery plus r s = .next t) :
    t = s ∨ Moves (.routeQuery plus r) s t := 
  command_moves h fun u _ => (Acts.nothing _ u).answer _ _

theorem execRoutesQuery_moves {plus : Bool} {state : Option RouteStateName} {s t : State} (h : execRoutesQuery plus state s = .next t) :
    t = s ∨ Moves (.routesQuery plus state) s t := 
  command_moves h fun u _ => (Acts.nothing _ u).answer _ _

theorem execGo_moves {plus : Bool} {ids : List Nat} {s t : State} (h : execGo plus ids s = .next t) :
    t = s ∨ Moves (.go plus ids) s t := by
  refine command_moves h fun u takes => ?_
  obtain ⟨len, -⟩ := decoderCheck_eq_none takes.2.2
  split
  · exact (Acts.nothing _ u).answer _ _
  · rename_i passed
    exact .requestGo plus ids u passed ((within_iff _ _ _).1 len).2

theorem execMuteAckAsserted_moves {s t : State} (h : execMuteAckAsserted s = .next t) :
    t = s ∨ Moves .muteAckAsserted s t := by
  refine event_moves h ?_
  simp only []
  split
  · rename_i muting; exact .muteSeen s muting
  · rename_i muting; exact .muteUp s muting

theorem execMuteAckDeasserted_moves {s t : State} (h : execMuteAckDeasserted s = .next t) :
    t = s ∨ Moves .muteAckDeasserted s t := 
  event_moves h (.muteDown s)

theorem execMuteWaitExpiry_moves {s t : State} (h : execMuteWaitExpiry s = .next t) :
    t = s ∨ Moves .muteWaitExpiry s t := by
  refine event_moves h ?_
  split
  · rename_i c
    simp only [Bool.and_eq_true, beq_iff_eq] at c
    exact .muteTimeout s c.1
  · exact .nothing _ _

theorem execDriveAcknowledged_moves {s t : State} (h : execDriveAcknowledged s = .next t) :
    t = s ∨ Moves .driveAcknowledged s t := by
  refine event_moves h ?_
  split
  · rename_i tx; exact .freeBus s _ _ _ _ _ tx
  · exact .nothing _ _

theorem execCardNoAnswer_moves {s t : State} (h : execCardNoAnswer s = .next t) :
    t = s ∨ Moves .cardNoAnswer s t := 
  event_moves h (.noAnswer s)

theorem execPulseEnd_moves {e : Nat} {s t : State} (h : execPulseEnd e s = .next t) :
    t = s ∨ Moves (.pulseEnd e) s t := 
  event_moves h (.pulseEnds e s)

theorem execSettleEnd_moves {e : Nat} {s t : State} (h : execSettleEnd e s = .next t) :
    t = s ∨ Moves (.settleEnd e) s t := 
  event_moves h (.settleEnds e s)

theorem execSenseResult_moves {indicated : Option Nat} {s t : State} (h : execSenseResult indicated s = .next t) :
    t = s ∨ Moves (.senseResult indicated) s t := 
  event_moves h (.senseReturns indicated s)

theorem execRetryDelayExpiry_moves {e : Nat} {s t : State} (h : execRetryDelayExpiry e s = .next t) :
    t = s ∨ Moves (.retryDelayExpiry e) s t := 
  event_moves h (.retryEnds e s)

theorem execHalt_moves {plus : Bool} {s t : State} (h : execHalt plus s = .next t) :
    t = s ∨ Moves (.halt plus) s t := 
  command_moves h fun u _ => (Acts.halt plus u).answer _ _

theorem execSurvey_moves {plus : Bool} {s t : State} (h : execSurvey plus s = .next t) :
    t = s ∨ Moves (.survey plus) s t := by
  refine command_moves h fun u _ => ?_
  split
  · exact (Acts.nothing _ u).answer _ _
  · rename_i c
    simp at c
    exact (Acts.survey plus u c.1 c.2).answer _ _

theorem execEngineQuery_moves {plus : Bool} {s t : State} (h : execEngineQuery plus s = .next t) :
    t = s ∨ Moves (.engineQuery plus) s t := 
  command_moves h fun u _ => (Acts.nothing _ u).answer _ _

theorem execAheadQuery_moves {plus : Bool} {s t : State} (h : execAheadQuery plus s = .next t) :
    t = s ∨ Moves (.aheadQuery plus) s t := 
  command_moves h fun u _ => (Acts.nothing _ u).answer _ _

theorem execStep_moves {plus : Bool} {i dwell rep freq : Nat} {flags : List StepFlag} {ids : List Nat} {s t : State} (h : execStep plus i dwell rep freq flags ids s = .next t) :
    t = s ∨ Moves (.step plus i dwell rep freq flags ids) s t := by
  refine command_moves h fun u takes => ?_
  obtain ⟨form, range⟩ := decoderCheck_eq_none takes.2.2
  simp only [Bool.and_eq_true, within_iff] at form range
  obtain ⟨⟨⟨-, low, high⟩, -⟩, -⟩ := range
  split
  · exact (Acts.nothing _ u).answer _ _
  · rename_i free
    split
    · exact (Acts.nothing _ u).answer _ _
    · exact (Acts.defineStep plus i dwell rep freq flags ids _ u (by simpa using free) form.1.2 rfl low high).answer _ _

theorem execStepdel_moves {plus : Bool} {i : Nat} {s t : State} (h : execStepdel plus i s = .next t) :
    t = s ∨ Moves (.stepdel plus i) s t := by
  refine command_moves h fun u _ => ?_
  split
  · exact (Acts.nothing _ u).answer _ _
  · rename_i free
    split
    · exact (Acts.nothing _ u).answer _ _
    · exact (Acts.deleteStep plus i u (by simpa using free)).answer _ _

theorem execStepQuery_moves {plus : Bool} {i : Nat} {s t : State} (h : execStepQuery plus i s = .next t) :
    t = s ∨ Moves (.stepQuery plus i) s t := by
  refine command_moves h fun u _ => ?_
  split
  · exact (Acts.nothing _ u).answer _ _
  · exact (Acts.nothing _ u).answer _ _

theorem execRing_moves {plus : Bool} {len : Nat} {s t : State} (h : execRing plus len s = .next t) :
    t = s ∨ Moves (.ring plus len) s t := by
  refine command_moves h fun u takes => ?_
  obtain ⟨-, range⟩ := decoderCheck_eq_none takes.2.2
  split
  · exact (Acts.nothing _ u).answer _ _
  · rename_i runs
    obtain ⟨low, high⟩ := (within_iff _ _ _).1 range
    exact (Acts.setRingLen plus len u (by simpa using runs) low high).answer _ _

theorem execRun_moves {plus : Bool} {i : Nat} {s t : State} (h : execRun plus i s = .next t) :
    t = s ∨ Moves (.run plus i) s t := by
  refine command_moves h fun u _ => ?_
  split
  · exact (Acts.nothing _ u).answer _ _
  split
  · exact (Acts.nothing _ u).answer _ _
  split
  · exact (Acts.nothing _ u).answer _ _
  · rename_i range runs busy
    simp at busy
    exact .startRun plus i u (by omega) (by simpa using runs) busy.1 busy.2

theorem execMarkTimerExpiry_moves {s t : State} (h : execMarkTimerExpiry s = .next t) :
    t = s ∨ Moves .markTimerExpiry s t := 
  event_moves h (.markEnds s)

theorem execDwellExpiry_moves {s t : State} (h : execDwellExpiry s = .next t) :
    t = s ∨ Moves .dwellExpiry s t := 
  event_moves h (.dwellEnds s)

theorem execTrigIn_moves {s t : State} (h : execTrigIn s = .next t) :
    t = s ∨ Moves .trigIn s t := 
  event_moves h (.trigger s)

theorem execTrig_moves {plus : Bool} {s t : State} (h : execTrig plus s = .next t) :
    t = s ∨ Moves (.trig plus) s t := 
  command_moves h fun u _ => .trig plus u

theorem execHold_moves {plus : Bool} {s t : State} (h : execHold plus s = .next t) :
    t = s ∨ Moves (.hold plus) s t := 
  command_moves h fun u _ => (Acts.hold plus u).answer _ _

theorem execResume_moves {plus : Bool} {s t : State} (h : execResume plus s = .next t) :
    t = s ∨ Moves (.resume plus) s t := 
  command_moves h fun u _ => (Acts.resume plus u).answer _ _

theorem execStop_moves {plus : Bool} {s t : State} (h : execStop plus s = .next t) :
    t = s ∨ Moves (.stop plus) s t := 
  command_moves h fun u _ => (Acts.stop plus u).answer _ _

theorem execReportQuery_moves {plus : Bool} {s t : State} (h : execReportQuery plus s = .next t) :
    t = s ∨ Moves (.reportQuery plus) s t := 
  command_moves h fun u _ => (Acts.nothing _ u).answer _ _

theorem execRingQuery_moves {plus : Bool} {s t : State} (h : execRingQuery plus s = .next t) :
    t = s ∨ Moves (.ringQuery plus) s t := by
  refine command_moves h fun u _ => ?_
  split
  · exact (Acts.dwellRead plus u).answer _ _
  · exact (Acts.nothing _ u).answer _ _

theorem execPollGapExpiry_moves {s t : State} (h : execPollGapExpiry s = .next t) :
    t = s ∨ Moves .pollGapExpiry s t := by
  refine event_moves h ?_
  split
  · exact .beginRound s
  · exact .nothing _ _

theorem execPollAnswer_moves {supplyGood overcurrent : Bool} {s t : State} (h : execPollAnswer supplyGood overcurrent s = .next t) :
    t = s ∨ Moves (.pollAnswer supplyGood overcurrent) s t := 
  event_moves h (.polled supplyGood overcurrent s)

theorem execCardRestart_moves {plus : Bool} {n : Nat} {s t : State} (h : execCardRestart plus n s = .next t) :
    t = s ∨ Moves (.cardRestart plus n) s t := by
  refine command_moves h fun u _ => ?_
  split
  · exact (Acts.nothing _ u).answer _ _
  · rename_i passed; exact (Acts.beginRestart plus n u passed).answer _ _

theorem execRestartAck_moves {s t : State} (h : execRestartAck s = .next t) :
    t = s ∨ Moves .restartAck s t := by
  refine event_moves h ?_
  split
  · rename_i n tx; exact .restartAcked n s tx
  · exact .nothing _ _

theorem execRestartWaitExpiry_moves {n : Nat} {s t : State} (h : execRestartWaitExpiry n s = .next t) :
    t = s ∨ Moves (.restartWaitExpiry n) s t := by
  refine event_moves h ?_
  split
  · rename_i waiting; exact .restartWaited n s waiting
  · exact .nothing _ _

theorem execRestartPollAnswer_moves {supplyGood overcurrent : Bool} {s t : State} (h : execRestartPollAnswer supplyGood overcurrent s = .next t) :
    t = s ∨ Moves (.restartPollAnswer supplyGood overcurrent) s t := by
  refine event_moves h ?_
  split
  · rename_i n tx; exact .restartPolled supplyGood overcurrent n s tx
  · exact .nothing _ _

theorem execCack_moves {plus : Bool} {n : Option Nat} {s t : State} (h : execCack plus n s = .next t) :
    t = s ∨ Moves (.cack plus n) s t := by
  refine command_moves h fun u _ => ?_
  cases n with
  | none => exact (Acts.ackCards plus u).answer _ _
  | some n => exact (Acts.ackCard plus n u).answer _ _

theorem execCardQuery_moves {plus : Bool} {n : Nat} {s t : State} (h : execCardQuery plus n s = .next t) :
    t = s ∨ Moves (.cardQuery plus n) s t := 
  command_moves h fun u _ => (Acts.nothing _ u).answer _ _

theorem execCardsQuery_moves {plus : Bool} {s t : State} (h : execCardsQuery plus s = .next t) :
    t = s ∨ Moves (.cardsQuery plus) s t := 
  command_moves h fun u _ => (Acts.nothing _ u).answer _ _

theorem execFpresChange_moves {n : Nat} {present : Bool} {s t : State} (h : execFpresChange n present s = .next t) :
    t = s ∨ Moves (.fpresChange n present) s t := 
  event_moves h (.fpresAt n present s)

theorem execFixturePresent_moves {n : Nat} {s t : State} (h : execFixturePresent n s = .next t) :
    t = s ∨ Moves (.fixturePresent n) s t := 
  event_moves h (.foundPresent n s)

theorem execFixtureAbsent_moves {n : Nat} {s t : State} (h : execFixtureAbsent n s = .next t) :
    t = s ∨ Moves (.fixtureAbsent n) s t := 
  event_moves h (.foundAbsent n s)

theorem execAdmitFixture_moves {plus : Bool} {n : Nat} {s t : State} (h : execAdmitFixture plus n s = .next t) :
    t = s ∨ Moves (.admitFixture plus n) s t := by
  refine command_moves h fun u _ => ?_
  split
  · exact (Acts.nothing _ u).answer _ _
  · rename_i passed; exact (Acts.beginAdmission plus n u passed).answer _ _

theorem execAdmitWaitExpiry_moves {n : Nat} {s t : State} (h : execAdmitWaitExpiry n s = .next t) :
    t = s ∨ Moves (.admitWaitExpiry n) s t := 
  event_moves h (.admitWaitEnds n s)

theorem execIdentityRecord_moves {n : Nat} {b0 b1 b2 b3 : Byte} {s t : State} (h : execIdentityRecord n b0 b1 b2 b3 s = .next t) :
    t = s ∨ Moves (.identityRecord n b0 b1 b2 b3) s t := 
  event_moves h (.identityRead n b0 b1 b2 b3 s)

theorem execIdentityReadTimeout_moves {n : Nat} {s t : State} (h : execIdentityReadTimeout n s = .next t) :
    t = s ∨ Moves (.identityReadTimeout n) s t := by
  refine event_moves h ?_
  split
  · rename_i reading; exact .identityTimeout n s reading
  · exact .nothing _ _

theorem execFfltAsserted_moves {n : Nat} {s t : State} (h : execFfltAsserted n s = .next t) :
    t = s ∨ Moves (.ffltAsserted n) s t := 
  event_moves h (.supplyDown n s)

theorem execOwnerBench_moves {plus : Bool} {n : Nat} {s t : State} (h : execOwnerBench plus n s = .next t) :
    t = s ∨ Moves (.ownerBench plus n) s t := by
  refine command_moves h fun u _ => ?_
  split
  · exact (Acts.nothing _ u).answer _ _
  · rename_i passed
    split
    · exact (Acts.nothing _ u).answer _ _
    · exact (Acts.toBench plus n u passed).answer _ _

theorem execOwnerLocal_moves {plus : Bool} {n : Nat} {s t : State} (h : execOwnerLocal plus n s = .next t) :
    t = s ∨ Moves (.ownerLocal plus n) s t := by
  refine command_moves h fun u _ => ?_
  split
  · exact (Acts.nothing _ u).answer _ _
  · exact (Acts.toLocal plus n u).answer _ _

theorem execFack_moves {plus : Bool} {n : Option Nat} {s t : State} (h : execFack plus n s = .next t) :
    t = s ∨ Moves (.fack plus n) s t := by
  refine command_moves h fun u _ => ?_
  cases n with
  | none => exact (Acts.ackFixtures plus u).answer _ _
  | some n => exact (Acts.ackFixture plus n u).answer _ _

theorem execFixQuery_moves {plus : Bool} {n : Nat} {s t : State} (h : execFixQuery plus n s = .next t) :
    t = s ∨ Moves (.fixQuery plus n) s t := 
  command_moves h fun u _ => (Acts.nothing _ u).answer _ _

theorem execFixesQuery_moves {plus : Bool} {s t : State} (h : execFixesQuery plus s = .next t) :
    t = s ∨ Moves (.fixesQuery plus) s t := 
  command_moves h fun u _ => (Acts.nothing _ u).answer _ _

theorem execLoopInputChange_moves {n : Nat} {closed : Bool} {s t : State} (h : execLoopInputChange n closed s = .next t) :
    t = s ∨ Moves (.loopInputChange n closed) s t := 
  event_moves h (.loopInputAt n closed s)

theorem execLoopOpened_moves {n : Nat} {s t : State} (h : execLoopOpened n s = .next t) :
    t = s ∨ Moves (.loopOpened n) s t := 
  event_moves h (.loopOpens n s)

theorem execLoopClosed_moves {n : Nat} {s t : State} (h : execLoopClosed n s = .next t) :
    t = s ∨ Moves (.loopClosed n) s t := 
  event_moves h (.loopCloses n s)

theorem execConfirm_moves {plus : Bool} {n : Nat} {s t : State} (h : execConfirm plus n s = .next t) :
    t = s ∨ Moves (.confirm plus n) s t := 
  command_moves h fun u _ => .confirm plus n u

theorem execIlkQuery_moves {plus : Bool} {s t : State} (h : execIlkQuery plus s = .next t) :
    t = s ∨ Moves (.ilkQuery plus) s t := 
  command_moves h fun u _ => (Acts.nothing _ u).answer _ _

theorem execMuteQuery_moves {plus : Bool} {s t : State} (h : execMuteQuery plus s = .next t) :
    t = s ∨ Moves (.muteQuery plus) s t := 
  command_moves h fun u _ => (Acts.nothing _ u).answer _ _

theorem execEclr_moves {plus : Bool} {e : Nat} {s t : State} (h : execEclr plus e s = .next t) :
    t = s ∨ Moves (.eclr plus e) s t := by
  refine command_moves h fun u _ => ?_
  split
  · exact (Acts.nothing _ u).answer _ _
  · rename_i passed; exact (Acts.clearElem plus e u passed).answer _ _

theorem execFaultQuery_moves {plus : Bool} {s t : State} (h : execFaultQuery plus s = .next t) :
    t = s ∨ Moves (.faultQuery plus) s t := 
  command_moves h fun u _ => (Acts.nothing _ u).answer _ _

theorem execFclear_moves {plus : Bool} {s t : State} (h : execFclear plus s = .next t) :
    t = s ∨ Moves (.fclear plus) s t := 
  command_moves h fun u _ => (Acts.clearFault plus u).answer _ _

theorem execLateQuery_moves {plus : Bool} {s t : State} (h : execLateQuery plus s = .next t) :
    t = s ∨ Moves (.lateQuery plus) s t := 
  command_moves h fun u _ => (Acts.nothing _ u).answer _ _

theorem execLateclr_moves {plus : Bool} {s t : State} (h : execLateclr plus s = .next t) :
    t = s ∨ Moves (.lateclr plus) s t := 
  command_moves h fun u _ => (Acts.clearLate plus u).answer _ _

theorem execWearset_moves {plus : Bool} {e count : Nat} {s t : State} (h : execWearset plus e count s = .next t) :
    t = s ∨ Moves (.wearset plus e count) s t := 
  command_moves h fun u _ => (Acts.setWear plus e count u).answer _ _

theorem execWearQuery_moves {plus : Bool} {e : Nat} {s t : State} (h : execWearQuery plus e s = .next t) :
    t = s ∨ Moves (.wearQuery plus e) s t := 
  command_moves h fun u _ => (Acts.nothing _ u).answer _ _

theorem execWearsave_moves {plus : Bool} {s t : State} (h : execWearsave plus s = .next t) :
    t = s ∨ Moves (.wearsave plus) s t := 
  command_moves h fun u _ => .holds _ u

theorem execFfltDeasserted_moves {n : Nat} {s t : State} (h : execFfltDeasserted n s = .next t) :
    t = s ∨ Moves (.ffltDeasserted n) s t := 
  event_moves h (.supplyUp n s)

/-- The inversion of `exec`: a row that answers next changes nothing, or takes its line, acts and settles. -/
theorem exec_moves {i : Instr} {s t : State} (h : exec i s = .next t) : t = s ∨ Moves i s t := by
  cases i with
  | powerOn => exact execPowerOn_moves h
  | resetNAsserted => exact execResetNAsserted_moves h
  | reset _ => exact execReset_moves h
  | resetEnd => exact execResetEnd_moves h
  | discoveryEnd => exact execDiscoveryEnd_moves h
  | lineReceived _ _ => exact execLineReceived_moves h
  | syntaxRefusal => exact execSyntaxRefusal_moves h
  | lineSent => exact execLineSent_moves h
  | noteGapExpiry => exact execNoteGapExpiry_moves h
  | note _ _ => exact execNote_moves h
  | stat _ => exact execStat_moves h
  | sync _ => exact execSync_moves h
  | site _ _ _ => exact execSite_moves h
  | sitesave _ => exact execSitesave_moves h
  | wipe _ => exact execWipe_moves h
  | storeWriteEnd _ => exact execStoreWriteEnd_moves h
  | elem _ _ _ _ _ _ _ _ _ _ => exact execElem_moves h
  | elemdel _ _ => exact execElemdel_moves h
  | port _ _ _ _ => exact execPort_moves h
  | portdel _ _ => exact execPortdel_moves h
  | leg _ _ _ => exact execLeg_moves h
  | legCut _ _ => exact execLegCut_moves h
  | elemQuery _ _ => exact execElemQuery_moves h
  | portQuery _ _ => exact execPortQuery_moves h
  | legQuery _ _ => exact execLegQuery_moves h
  | netQuery _ => exact execNetQuery_moves h
  | ecal _ _ _ _ => exact execEcal_moves h
  | pcal _ _ _ => exact execPcal_moves h
  | rel _ _ => exact execRel_moves h
  | unrel _ _ => exact execUnrel_moves h
  | relQuery _ => exact execRelQuery_moves h
  | lock _ => exact execLock_moves h
  | unlock _ => exact execUnlock_moves h
  | curve _ _ _ => exact execCurve_moves h
  | curvedel _ _ => exact execCurvedel_moves h
  | curveQuery _ _ => exact execCurveQuery_moves h
  | loss _ _ _ => exact execLoss_moves h
  | lossParts _ _ _ => exact execLossParts_moves h
  | bal _ _ => exact execBal_moves h
  | route _ _ _ _ _ => exact execRoute_moves h
  | find _ _ _ _ _ => exact execFind_moves h
  | routedel _ _ => exact execRoutedel_moves h
  | routeQuery _ _ => exact execRouteQuery_moves h
  | routesQuery _ _ => exact execRoutesQuery_moves h
  | go _ _ => exact execGo_moves h
  | muteAckAsserted => exact execMuteAckAsserted_moves h
  | muteAckDeasserted => exact execMuteAckDeasserted_moves h
  | muteWaitExpiry => exact execMuteWaitExpiry_moves h
  | driveAcknowledged => exact execDriveAcknowledged_moves h
  | cardNoAnswer => exact execCardNoAnswer_moves h
  | pulseEnd _ => exact execPulseEnd_moves h
  | settleEnd _ => exact execSettleEnd_moves h
  | senseResult _ => exact execSenseResult_moves h
  | retryDelayExpiry _ => exact execRetryDelayExpiry_moves h
  | halt _ => exact execHalt_moves h
  | survey _ => exact execSurvey_moves h
  | engineQuery _ => exact execEngineQuery_moves h
  | aheadQuery _ => exact execAheadQuery_moves h
  | step _ _ _ _ _ _ _ => exact execStep_moves h
  | stepdel _ _ => exact execStepdel_moves h
  | stepQuery _ _ => exact execStepQuery_moves h
  | ring _ _ => exact execRing_moves h
  | run _ _ => exact execRun_moves h
  | markTimerExpiry => exact execMarkTimerExpiry_moves h
  | dwellExpiry => exact execDwellExpiry_moves h
  | trigIn => exact execTrigIn_moves h
  | trig _ => exact execTrig_moves h
  | hold _ => exact execHold_moves h
  | resume _ => exact execResume_moves h
  | stop _ => exact execStop_moves h
  | reportQuery _ => exact execReportQuery_moves h
  | ringQuery _ => exact execRingQuery_moves h
  | pollGapExpiry => exact execPollGapExpiry_moves h
  | pollAnswer _ _ => exact execPollAnswer_moves h
  | cardRestart _ _ => exact execCardRestart_moves h
  | restartAck => exact execRestartAck_moves h
  | restartWaitExpiry _ => exact execRestartWaitExpiry_moves h
  | restartPollAnswer _ _ => exact execRestartPollAnswer_moves h
  | cack _ _ => exact execCack_moves h
  | cardQuery _ _ => exact execCardQuery_moves h
  | cardsQuery _ => exact execCardsQuery_moves h
  | fpresChange _ _ => exact execFpresChange_moves h
  | fixturePresent _ => exact execFixturePresent_moves h
  | fixtureAbsent _ => exact execFixtureAbsent_moves h
  | admitFixture _ _ => exact execAdmitFixture_moves h
  | admitWaitExpiry _ => exact execAdmitWaitExpiry_moves h
  | identityRecord _ _ _ _ _ => exact execIdentityRecord_moves h
  | identityReadTimeout _ => exact execIdentityReadTimeout_moves h
  | ffltAsserted _ => exact execFfltAsserted_moves h
  | ownerBench _ _ => exact execOwnerBench_moves h
  | ownerLocal _ _ => exact execOwnerLocal_moves h
  | fack _ _ => exact execFack_moves h
  | fixQuery _ _ => exact execFixQuery_moves h
  | fixesQuery _ => exact execFixesQuery_moves h
  | loopInputChange _ _ => exact execLoopInputChange_moves h
  | loopOpened _ => exact execLoopOpened_moves h
  | loopClosed _ => exact execLoopClosed_moves h
  | confirm _ _ => exact execConfirm_moves h
  | ilkQuery _ => exact execIlkQuery_moves h
  | muteQuery _ => exact execMuteQuery_moves h
  | eclr _ _ => exact execEclr_moves h
  | faultQuery _ => exact execFaultQuery_moves h
  | fclear _ => exact execFclear_moves h
  | lateQuery _ => exact execLateQuery_moves h
  | lateclr _ => exact execLateclr_moves h
  | wearset _ _ _ => exact execWearset_moves h
  | wearQuery _ _ => exact execWearQuery_moves h
  | wearsave _ => exact execWearsave_moves h
  | ffltDeasserted _ => exact execFfltDeasserted_moves h

theorem step_moves {s t : State} (h : step s = .next t) :
    t = s ∨ ∃ i rest, s.pending = i :: rest ∧ (t = s.setPending rest ∨ Moves i (s.setPending rest) t) := by
  unfold step at h
  split at h
  · cases h; exact .inl rfl
  · rename_i i rest front
    exact .inr ⟨i, rest, front, exec_moves h⟩

/-- An invariant that survives the taking of a command and of a line, what each row does, and what follows at once,
survives every step. -/
theorem step_keeps {P : State → Prop} (pending : ∀ s l, P s → P (s.setPending l))
    (taken : ∀ s u, Taken s u → P s → P u) (acts : ∀ i s v, Acts i s v → P s → P v) (follows : ∀ s, P s → P (settle s))
    {s t : State} (p : P s) (h : step s = .next t) : P t := by
  rcases step_moves h with rfl | ⟨i, rest, -, rfl | ⟨u, v, line, act, rfl⟩⟩
  · exact p
  · exact pending s rest p
  · exact follows v (acts i u v act (taken _ u line (pending s rest p)))

end Sys2Proof.StepLaws

/-! ### The invariants that each operation keeps by itself

`Keeps s t`: what an operation that leads from `s` to `t` keeps of the ring's ranges, the queues, the tables, the pulse
budget and a present fault record. One lemma per operation, each from those it is made of. -/

namespace Sys2Proof.StepLaws

open Sys2Proof.Machine Sys2Proof.Laws

/-- The invariants that hold after an operation if they held before it. -/
structure Keeps (s t : State) : Prop where
  ring : RingSafe s → RingSafe t
  link : LinkSafe s → LinkSafe t
  tables : TablesSafe s → TablesSafe t
  budget : TablesSafe s → BudgetSafe s → BudgetSafe t
  fault : ∀ f, s.records.fault = some f → t.records.fault = some f

/-- The part of the state that `Keeps` speaks of. -/
def view (s : State) :=
  (s.ring, s.link.lines, s.link.notices, s.net.elems, s.net.ports, s.routes, s.cards, s.fixtures, s.loops, s.records,
    s.images, s.store.curves)

theorem ringSafe_congr {s t : State} (h : t.ring = s.ring) : RingSafe t ↔ RingSafe s := by
  unfold RingSafe visitLimit stepAt
  rw [h]

variable {s₀ s : State}

theorem Keeps.refl (s : State) : Keeps s s := ⟨id, id, id, fun _ => id, fun _ => id⟩

/-- An operation that leaves the view alone keeps everything. -/
theorem Keeps.other {t : State} (k : Keeps s₀ s) (h : view t = view s) : Keeps s₀ t := by
  simp only [view, Prod.mk.injEq] at h
  obtain ⟨ring, lines, notices, elems, ports, routes, cards, fixtures, loops, records, images, curves⟩ := h
  refine ⟨fun r => (ringSafe_congr ring).2 (k.ring r), fun l => ?_, fun t => ?_, fun t b n => ?_, fun f h => ?_⟩
  · have := k.link l
    rwa [LinkSafe, lines, notices]
  · have := k.tables t
    rwa [TablesSafe, ring, elems, ports, routes, cards, fixtures, loops, records, images, curves]
  · have := k.budget t b n
    rwa [cardAt, cards]
  · rw [records]; exact k.fault f h

theorem Keeps.ite {c : Prop} [Decidable c] {a b : State} (ha : Keeps s₀ a) (hb : Keeps s₀ b) :
    Keeps s₀ (if c then a else b) := by
  split
  · exact ha
  · exact hb

theorem Keeps.foldl {β : Type} {f : State → β → State} (h : ∀ s a, Keeps s₀ s → Keeps s₀ (f s a)) (l : List β)
    (k : Keeps s₀ s) : Keeps s₀ (l.foldl f s) := by
  induction l generalizing s with
  | nil => exact k
  | cons a l ih => exact ih (h s a k)

/-! #### Fields written -/

/-- A new link with no more lines and no more notices than before, or than the queues hold. -/
theorem Keeps.setLink (k : Keeps s₀ s) (v : Link) (lines : s.link.lines.length ≤ 8 → v.lines.length ≤ 8)
    (notices : s.link.notices.length ≤ 32 → v.notices.length ≤ 32) : Keeps s₀ (s.setLink v) :=
  ⟨k.ring, fun l => ⟨lines (k.link l).1, notices (k.link l).2⟩, k.tables, k.budget, k.fault⟩

theorem Keeps.setRing (k : Keeps s₀ s) (g : Ring) (ring : RingSafe s → RingSafe (s.setRing g))
    (steps : tableWf s.ring.steps = true → tableWf g.steps = true) : Keeps s₀ (s.setRing g) := by
  refine ⟨fun r => ring (k.ring r), k.link, fun t => ?_, k.budget, k.fault⟩
  obtain ⟨elems, ports, routes, old, rest⟩ := k.tables t
  exact ⟨elems, ports, routes, steps old, rest⟩

/-- A new ring with the same five fields that `RingSafe` reads. -/
theorem Keeps.setRing_same (k : Keeps s₀ s) (g : Ring) (steps : g.steps = s.ring.steps) (len : g.len = s.ring.len)
    (ptr : g.ptr = s.ring.ptr) (visit : g.visit = s.ring.visit) (pass : g.pass = s.ring.pass) :
    Keeps s₀ (s.setRing g) := by
  refine k.setRing g (fun r => ?_) (by rw [steps]; exact id)
  unfold RingSafe visitLimit stepAt at r ⊢
  simpa [steps, len, ptr, visit, pass] using r

theorem Keeps.setEngine (k : Keeps s₀ s) (v : Engine) : Keeps s₀ (s.setEngine v) := k.other rfl
theorem Keeps.setBus (k : Keeps s₀ s) (v : Bus) : Keeps s₀ (s.setBus v) := k.other rfl
theorem Keeps.setLatch (k : Keeps s₀ s) (v : Bool) : Keeps s₀ (s.setLatch v) := k.other rfl
theorem Keeps.setSite (k : Keeps s₀ s) (v : Site) : Keeps s₀ (s.setSite v) := k.other rfl

/-- A new link with the same lines and notices waiting. -/
theorem Keeps.setLink_same (k : Keeps s₀ s) (v : Link) (lines : v.lines = s.link.lines)
    (notices : v.notices = s.link.notices) : Keeps s₀ (s.setLink v) :=
  k.other (by simp [view, lines, notices])

theorem Keeps.setRoutes (k : Keeps s₀ s) (v : Table Route) (h : tableWf s.routes = true → tableWf v = true) :
    Keeps s₀ (s.setRoutes v) := by
  refine ⟨k.ring, k.link, fun t => ?_, k.budget, k.fault⟩
  obtain ⟨elems, ports, routes, rest⟩ := k.tables t
  exact ⟨elems, ports, h routes, rest⟩

theorem Keeps.setNet (k : Keeps s₀ s) (v : Net) (elems : tableWf s.net.elems = true → tableWf v.elems = true)
    (ports : tableWf s.net.ports = true → tableWf v.ports = true) : Keeps s₀ (s.setNet v) := by
  refine ⟨k.ring, k.link, fun t => ?_, k.budget, k.fault⟩
  obtain ⟨oldElems, oldPorts, rest⟩ := k.tables t
  exact ⟨elems oldElems, ports oldPorts, rest⟩

theorem Keeps.setCards (k : Keeps s₀ s) (v : Table Card) (wf : tableWf s.cards = true → tableWf v = true)
    (pulses : tableWf s.cards = true → BudgetSafe s → BudgetSafe (s.setCards v)) : Keeps s₀ (s.setCards v) := by
  refine ⟨k.ring, k.link, fun t => ?_, fun t b => ?_, k.fault⟩
  · obtain ⟨elems, ports, routes, steps, cards, rest⟩ := k.tables t
    exact ⟨elems, ports, routes, steps, wf cards, rest⟩
  · obtain ⟨-, -, -, -, cards, -⟩ := k.tables t
    exact pulses cards (k.budget t b)

/-- A card's record written, with at most two pulses if it had no more before. -/
theorem Keeps.setCard (k : Keeps s₀ s) (n : Nat) (c : Card) (h : (cardAt s n).pulses ≤ 2 → c.pulses ≤ 2) :
    Keeps s₀ (setCard n c s) := by
  refine k.setCards _ (tableWf_bput _ _ _) fun wf b m => ?_
  change (cardAt (Machine.setCard n c s) m).pulses ≤ 2
  rw [cardAt_setCard wf]
  split
  · exact h (b n)
  · exact b m

theorem Keeps.setFixtures (k : Keeps s₀ s) (v : Table Fixture) (h : tableWf s.fixtures = true → tableWf v = true) :
    Keeps s₀ (s.setFixtures v) := by
  refine ⟨k.ring, k.link, fun t => ?_, k.budget, k.fault⟩
  obtain ⟨elems, ports, routes, steps, cards, fixtures, rest⟩ := k.tables t
  exact ⟨elems, ports, routes, steps, cards, h fixtures, rest⟩

theorem Keeps.setLoops (k : Keeps s₀ s) (v : Table Loop) (h : tableWf s.loops = true → tableWf v = true) :
    Keeps s₀ (s.setLoops v) := by
  refine ⟨k.ring, k.link, fun t => ?_, k.budget, k.fault⟩
  obtain ⟨elems, ports, routes, steps, cards, fixtures, loops, rest⟩ := k.tables t
  exact ⟨elems, ports, routes, steps, cards, fixtures, h loops, rest⟩

theorem Keeps.setRecords (k : Keeps s₀ s) (v : Records) (wear : tableWf s.records.wear = true → tableWf v.wear = true)
    (fault : ∀ f, s.records.fault = some f → v.fault = some f) : Keeps s₀ (s.setRecords v) := by
  refine ⟨k.ring, k.link, fun t => ?_, k.budget, fun f h => fault f (k.fault f h)⟩
  obtain ⟨elems, ports, routes, steps, cards, fixtures, loops, old, rest⟩ := k.tables t
  exact ⟨elems, ports, routes, steps, cards, fixtures, loops, wear old, rest⟩

theorem Keeps.setImages (k : Keeps s₀ s) (v : Table Curve) (h : tableWf s.images = true → tableWf v = true) :
    Keeps s₀ (s.setImages v) := by
  refine ⟨k.ring, k.link, fun t => ?_, k.budget, k.fault⟩
  obtain ⟨elems, ports, routes, steps, cards, fixtures, loops, wear, images, curves⟩ := k.tables t
  exact ⟨elems, ports, routes, steps, cards, fixtures, loops, wear, h images, curves⟩

theorem Keeps.setStore (k : Keeps s₀ s) (v : Store) (h : tableWf s.store.curves = true → tableWf v.curves = true) :
    Keeps s₀ (s.setStore v) := by
  refine ⟨k.ring, k.link, fun t => ?_, k.budget, k.fault⟩
  obtain ⟨elems, ports, routes, steps, cards, fixtures, loops, wear, images, curves⟩ := k.tables t
  exact ⟨elems, ports, routes, steps, cards, fixtures, loops, wear, images, h curves⟩

/-! #### Notices, replies and records -/

theorem Keeps.enqueue (k : Keeps s₀ s) (n : Notice) : Keeps s₀ (enqueue n s) := by
  unfold Machine.enqueue
  split
  · rename_i room
    have room : s.link.notices.length < 32 := room
    exact k.setLink _ id fun _ => by simp only [List.length_append, List.length_cons, List.length_nil]; omega
  · exact k.other rfl

theorem Keeps.notify (k : Keeps s₀ s) (n : Notice) : Keeps s₀ (notify n s) := .ite (k.enqueue n) k

theorem Keeps.placeReply (k : Keeps s₀ s) (o : OutReply) : Keeps s₀ (placeReply o s) :=
  k.other (by unfold Machine.placeReply; split <;> rfl)

theorem Keeps.answer (k : Keeps s₀ s) (plus : Bool) (r : Reply) : Keeps s₀ (answer plus r s) := k.placeReply _

theorem Keeps.opEnded (k : Keeps s₀ s) (o : Op) : Keeps s₀ (opEnded o s) :=
  k.other (by unfold Machine.opEnded; split <;> rfl)

theorem Keeps.stepEntry (k : Keeps s₀ s) (index pass : Nat) : Keeps s₀ (stepEntry index pass s) := by
  unfold Machine.stepEntry
  split
  · exact k
  split
  · exact .ite ((k.enqueue _).other rfl) (k.enqueue _)
  · exact k.other rfl

theorem Keeps.recordFault (k : Keeps s₀ s) (f : FaultRec) : Keeps s₀ (recordFault f s) := by
  refine Keeps.notify ?_ _
  split
  · rename_i absent
    exact k.setRecords _ id fun f h => by simp [absent] at h
  · exact k.setRecords _ id fun f h => h

theorem Keeps.countDrive (k : Keeps s₀ s) (e : Nat) : Keeps s₀ (countDrive e s) := by
  have counted (w : Wear) := k.setRecords { s.records with wear := bput wearZero s.records.wear e w }
    (tableWf_bput wearZero e _) fun _ h => h
  exact .ite ((counted _).notify _) (counted _)

theorem Keeps.lateEvent (k : Keeps s₀ s) (e : Nat) : Keeps s₀ (lateEvent e s) := by
  have counted (n : Nat) (w : Wear) := k.setRecords
    { s.records with late := n, wear := bput wearZero s.records.wear e w } (tableWf_bput wearZero e _) fun _ h => h
  exact .ite ((counted _ _).notify _) (counted _ _)

/-! #### Elements and routes -/

theorem Keeps.setElem (k : Keeps s₀ s) (e : Nat) (x : Elem) : Keeps s₀ (setElem e x s) :=
  k.setNet _ (tableWf_tput _ _) id

theorem Keeps.updElem (k : Keeps s₀ s) (e : Nat) (f : Elem → Elem) : Keeps s₀ (updElem e f s) := by
  unfold Machine.updElem
  split
  · exact k.setElem _ _
  · exact k

theorem Keeps.setFixture (k : Keeps s₀ s) (n : Nat) (f : Fixture) : Keeps s₀ (setFixture n f s) :=
  k.setFixtures _ (tableWf_bput _ _ _)

theorem Keeps.setLoop (k : Keeps s₀ s) (n : Nat) (l : Loop) : Keeps s₀ (setLoop n l s) :=
  k.setLoops _ (tableWf_bput _ _ _)

theorem Keeps.setRoute (k : Keeps s₀ s) (r : Nat) (x : Route) : Keeps s₀ (setRoute r x s) :=
  k.setRoutes _ (tableWf_tput _ _)

theorem Keeps.routeEnter (k : Keeps s₀ s) (t r : Nat) : Keeps s₀ (routeEnter t r s) := by
  rw [routeEnter_eq]
  have entered : Keeps s₀ (withApplied (insertNat r s.engine.applied) s) := k.other rfl
  split
  · exact entered.setRoutes _ (tableWf_tput _ _)
  · exact entered

theorem Keeps.routeLeave (k : Keeps s₀ s) (r : Nat) : Keeps s₀ (routeLeave r s) := by
  rw [routeLeave_eq]
  have left : Keeps s₀ (withApplied (s.engine.applied.erase r) s) := k.other rfl
  simp only []
  split
  · split
    · exact left.setRoutes _ (tableWf_tput _ _)
    · exact (left.setRoutes _ (tableWf_tdel _)).notify _
    · exact left
  · exact left

theorem Keeps.tornCause (k : Keeps s₀ s) (c : TearCause) (r : Nat) : Keeps s₀ (tornCause c r s) := by
  unfold Machine.tornCause
  split
  · exact k.setRoutes _ (tableWf_tput _ _)
  · exact k

theorem Keeps.tearApplied (k : Keeps s₀ s) (c : TearCause) (r : Nat) : Keeps s₀ (tearApplied c r s) :=
  (k.tornCause c r).routeLeave r

theorem Keeps.tmapRoutes (k : Keeps s₀ s) (f : Nat → Route → Route) : Keeps s₀ (s.setRoutes (tmap f s.routes)) :=
  k.setRoutes _ (tableWf_tmap _)

theorem Keeps.noticeOfEdit (k : Keeps s₀ s) (n : Edit) : Keeps s₀ (noticeOfEdit n s) := k.tmapRoutes _

/-! #### The ring -/

theorem Keeps.endStaging (k : Keeps s₀ s) (empty : Bool) : Keeps s₀ (endStaging empty s) :=
  k.other (by simp [view])

theorem Keeps.haltRing (k : Keeps s₀ s) (c : HaltCause) (d : Val) : Keeps s₀ (haltRing c d s) :=
  ((k.setRing_same (ringHalted c d s.ring) rfl rfl rfl rfl rfl).endStaging false).notify _

theorem Keeps.ringTorn (k : Keeps s₀ s) (c : TearCause) (r : Nat) : Keeps s₀ (ringTorn c r s) :=
  .ite (k.haltRing _ _) k

theorem Keeps.ringRefused (k : Keeps s₀ s) (c : HaltCause) (d : Val) : Keeps s₀ (ringRefused c d s) :=
  .ite (k.haltRing _ _) k

theorem Keeps.ringDropped (k : Keeps s₀ s) (gone : List Nat) : Keeps s₀ (ringDropped gone s) := by
  unfold Machine.ringDropped
  split
  · split
    · exact k.haltRing _ _
    · exact k
  · exact k

/-- With the ring in range a visit counter of 1 is within the repeat of any step. -/
theorem one_le_visitLimit (r : RingSafe s) : 1 ≤ visitLimit s := by
  obtain ⟨-, -, ⟨low, high⟩, -⟩ := r
  omega

theorem visitLimit_of_rep (reps : ∀ p ∈ s.ring.steps, 1 ≤ p.2.rep ∧ p.2.rep ≤ 16) : 1 ≤ visitLimit s := by
  unfold visitLimit
  split
  · rename_i st at_ptr
    exact (reps _ (mem_of_tget at_ptr)).1
  · exact Nat.le_refl 1

/-- The ring aimed at a step: any pointer below the length, visit 1. -/
theorem Keeps.aim (k : Keeps s₀ s) (g : Ring) (steps : g.steps = s.ring.steps) (len : g.len = s.ring.len)
    (ptr : s.ring.ptr < s.ring.len → g.ptr < g.len) (visit : g.visit = 1)
    (pass : s.ring.pass ≤ 65535 → g.pass ≤ 65535) : Keeps s₀ (s.setRing g) := by
  refine k.setRing g (fun r => ?_) (by rw [steps]; exact id)
  obtain ⟨lens, ptrs, -, passes, reps⟩ := r
  have reps : ∀ p ∈ (s.setRing g).ring.steps, 1 ≤ p.2.rep ∧ p.2.rep ≤ 16 := by simpa [steps] using reps
  refine ⟨by simpa [len] using lens, ptr ptrs, ⟨Nat.le_of_eq visit.symm, ?_⟩, pass passes, reps⟩
  exact Nat.le_trans (Nat.le_of_eq visit) (visitLimit_of_rep reps)

/-- The visit counter raised to a value within the repeat of the step at the pointer. -/
theorem Keeps.visit (k : Keeps s₀ s) {st : StepRec} (at_ptr : stepAt s s.ring.ptr = some st) (g : Ring)
    (steps : g.steps = s.ring.steps) (len : g.len = s.ring.len) (ptr : g.ptr = s.ring.ptr) (pass : g.pass = s.ring.pass)
    (low : 1 ≤ g.visit) (high : g.visit ≤ st.rep) : Keeps s₀ (s.setRing g) := by
  refine k.setRing g (fun r => ?_) (by rw [steps]; exact id)
  obtain ⟨lens, ptrs, -, passes, reps⟩ := r
  have limit : visitLimit (s.setRing g) = st.rep := by
    have : stepAt (s.setRing g) (s.setRing g).ring.ptr = some st := by
      simpa [stepAt, steps, ptr] using at_ptr
    simp only [visitLimit, this]
  refine ⟨by simpa [len] using lens, by simpa [len, ptr] using ptrs, ⟨low, by rw [limit]; exact high⟩,
    by simpa [pass] using passes, by simpa [steps] using reps⟩

theorem Keeps.leaveStep (k : Keeps s₀ s) : Keeps s₀ (leaveStep s) := by
  unfold Machine.leaveStep
  simp only []
  split
  · rename_i below
    exact k.aim _ rfl rfl (fun _ => below) rfl id
  · refine Keeps.notify ?_ _
    refine k.aim _ rfl rfl (fun h => Nat.lt_of_le_of_lt (Nat.zero_le _) h) rfl fun _ => ?_
    have := Nat.mod_lt (s.ring.pass + 1) (show 65536 > 0 by decide)
    simp only []; omega

theorem Keeps.beginDwell (k : Keeps s₀ s) (st : StepRec) (units : Nat) : Keeps s₀ (beginDwell st units s) :=
  k.setRing_same _ rfl rfl rfl rfl rfl

theorem Keeps.afterNotice (k : Keeps s₀ s) {st : StepRec} (at_ptr : stepAt s s.ring.ptr = some st) :
    Keeps s₀ (afterNotice st s).1 := by
  have cleared : Keeps s₀ (s.setRing { s.ring with pendingTrig := false }) := k.setRing_same _ rfl rfl rfl rfl rfl
  unfold Machine.afterNotice
  simp only []
  split
  · exact k.aim _ rfl rfl id rfl id
  split
  · split
    · exact cleared.leaveStep
    · rename_i two
      refine Keeps.beginDwell ?_ _ _
      exact k.visit at_ptr _ rfl rfl rfl rfl (by simp) (by simp only []; omega)
  · exact cleared.beginDwell _ _

/-! #### The store -/

theorem Keeps.putCurveRecord (k : Keeps s₀ s) (c : Nat) (x : Stored Curve) : Keeps s₀ (putCurveRecord c x s) :=
  k.setStore _ fun h => by
    simp only []
    split
    · exact tableWf_tdel _ h
    · exact tableWf_tput _ _ h

theorem Keeps.setStore_same (k : Keeps s₀ s) (v : Store) (h : v.curves = s.store.curves) : Keeps s₀ (s.setStore v) :=
  k.setStore v (by rw [h]; exact id)

theorem Keeps.eraseRecord (k : Keeps s₀ s) (i : Nat) : Keeps s₀ (eraseRecord i s) := by
  unfold Machine.eraseRecord
  split
  · exact k.setStore_same _ rfl
  split
  · exact (k.setStore { s.store with curves := tdel s.store.curves (i - 1) } (tableWf_tdel _)).setImages _ (tableWf_tdel _)
  · exact k.setStore_same _ rfl

theorem Keeps.eraseRange (k : Keeps s₀ s) (lo hi : Nat) : Keeps s₀ (eraseRange lo hi s) :=
  k.foldl (fun _ _ k => k.eraseRecord _) _

theorem Keeps.wipeAdvance (k : Keeps s₀ s) : Keeps s₀ (wipeAdvance s) := by
  unfold Machine.wipeAdvance
  split
  · exact (k.eraseRange _ _).other rfl
  · exact k

theorem Keeps.leaveRecord (k : Keeps s₀ s) (i : Nat) (x : Residue) : Keeps s₀ (leaveRecord i x s) := by
  unfold Machine.leaveRecord
  split
  · exact k.setStore_same _ rfl
  split
  · exact k.putCurveRecord _ _
  · exact k.setStore_same _ rfl

theorem Keeps.leaveOne (k : Keeps s₀ s) (w : StoreWrite) (x : Residue) : Keeps s₀ (leaveOne w x s) := by
  cases w with
  | settings v => exact k.setStore_same _ rfl
  | curve c p => exact k.putCurveRecord _ _
  | curveDel c => exact k.putCurveRecord _ _
  | wear w => exact k.setStore_same _ rfl
  | wipe reach => exact k.leaveRecord _ _

theorem Keeps.abandonWrite (k : Keeps s₀ s) : Keeps s₀ (abandonWrite s) := by
  unfold Machine.abandonWrite
  split
  · exact k.wipeAdvance.leaveOne _ _
  · exact k

theorem Keeps.writeSucceeds (k : Keeps s₀ s) (w : StoreWrite) : Keeps s₀ (writeSucceeds w s).1 := by
  cases w with
  | settings v => exact k.setStore_same _ rfl
  | curve c p => exact (k.putCurveRecord _ _).setImages _ (tableWf_tput _ _)
  | curveDel c => exact (k.putCurveRecord _ _).setImages _ (tableWf_tdel _)
  | wear w => exact k.setStore_same _ rfl
  | wipe reach => exact (k.eraseRange _ _).other rfl

theorem Keeps.writeFails (k : Keeps s₀ s) (w : StoreWrite) (i : Nat) (x : Residue) : Keeps s₀ (writeFails w i x s).1 := by
  cases w with
  | settings v => exact k.leaveOne (.settings v) x
  | curve c p => exact k.leaveOne (.curve c p) x
  | curveDel c => exact k.leaveOne (.curveDel c) x
  | wear w => exact k.leaveOne (.wear w) x
  | wipe reach => exact (k.eraseRange _ _).leaveRecord _ _

theorem Keeps.writeEnds (k : Keeps s₀ s) (r : WriteResult) : Keeps s₀ (writeEnds r s) := by
  unfold Machine.writeEnds
  have freed : Keeps s₀ (s.setLink { s.link with hold := none }) := k.other rfl
  split
  · cases r with
    | ok => exact (freed.writeSucceeds _).answer _ _
    | fail i left => exact .ite ((freed.writeFails _ _ _).answer _ _) k
  · exact k

/-! #### The engine -/

/-- A CLEAN entry up to `!BAL`: the report formed (R125 steps 1 and 2). -/
def reported (st : StepRec) (number : Nat) (s : State) : State :=
  let u := wipeAdvance s
  let rep := formReport u st u.ring.ptr u.ring.pass number
  let v := u.setRing { u.ring with report := some rep }
  if rep.balance then notify (.bal v.ring.ptr rep.spread) v else v

/-- A CLEAN entry's mark and `!STEP` (R125 steps 3 and 4). -/
def announced (st : StepRec) (s : State) : State :=
  let u := if st.mark then s.setRing { s.ring with markTimer := true } else s
  if st.notice then stepEntry u.ring.ptr u.ring.pass u else u

theorem entryClean_eq (st : StepRec) (number : Nat) (s : State) : entryClean st number s =
    if (reported st number s).ring.overrun then (haltRing .overrun .dash (reported st number s), .nothing)
    else afterNotice st (announced st (reported st number s)) := rfl

theorem reported_ring (st : StepRec) (number : Nat) (s : State) :
    (reported st number s).ring = { s.ring with report := (reported st number s).ring.report } := by
  unfold reported
  simp only []
  split <;> simp

theorem announced_ring (st : StepRec) (s : State) :
    (announced st s).ring = { s.ring with markTimer := (announced st s).ring.markTimer } := by
  unfold announced
  simp only []
  (repeat' split) <;> simp

theorem Keeps.reported (k : Keeps s₀ s) (st : StepRec) (number : Nat) : Keeps s₀ (reported st number s) := by
  have formed := fun rep => k.wipeAdvance.setRing_same
    { (Machine.wipeAdvance s).ring with report := some rep } rfl rfl rfl rfl rfl
  exact .ite ((formed _).notify _) (formed _)

theorem Keeps.announced (k : Keeps s₀ s) (st : StepRec) : Keeps s₀ (announced st s) := by
  have marked := Keeps.ite (c := st.mark = true)
    (k.setRing_same { s.ring with markTimer := true } rfl rfl rfl rfl rfl) k
  exact .ite (marked.stepEntry _ _) marked

theorem Keeps.entryClean (k : Keeps s₀ s) {st : StepRec} (at_ptr : stepAt s s.ring.ptr = some st) (number : Nat) :
    Keeps s₀ (entryClean st number s).1 := by
  rw [entryClean_eq]
  split
  · exact (k.reported st number).haltRing _ _
  · refine ((k.reported st number).announced st).afterNotice ?_
    rw [stepAt, announced_ring, reported_ring]
    exact at_ptr

theorem Keeps.ringOutcome (k : Keeps s₀ s) (number : Nat) (out : TransOutcome) (cause : Option EndCause) :
    Keeps s₀ (ringOutcome number out cause s).1 := by
  unfold Machine.ringOutcome
  split
  · split
    · rename_i st at_ptr; exact k.entryClean at_ptr number
    · exact k.haltRing _ _
    · exact k.haltRing _ _
  · exact k

theorem Keeps.updTrans (k : Keeps s₀ s) (f : Trans → Trans) : Keeps s₀ (updTrans f s) := k.other (by simp [view])

theorem Keeps.setMode (k : Keeps s₀ s) (m : Mode) : Keeps s₀ (setMode m s) := k.other rfl

/-- The routes `l` enter the applied set by transition `n` (R98 step 1). -/
def enterAll (n : Nat) (l : List Nat) (s : State) : State := l.foldl (fun s r => routeEnter n r s) s

/-- Applied routes torn, and torn causes written into routes of B (R98 step 2). -/
def tearBoth (torn lost : List (Nat × TearCause)) (s : State) : State :=
  lost.foldl (fun s p => tornCause p.2 p.1 s) (torn.foldl (fun s p => tearApplied p.2 p.1 s) s)

/-- Steps 3 to 6 of R98: the latch, the pending marks, the mute contribution, the outcome, `!DONE`. -/
def closeTransition (t : Trans) (carries : Bool) (s : State) : State :=
  let s := if carries then setTheLatch s else s
  let s := clearPending s
  let s := s.setEngine { s.engine with mute := false, muteTimer := none }
  let s := updTrans (fun t' => { t' with outcome := some (outcomeOf t) }) s
  let s := if (outcomeOf t).1 = .clean then s.setLatch false else s
  opEnded .transition (notify (.done (some t.number) t.origin (outcomeOf t).1 (outcomeOf t).2) s)

/-- The ring told of the outcome of a STEP transition (R98 step 7). -/
def tellOutcome (t : Trans) (s : State) : State × Ask :=
  if t.origin = .step then ringOutcome t.number (outcomeOf t).1 (outcomeOf t).2 s else (s, .nothing)

/-- The ring told of tears (R98 step 7, R134). -/
def tellTears (l : List (Nat × TearCause)) (s : State) : State := l.foldl (fun s p => ringTorn p.2 p.1 s) s

/-- The end of a transition from the state in which its routes have entered (R98 steps 2 to 7). -/
def endFrom (t : Trans) (entered : List Nat) (s : State) : State × Ask :=
  let torn := appliedTears s t
  let lost := targetTears s t entered
  let r := tellOutcome t (closeTransition t (anyCarries s (latchTears s (torn ++ lost))) (tearBoth torn lost s))
  (setMode .idle (tellTears (torn ++ lost) r.1), r.2)

theorem endTransition_none (completed : Bool) (h : s.engine.trans = none) :
    endTransition completed s = (setMode .idle s, .nothing) := by
  simp only [endTransition, h]

theorem endTransition_some (completed : Bool) {t : Trans} (h : s.engine.trans = some t) :
    endTransition completed s =
      endFrom t (enteringRoutes s t completed) (enterAll t.number (enteringRoutes s t completed) s) := by
  simp only [endTransition, h]
  rfl

theorem Keeps.tearBoth (k : Keeps s₀ s) (torn lost : List (Nat × TearCause)) : Keeps s₀ (tearBoth torn lost s) :=
  (k.foldl (fun _ _ k => k.tearApplied _ _) torn).foldl (fun _ _ k => k.tornCause _ _) lost

theorem Keeps.closeTransition (k : Keeps s₀ s) (t : Trans) (carries : Bool) : Keeps s₀ (closeTransition t carries s) := by
  have latched := Keeps.ite (c := carries = true) (k.setLatch true) k
  have ended := fun e => ((latched.tmapRoutes fun _ x => { x with pending := false }).setEngine e).updTrans
    fun t' => { t' with outcome := some (outcomeOf t) }
  exact (Keeps.ite ((ended _).setLatch false) (ended _)).notify _ |>.opEnded _

theorem Keeps.tellTears (k : Keeps s₀ s) (l : List (Nat × TearCause)) : Keeps s₀ (tellTears l s) :=
  k.foldl (fun _ _ k => k.ringTorn _ _) l

theorem Keeps.endTransition (k : Keeps s₀ s) (completed : Bool) : Keeps s₀ (endTransition completed s).1 := by
  cases h : s.engine.trans with
  | none => rw [endTransition_none completed h]; exact k.setMode _
  | some t =>
    rw [endTransition_some completed h]
    have entered : Keeps s₀ (enterAll t.number (enteringRoutes s t completed) s) := k.foldl (fun _ _ k => k.routeEnter _ _) _
    refine Keeps.setMode (Keeps.tellTears ?_ _) _
    unfold tellOutcome
    split
    · exact ((entered.tearBoth _ _).closeTransition _ _).ringOutcome _ _ _
    · exact (entered.tearBoth _ _).closeTransition _ _

theorem Keeps.phaseAdvance (k : Keeps s₀ s) : Keeps s₀ (phaseAdvance s).1 := by
  unfold Machine.phaseAdvance
  split
  · exact k
  split
  · exact k
  split
  · split
    · exact k
    split
    · exact k.endTransition _
    split
    · exact (k.setMode _).endTransition _
    · exact k.setMode _
  · split
    · exact k.endTransition _
    · exact k
  · exact k

theorem Keeps.leaveOld (k : Keeps s₀ s) (t : Trans) : Keeps s₀ (leaveOld t s) :=
  k.foldl (fun _ _ k => .ite ((k.tearApplied _ _).ringTorn _ _) (k.routeLeave _)) _

theorem Keeps.startBreak (k : Keeps s₀ s) : Keeps s₀ (startBreak s).1 := by
  unfold Machine.startBreak
  split
  · exact k
  · exact Keeps.phaseAdvance ((k.leaveOld _).setEngine _)

theorem Keeps.proceed (k : Keeps s₀ s) : Keeps s₀ (proceed s).1 := by
  unfold Machine.proceed
  split
  · exact k.startBreak
  · exact k

theorem Keeps.stopTransition (k : Keeps s₀ s) (c : Stop) : Keeps s₀ (stopTransition c s) := k.other (by simp [view])

theorem Keeps.stopMuting (k : Keeps s₀ s) (c : Stop) : Keeps s₀ (stopMuting c s).1 := (k.updTrans _).endTransition _

theorem Keeps.promoteHolder (k : Keeps s₀ s) : Keeps s₀ (promoteHolder s) := by
  unfold Machine.promoteHolder
  split
  · exact k
  · exact ((k.updElem _ _).setEngine _).recordFault _

theorem Keeps.accept (k : Keeps s₀ s) (q : Request) : Keeps s₀ (accept q s) :=
  Keeps.setEngine (k.tmapRoutes _) _

theorem Keeps.decideRequest (k : Keeps s₀ s) (q : Request) : Keeps s₀ (decideRequest q s).1 := by
  unfold Machine.decideRequest
  simp only []
  have held : Keeps s₀ (if q.origin = .step then Machine.promoteHolder (Machine.setMode .idle s) else Machine.setMode .idle s) :=
    .ite (k.setMode _).promoteHolder (k.setMode _)
  split
  · exact held
  · exact held.accept q

theorem Keeps.stagingOver (k : Keeps s₀ s) : Keeps s₀ (stagingOver s) := (k.setEngine _).opEnded _

theorem Keeps.takeRequest (k : Keeps s₀ s) (q : Request) : Keeps s₀ (takeRequest q s).1 := by
  unfold Machine.takeRequest
  split
  · exact k.decideRequest q
  · simp only []
    have quit : Keeps s₀ (s.setEngine { s.engine with staging := quitStaging s.engine.staging }) := k.other rfl
    split
    · exact quit.stagingOver.decideRequest q
    · exact quit.other rfl
  · exact k

theorem Keeps.answerGo (k : Keeps s₀ s) (r : Reply) : Keeps s₀ (answerGo r s) := by
  unfold Machine.answerGo
  split
  · exact (k.setLink_same { s.link with hold := none } rfl rfl).answer _ _
  · exact k

theorem Keeps.makeDrop (k : Keeps s₀ s) : Keeps s₀ (makeDrop s) := by
  unfold Machine.makeDrop
  simp only []
  split
  · exact k
  have taken := fun gone q => (k.ringDropped gone).takeRequest q
  split
  · exact (taken _ _).proceed
  · exact taken _ _

theorem Keeps.takeHeldDrop (k : Keeps s₀ s) : Keeps s₀ (takeHeldDrop s) := by
  unfold Machine.takeHeldDrop
  have cleared : Keeps s₀ (s.setEngine { s.engine with dropHeld := false }) := k.other rfl
  exact .ite (.ite cleared cleared.makeDrop) k

theorem Keeps.callDrop (k : Keeps s₀ s) : Keeps s₀ (callDrop s) := by
  unfold Machine.callDrop
  split
  · exact k.makeDrop
  · exact k.makeDrop
  · exact k.other rfl

theorem Keeps.beginEntry (k : Keeps s₀ s) : Keeps s₀ (beginEntry s).1 := by
  unfold Machine.beginEntry
  split
  · exact k.haltRing _ _
  simp only []
  have aimed : Keeps s₀ (s.setRing { s.ring with
      state := .entering, visit := 1, pendingTrig := false, overrun := false, holdPending := false,
      dwellTimer := none, keptDwell := none }) := k.aim _ rfl rfl id rfl id
  split
  · exact aimed.takeRequest _
  · exact (aimed.takeRequest _).ringRefused _ _
  · exact aimed.takeRequest _

theorem Keeps.continueEntry {r : State × Bool} (k : Keeps s₀ r.1) : Keeps s₀ (continueEntry r).1 := by
  unfold Machine.continueEntry
  split
  · exact k.proceed
  · exact k

theorem Keeps.stageNext (k : Keeps s₀ s) : Keeps s₀ (stageNext s) := k.other (by simp [view])

theorem Keeps.followUp (n : Nat) {r : State × Ask} (k : Keeps s₀ r.1) : Keeps s₀ (followUp n r) := by
  induction n generalizing r with
  | zero => exact k
  | succ n ih =>
    obtain ⟨s, a⟩ := r
    cases a with
    | nothing => exact k.takeHeldDrop
    | stage => exact k.takeHeldDrop.stageNext
    | enter => exact ih k.takeHeldDrop.beginEntry.continueEntry

theorem Keeps.resolveCheck (k : Keeps s₀ s) : Keeps s₀ (resolveCheck s).1 := by
  unfold Machine.resolveCheck
  simp only []
  split
  · exact k.stagingOver.setMode _
  have decided := fun q => (k.stagingOver.setEngine { (Machine.stagingOver s).engine with waiting := none }).decideRequest q
  split
  · split
    · exact ((decided _).opEnded _).answerGo _
    · exact ((decided _).opEnded _).ringRefused _ _
    · exact (decided _).opEnded _
  · exact Keeps.proceed (.ite ((decided _).answerGo _) (decided _))

theorem Keeps.surveyAdvance (k : Keeps s₀ s) : Keeps s₀ (surveyAdvance s) := k.other (by simp [view])

theorem Keeps.advance (k : Keeps s₀ s) : Keeps s₀ (advance s).1 := by
  unfold Machine.advance
  split
  · exact k.phaseAdvance
  · exact k.phaseAdvance
  · split
    · exact k.stagingOver.setMode _
    · exact k
  · split
    · exact k.resolveCheck
    · exact k
  · exact k.surveyAdvance
  · exact k

theorem Keeps.advanceAll (k : Keeps s₀ s) : Keeps s₀ (advanceAll s) := .followUp _ k.advance

theorem Keeps.abandonWaiting (k : Keeps s₀ s) (c : EndCause) : Keeps s₀ (abandonWaiting c s) := by
  unfold Machine.abandonWaiting
  split
  · exact k
  simp only []
  have told := fun n => ((k.setEngine { s.engine with waiting := none }).notify n).opEnded .transition
  split
  · exact (told _).answerGo _
  · exact (told _).ringRefused _ _
  · exact told _

theorem Keeps.haltEngine (k : Keeps s₀ s) : Keeps s₀ (haltEngine s) := by
  unfold Machine.haltEngine
  split
  · exact k
  · exact (k.abandonWaiting _).advanceAll
  · exact .followUp _ (k.stopMuting _)
  · exact (k.stopTransition _).advanceAll
  · exact (k.stopTransition _).advanceAll
  · exact k.endStaging _
  · exact (k.setEngine _).advanceAll

theorem Keeps.permitLost (k : Keeps s₀ s) : Keeps s₀ (permitLost s) := by
  unfold Machine.permitLost
  simp only []
  have k := fun (c : Prop) [Decidable c] =>
    Keeps.ite (c := c) (k.setEngine { s.engine with dropHeld := true }) k
  split
  · exact .ite (k _).callDrop (k _)
  · exact .ite (k _).callDrop (k _)
  · exact .ite ((k _).abandonWaiting _).advanceAll (k _)
  · exact .ite (.followUp _ ((k _).stopMuting _)) (k _)
  · exact .ite ((k _).stopTransition _).advanceAll (k _)
  · exact .ite ((k _).stopTransition _).advanceAll (k _)
  · exact .ite ((k _).setEngine _).advanceAll (k _)

theorem Keeps.tearAtOnce (k : Keeps s₀ s) (c : TearCause) (r : Nat) : Keeps s₀ (tearAtOnce c r s) := by
  unfold Machine.tearAtOnce
  simp only []
  have torn := k.tearApplied c r
  split
  · exact Keeps.ringTorn (.ite (torn.setEngine _) torn) _ _
  · exact torn.ringTorn _ _

theorem Keeps.tearAll (k : Keeps s₀ s) (c : TearCause) (l : List Nat) : Keeps s₀ (tearAll c l s) :=
  Keeps.foldl (fun _ _ k => k.tearAtOnce _ _) l (.ite (k.setLatch _) k)

theorem Keeps.dropCardDrives (k : Keeps s₀ s) (n : Nat) : Keeps s₀ (dropCardDrives n s) := by
  unfold Machine.dropCardDrives
  simp only []
  have off := fun f g => (k.setNet { s.net with elems := tmap f s.net.elems } (tableWf_tmap f) id).setEngine g
  exact .ite ((off _ _).updTrans _) (off _ _)

theorem Keeps.cardLeft (k : Keeps s₀ s) (n : Nat) : Keeps s₀ (cardLeft n s) :=
  Keeps.advanceAll (.ite ((k.dropCardDrives n).updTrans _) ((k.dropCardDrives n).tearAll _ _))

theorem Keeps.fixtureLeft (k : Keeps s₀ s) (n : Nat) : Keeps s₀ (fixtureLeft n s) := .ite (k.updTrans _) (k.tearAll _ _)

end Sys2Proof.StepLaws

/-! ### The card bus, settling, and every row -/

namespace Sys2Proof.StepLaws

open Sys2Proof.Machine Sys2Proof.Laws

variable {s₀ s : State}

/-! #### The bus handed on -/

theorem Keeps.setTx (k : Keeps s₀ s) (t : Option BusTx) : Keeps s₀ (setTx t s) := k.setBus _

theorem Keeps.setStage (k : Keeps s₀ s) (e : Nat) (g : DriveStage) : Keeps s₀ (setStage e g s) := k.setEngine _

theorem Keeps.setPulses (k : Keeps s₀ s) (n : Nat) (f : Nat → Nat)
    (h : (cardAt s n).pulses ≤ 2 → f (cardAt s n).pulses ≤ 2) : Keeps s₀ (setPulses n f s) := k.setCard n _ h

/-- A card's record rewritten with the same count of pulses. -/
theorem Keeps.setCard_same (k : Keeps s₀ s) (n : Nat) (c : Card) (h : c.pulses = (cardAt s n).pulses) :
    Keeps s₀ (Machine.setCard n c s) := k.setCard n c (by rw [h]; exact id)

theorem Keeps.issueDrive (k : Keeps s₀ s) (e target : Nat) (x : Elem)
    (free : isEm x.kind = true → (cardAt s x.card).pulses < 2) : Keeps s₀ (issueDrive e target x s) := by
  unfold Machine.issueDrive
  refine Keeps.countDrive ?_ e
  have begun := fun t y v => ((k.setTx t).setElem e y).setEngine v
  have pulsed : ∀ t y v, Keeps s₀ (if isEm x.kind then
      Machine.setPulses x.card (fun p => p + 1) (State.setEngine (Machine.setElem e y (Machine.setTx t s)) v)
      else State.setEngine (Machine.setElem e y (Machine.setTx t s)) v) := fun t y v => by
    split
    · rename_i em
      exact (begun t y v).setPulses _ _ fun _ => free em
    · exact begun t y v
  exact .ite ((pulsed _ _ _).updTrans _) (pulsed _ _ _)

theorem Keeps.issueSense (k : Keeps s₀ s) (e : Nat) (l : List Nat) : Keeps s₀ (issueSense e l s) := by
  unfold Machine.issueSense
  simp only []
  split
  · exact ((k.setEngine { s.engine with due := l }).setStage _ _).setTx _
  · exact k.setEngine _

theorem Keeps.takeWaiting (k : Keeps s₀ s) (e : Nat) : Keeps s₀ (takeWaiting e s) := by
  unfold Machine.takeWaiting
  split
  · exact k.updTrans _
  · exact k.updTrans _
  · exact k.setEngine _
  · exact k

/-- What the engine puts on a free bus: the SENSE that fell due first, the first waiting drive that may be issued, or the
survey's next sense. -/
theorem engineIssues_cases {s u : State} (h : engineIssues s = some u) :
    (∃ e l, s.engine.due = e :: l ∧ u = issueSense e l s)
    ∨ (∃ e target x, (e, target) ∈ waitingDrives s ∧ mayIssue s e = true ∧ elemAt s e = some x
        ∧ s.engine.due = [] ∧ u = issueDrive e target x (takeWaiting e s))
    ∨ ∃ e l x, s.engine.mode = .survey ∧ s.engine.survey.current = none ∧ s.engine.survey.todo = e :: l
        ∧ elemAt s e = some x ∧ s.engine.due = [] ∧ u = issueSurveySense e l x s := by
  unfold engineIssues at h
  split at h
  · rename_i e l due
    cases h; exact .inl ⟨e, l, due, rfl⟩
  · rename_i due
    split at h
    · rename_i e target found
      obtain ⟨x, at_e, rfl⟩ := Option.map_eq_some_iff.1 h
      exact .inr (.inl ⟨e, target, x, List.mem_of_find?_eq_some found, by simpa using List.find?_some found, at_e, due, rfl⟩)
    · split at h
      · rename_i c
        simp only [Bool.and_eq_true, beq_iff_eq, Option.isNone_iff_eq_none] at c
        split at h
        · rename_i e l todo
          obtain ⟨x, at_e, rfl⟩ := Option.map_eq_some_iff.1 h
          exact .inr (.inr ⟨e, l, x, c.1, c.2, todo, at_e, due, rfl⟩)
        · contradiction
      · contradiction

/-- A free bus is given to the engine, a restart, discovery or the poll round, or stays as it is. -/
theorem grantBus_cases (s : State) : grantBus s = s ∨ engineIssues s = some (grantBus s)
    ∨ (∃ n, grantBus s = restartIssues n s) ∨ (∃ k, grantBus s = setTx (some (.pollDiscovery k)) s)
    ∨ ∃ k, grantBus s = roundIssues k s := by
  unfold grantBus
  split
  · exact .inl rfl
  split
  · rename_i u issued; exact .inr (.inl issued)
  split
  · rename_i n _; exact .inr (.inr (.inl ⟨n, rfl⟩))
  cases s.bus.discovery with
  | some k => exact .inr (.inr (.inr (.inl ⟨k, rfl⟩)))
  | none =>
    cases s.bus.round with
    | some k => exact .inr (.inr (.inr (.inr ⟨k, rfl⟩)))
    | none => exact .inl rfl

theorem Keeps.restartIssues (k : Keeps s₀ s) (n : Nat) : Keeps s₀ (restartIssues n s) := by
  unfold Machine.restartIssues
  simp only []
  split
  · refine Keeps.setTx ?_ _
    exact k.setCard_same n _ rfl
  · refine Keeps.setTx ?_ _
    exact k.setCard_same n _ rfl

theorem Keeps.roundAt (k : Keeps s₀ s) (n : Nat) : Keeps s₀ (roundAt n s) := by
  unfold Machine.roundAt
  split
  · exact k.setBus _
  · exact k.setBus _

theorem Keeps.roundIssues (k : Keeps s₀ s) (n : Nat) : Keeps s₀ (roundIssues n s) := by
  unfold Machine.roundIssues
  simp only []
  split
  · exact (k.roundAt n).setTx _
  · exact k.roundAt n

theorem cardAt_takeWaiting (e n : Nat) (s : State) : cardAt (takeWaiting e s) n = cardAt s n := by
  simp [cardAt]

/-- An EM drive is issued below the budget of its card only (R94). -/
theorem pulses_of_mayIssue {e : Nat} {x : Elem} (at_e : elemAt s e = some x) (may : mayIssue s e = true)
    (em : isEm x.kind = true) : (cardAt s x.card).pulses < 2 := by
  have budget : (cardAt s x.card).pulses < Config.driveBudget := by simpa [mayIssue, at_e, em] using may
  exact budget

theorem Keeps.grantBus (k : Keeps s₀ s) : Keeps s₀ (grantBus s) := by
  rcases grantBus_cases s with e | issued | ⟨n, e⟩ | ⟨n, e⟩ | ⟨n, e⟩
  · rw [e]; exact k
  · rcases engineIssues_cases issued with ⟨e, l, -, eq⟩ | ⟨e, target, x, -, may, at_e, -, eq⟩
      | ⟨e, l, x, -, -, -, -, -, eq⟩ <;> rw [eq]
    · exact k.issueSense e l
    · refine (k.takeWaiting e).issueDrive e target x fun em => ?_
      rw [cardAt_takeWaiting]
      exact pulses_of_mayIssue at_e may em
    · exact (k.setEngine _).setTx _
  · rw [e]; exact k.restartIssues n
  · rw [e]; exact k.setTx _
  · rw [e]; exact k.roundIssues n

/-! #### The link's own progress -/

theorem Keeps.queueLost (k : Keeps s₀ s) : Keeps s₀ (queueLost s) := by
  unfold Machine.queueLost
  split
  · rename_i room
    simp only [Bool.and_eq_true, decide_eq_true_eq] at room
    have room : s.link.notices.length < 32 := room.2
    exact k.setLink _ id fun _ => by simp only [List.length_append, List.length_cons, List.length_nil]; omega
  · exact k

theorem Keeps.startLine (k : Keeps s₀ s) : Keeps s₀ (startLine s) := by
  unfold Machine.startLine
  simp only []
  split
  · split
    · exact k.setLink_same _ rfl rfl
    · rename_i waiting _
      exact k.setLink _ id fun h => by rw [waiting, List.length_cons] at h; exact Nat.le_of_succ_le h
    · exact k.setLink_same _ rfl (by simp_all)
    · exact k.setLink_same _ rfl (by simp_all)
  · exact k

theorem Keeps.releaseSync (k : Keeps s₀ s) : Keeps s₀ (releaseSync s) := by
  unfold Machine.releaseSync
  split
  · exact (k.setLink_same { s.link with hold := none } rfl rfl).answer _ _
  · exact k

theorem Keeps.settle (k : Keeps s₀ s) : Keeps s₀ (settle s) := k.grantBus.releaseSync.queueLost.startLine.queueLost

/-! #### Drives and senses -/

theorem Keeps.dropDrive (k : Keeps s₀ s) (e : Nat) : Keeps s₀ (dropDrive e s) := k.setEngine _

theorem Keeps.driveReached (k : Keeps s₀ s) (d : Drive) : Keeps s₀ (driveReached d s) := (k.updElem _ _).dropDrive _

theorem Keeps.readbackFailed (k : Keeps s₀ s) (d : Drive) (got : Option Nat) : Keeps s₀ (readbackFailed d got s) := by
  have noted := fun g f h => ((k.updElem d.elem g).recordFault f).updTrans h
  exact Keeps.dropDrive (.ite ((noted _ _ _).setLatch _) (noted _ _ _)) _

theorem Keeps.stagingFailed (k : Keeps s₀ s) (d : Drive) (got : Option Nat) : Keeps s₀ (stagingFailed d got s) := by
  have unknown := fun g => k.updElem d.elem g
  exact Keeps.dropDrive (.ite (unknown _) ((unknown _).setEngine _)) _

theorem Keeps.readback (k : Keeps s₀ s) (d : Drive) (retry : Bool) (got : Option Nat) :
    Keeps s₀ (readback d retry got s) := by
  unfold Machine.readback
  split
  · exact Keeps.advanceAll (.ite ((k.driveReached d).lateEvent _) (k.driveReached d))
  split
  · exact k.setStage _ _
  · exact Keeps.advanceAll (.ite (k.stagingFailed _ _) (k.readbackFailed _ _))

theorem Keeps.surveyed (k : Keeps s₀ s) (e : Nat) (got : Option Nat) : Keeps s₀ (surveyed e got s) := by
  unfold Machine.surveyed
  cases got with
  | some n => exact ((k.updElem e _).setEngine _).advanceAll
  | none => exact (((k.updElem e _).recordFault _).setEngine _).advanceAll

theorem Keeps.senseReturns (k : Keeps s₀ s) (got : Option Nat) : Keeps s₀ (senseReturns got s) := by
  unfold Machine.senseReturns
  have freed := k.setTx none
  split
  · simp only []
    split
    · exact freed
    split
    · exact .ite (freed.surveyed _ _) freed
    split
    · split
      · exact freed.readback _ _ _
      · exact freed
    · exact freed
  · exact k

theorem Keeps.pulseEnds (k : Keeps s₀ s) (e : Nat) : Keeps s₀ (pulseEnds e s) := by
  unfold Machine.pulseEnds
  split
  · split
    · exact (k.setStage _ _).setPulses _ _ fun h => Nat.le_trans (Nat.sub_le _ 1) h
    · exact k
  · exact k

theorem Keeps.senseFallsDue (k : Keeps s₀ s) (e : Nat) (retry : Bool) : Keeps s₀ (senseFallsDue e retry s) :=
  (k.setStage _ _).setEngine _

theorem Keeps.settleEnds (k : Keeps s₀ s) (e : Nat) : Keeps s₀ (settleEnds e s) := by
  unfold Machine.settleEnds
  split
  · split
    · split
      · exact k.senseFallsDue _ _
      · exact (k.driveReached _).advanceAll
      · exact (k.driveReached _).advanceAll
    · exact k
  · exact k

theorem Keeps.retryEnds (k : Keeps s₀ s) (e : Nat) : Keeps s₀ (retryEnds e s) := by
  unfold Machine.retryEnds
  split
  · split
    · exact k.senseFallsDue _ _
    · exact k
  · exact k

/-! #### Cards -/

theorem Keeps.changeCard (k : Keeps s₀ s) (n : Nat) (new : CardState) : Keeps s₀ (changeCard n new s) := by
  unfold Machine.changeCard
  simp only []
  split
  · exact k
  split
  · exact k.setCard_same n _ rfl
  · refine Keeps.notify ?_ _
    exact k.setCard_same n _ rfl

theorem Keeps.leaveEnabled (k : Keeps s₀ s) (n : Nat) : Keeps s₀ (leaveEnabled n s) :=
  (k.setPulses n (fun _ => 0) fun _ => Nat.zero_le 2).cardLeft n

theorem Keeps.disableCard (k : Keeps s₀ s) (n : Nat) : Keeps s₀ (disableCard n s) :=
  (((k.setCard_same n { cardAt s n with coilFault := true } rfl).changeCard n .disabled).recordFault _).leaveEnabled n

theorem Keeps.loseCard (k : Keeps s₀ s) (n : Nat) : Keeps s₀ (loseCard n s) :=
  ((k.changeCard n .absent).recordFault _).leaveEnabled n

theorem Keeps.setLast (k : Keeps s₀ s) (n : Nat) (p : PollResult) : Keeps s₀ (setLast n p s) := k.setCard_same n _ rfl

theorem Keeps.setRestart (k : Keeps s₀ s) (n : Nat) (g : RestartStage) : Keeps s₀ (setRestart n g s) :=
  k.setCard_same n _ rfl

theorem Keeps.beginRestart (k : Keeps s₀ s) (n : Nat) : Keeps s₀ (beginRestart n s) := by
  have begun := (k.changeCard n .restarting).setCard_same n
    { cardAt (Machine.changeCard n .restarting s) n with restart := some .wantRestart } rfl
  exact .ite (begun.leaveEnabled n) begun

theorem Keeps.endRestart (k : Keeps s₀ s) (n : Nat) (new : CardState) : Keeps s₀ (endRestart n new s) :=
  ((k.changeCard n new).setCard_same n { cardAt (Machine.changeCard n new s) n with restart := none } rfl).opEnded _

theorem Keeps.restartPolled (k : Keeps s₀ s) (n : Nat) (p : PollResult) : Keeps s₀ (restartPolled n p s) := by
  unfold Machine.restartPolled
  simp only []
  split
  · refine Keeps.endRestart ?_ _ _
    exact (k.setLast n _).setCard_same n _ rfl
  · exact (k.setLast n _).endRestart _ _
  · refine Keeps.endRestart ?_ _ _
    exact (k.setLast n _).setCard_same n _ rfl

theorem Keeps.roundPolled (k : Keeps s₀ s) (n : Nat) (p : PollResult) : Keeps s₀ (roundPolled n p s) := by
  have last := k.setLast n p
  unfold Machine.roundPolled
  simp only []
  split
  · exact last
  · exact last.changeCard _ _
  · exact last.changeCard _ _
  · exact last
  · exact last
  · exact last.loseCard _
  · exact last.disableCard _
  · exact last

theorem Keeps.pollDone (k : Keeps s₀ s) (p : PollResult) : Keeps s₀ (pollDone p s) := by
  unfold Machine.pollDone
  split
  · exact ((k.setTx none).roundPolled _ _).roundAt _
  · exact Keeps.setBus (.ite ((k.setTx none).setLast _ _) (((k.setTx none).setLast _ _).beginRestart _)) _
  · exact k

theorem Keeps.noAnswer (k : Keeps s₀ s) : Keeps s₀ (noAnswer s) := by
  unfold Machine.noAnswer
  split
  · exact .ite ((k.setTx none).loseCard _) (k.setTx none)
  · exact .ite ((k.setTx none).loseCard _) (k.setTx none)
  · exact (k.setTx none).endRestart _ _
  · exact (k.setTx none).restartPolled _ _
  · exact k.pollDone _
  · exact k.pollDone _
  · exact k

/-! #### Fixtures and loops -/

theorem Keeps.changeFixture (k : Keeps s₀ s) (n : Nat) (f : Fixture) : Keeps s₀ (changeFixture n f s) :=
  .ite ((k.setFixture n _).notify _) (k.setFixture n _)

theorem Keeps.leaveAdmitted (k : Keeps s₀ s) (n : Nat) (f : Fixture) (judged : Bool) :
    Keeps s₀ (leaveAdmitted n f judged s) :=
  Keeps.fixtureLeft (.ite ((k.changeFixture _ _).recordFault _) (k.changeFixture _ _)) n

theorem Keeps.foundPresent (k : Keeps s₀ s) (n : Nat) : Keeps s₀ (foundPresent n s) := .ite (k.changeFixture _ _) k

theorem Keeps.foundAbsent (k : Keeps s₀ s) (n : Nat) : Keeps s₀ (foundAbsent n s) := by
  unfold Machine.foundAbsent
  simp only []
  split
  · split
    · exact k.leaveAdmitted _ _ _
    · exact (k.changeFixture _ _).opEnded _
    · exact k.changeFixture _ _
  · exact k

theorem Keeps.beginAdmission (k : Keeps s₀ s) (n : Nat) : Keeps s₀ (beginAdmission n s) :=
  .ite (k.leaveAdmitted _ _ _) (k.changeFixture _ _)

theorem Keeps.failAdmission (k : Keeps s₀ s) (n : Nat) (r : AdmitResult) : Keeps s₀ (failAdmission n r s) :=
  (k.changeFixture _ _).opEnded _

theorem Keeps.admitWaitEnds (k : Keeps s₀ s) (n : Nat) : Keeps s₀ (admitWaitEnds n s) := by
  unfold Machine.admitWaitEnds
  simp only []
  split
  · exact .ite (k.failAdmission _ _) (k.setFixture _ _)
  · exact k

theorem Keeps.watchSupply (k : Keeps s₀ s) (n : Nat) : Keeps s₀ (watchSupply n s) := .ite (k.leaveAdmitted _ _ _) k

theorem Keeps.identityRead (k : Keeps s₀ s) (n : Nat) (b0 b1 b2 b3 : Byte) : Keeps s₀ (identityRead n b0 b1 b2 b3 s) := by
  unfold Machine.identityRead
  split
  · split
    · exact ((k.changeFixture _ _).opEnded _).watchSupply n
    · exact k.failAdmission _ _
  · exact k

theorem Keeps.toBench (k : Keeps s₀ s) (n : Nat) : Keeps s₀ (toBench n s) := by
  unfold Machine.toBench
  simp only []
  split
  · exact k.changeFixture _ _
  · exact k.changeFixture _ _
  · exact (k.changeFixture _ _).opEnded _
  · exact k.leaveAdmitted _ _ _
  · exact k.changeFixture _ _

theorem Keeps.clearConfirmed (k : Keeps s₀ s) : Keeps s₀ (clearConfirmed s) := k.setLoops _ (tableWf_bmap _ _)

theorem Keeps.loopOpens (k : Keeps s₀ s) (n : Nat) : Keeps s₀ (loopOpens n s) := by
  have told := fun l m => ((k.setLoop n l).clearConfirmed.notify m)
  exact .ite (.ite (told _ _).permitLost (told _ _)) k

theorem Keeps.loopCloses (k : Keeps s₀ s) (n : Nat) : Keeps s₀ (loopCloses n s) := .ite ((k.setLoop _ _).notify _) k

theorem Keeps.confirmLoop (k : Keeps s₀ s) (plus : Bool) (n : Nat) : Keeps s₀ (confirmLoop plus n s) := by
  unfold Machine.confirmLoop
  simp only []
  split
  · exact .ite ((k.setLoop _ _).answer _ _) (((k.setLoop _ _).answer _ _).notify _)
  · exact .ite ((k.clearConfirmed.answer _ _).notify _) (k.clearConfirmed.answer _ _)

/-! #### Commands of the net, the routes, the engine and the ring -/

theorem Keeps.dropElemUse (k : Keeps s₀ s) (e : Nat) : Keeps s₀ (dropElemUse e s) := k.other (by simp [view])

theorem Keeps.elemEdit (k : Keeps s₀ s) (before : State) (e : Nat) : Keeps s₀ (elemEdit before e s) := by
  unfold Machine.elemEdit
  split
  · exact k.noticeOfEdit _
  · exact k

theorem Keeps.defineElem (k : Keeps s₀ s) (e : Nat) (x : Elem) : Keeps s₀ (defineElem e x s) :=
  ((((k.dropElemUse e).setElem e x).setEngine _).elemEdit s e).advanceAll

theorem Keeps.deleteElem (k : Keeps s₀ s) (e : Nat) : Keeps s₀ (deleteElem e s) := by
  have gone := (k.dropElemUse e).setNet { (Machine.dropElemUse e s).net with
    elems := tdel (Machine.dropElemUse e s).net.elems e } (tableWf_tdel e) id
  exact ((gone.setEngine _).elemEdit s e).advanceAll

theorem Keeps.definePort (k : Keeps s₀ s) (p : Nat) (cls : PortClass) (fixture : Option Nat) :
    Keeps s₀ (definePort p cls fixture s) := by
  unfold Machine.definePort
  split
  · exact k.setNet _ id (tableWf_tput _ _)
  · refine Keeps.noticeOfEdit ?_ _
    exact k.setNet _ id (tableWf_tput _ _)

theorem Keeps.deletePort (k : Keeps s₀ s) (p : Nat) : Keeps s₀ (deletePort p s) := by
  have cut : Keeps s₀ (cutLeg (.port p) s) := k.setNet _ id id
  refine Keeps.noticeOfEdit ?_ _
  exact cut.setNet _ id (tableWf_tdel p)

theorem Keeps.joinLeg (k : Keeps s₀ s) (a b : Terminal) : Keeps s₀ (joinLeg a b s) := by
  have cut : Keeps s₀ (cutLeg b (cutLeg a s)) := (k.setNet _ id id).setNet _ id id
  refine Keeps.noticeOfEdit ?_ _
  exact cut.setNet _ id id

theorem Keeps.removeLeg (k : Keeps s₀ s) (a : Terminal) : Keeps s₀ (removeLeg a s) := by
  unfold Machine.removeLeg
  have cut : Keeps s₀ (cutLeg a s) := k.setNet _ id id
  split
  · exact cut.noticeOfEdit _
  · exact k

theorem Keeps.deleteRoute (k : Keeps s₀ s) (r : Nat) : Keeps s₀ (deleteRoute r s).2 := by
  unfold Machine.deleteRoute
  split
  · exact k
  simp only []
  split
  · split
    · exact k
    · exact k.setRoutes _ (tableWf_tdel _)
  · exact k.setRoutes _ (tableWf_tdel _)
  · exact k.setRoute _ _
  · exact k

theorem Keeps.requestGo (k : Keeps s₀ s) (plus : Bool) (ids : List Nat) : Keeps s₀ (requestGo plus ids s) := by
  have taken := fun q => k.takeRequest q
  unfold Machine.requestGo
  simp only []
  split
  · exact (taken _).setLink_same _ rfl rfl
  · exact (taken _).answer _ _
  · exact .followUp _ ((taken _).answer _ _).proceed

theorem Keeps.muteAckLost (k : Keeps s₀ s) : Keeps s₀ (muteAckLost s) := by
  unfold Machine.muteAckLost
  split
  · exact .ite (Keeps.advanceAll (((k.recordFault _).stopTransition _).setLatch _)) k
  · exact k

theorem Keeps.muteTimeout (k : Keeps s₀ s) : Keeps s₀ (muteTimeout s) :=
  .followUp _ (((k.recordFault _).updTrans _).endTransition _)

theorem Keeps.visitEnds (k : Keeps s₀ s) {st : StepRec} (at_ptr : stepAt s s.ring.ptr = some st) :
    Keeps s₀ (visitEnds st s).1 := by
  unfold Machine.visitEnds
  split
  · rename_i below
    exact k.visit at_ptr _ rfl rfl rfl rfl (Nat.le_add_left 1 _) below
  · exact k.leaveStep.beginEntry

theorem Keeps.dwellEnds (k : Keeps s₀ s) : Keeps s₀ (dwellEnds s).1 := by
  unfold Machine.dwellEnds
  split
  · rename_i st at_ptr
    split
    · exact k.visitEnds at_ptr
    · exact k
  · exact k

theorem Keeps.takeTrigger (k : Keeps s₀ s) : Keeps s₀ (takeTrigger s).1.1 := by
  unfold Machine.takeTrigger
  split
  · split
    · rename_i st at_ptr
      split
      · exact k.visitEnds at_ptr
      · exact k
    · exact k
  · split
    · exact k.setRing_same _ rfl rfl rfl rfl rfl
    · exact k.setRing_same _ rfl rfl rfl rfl rfl
  · exact k
  · exact k
  · exact k

theorem Keeps.trigTaken (k : Keeps s₀ s) (plus : Bool) : Keeps s₀ (trigTaken plus s) :=
  .followUp _ (.continueEntry (r := (_, _)) (k.takeTrigger.answer _ _))

theorem Keeps.startRun (k : Keeps s₀ s) (plus : Bool) {i : Nat} (range : i < s.ring.len) : Keeps s₀ (startRun plus i s) := by
  have aimed : Keeps s₀ (aimRing i s) :=
    (k.aim { s.ring with
      pass := 0, ptr := i, visit := 1, pendingTrig := false, overrun := false, holdPending := false, halt := none }
      rfl rfl (fun _ => range) rfl fun _ => Nat.zero_le _).endStaging true
  exact .followUp _ (.continueEntry (r := (_, _)) (aimed.beginEntry.answer _ _))

theorem Keeps.holdRing (k : Keeps s₀ s) : Keeps s₀ (holdRing s) := by
  unfold Machine.holdRing
  split
  · refine Keeps.endStaging (Keeps.setRing_same (k.other (by simp [view])) _ ?_ ?_ ?_ ?_ ?_) _ <;> simp
  · exact k.setRing_same _ rfl rfl rfl rfl rfl
  · exact k

theorem Keeps.resumeRing (k : Keeps s₀ s) : Keeps s₀ (resumeRing s) := by
  have cleared := k.setRing_same { s.ring with pendingTrig := false } rfl rfl rfl rfl rfl
  unfold Machine.resumeRing
  split
  · unfold Machine.resumeHeld
    simp only []
    split
    · exact .ite (cleared.beginDwell _ _).stageNext (cleared.beginDwell _ _)
    · exact cleared.setRing_same _ rfl rfl rfl rfl rfl
  · exact k.setRing_same _ rfl rfl rfl rfl rfl
  · exact k

theorem Keeps.stopRing (k : Keeps s₀ s) : Keeps s₀ (stopRing s) := by
  unfold Machine.stopRing
  split
  · exact k
  · exact k.setRing_same _ rfl rfl rfl rfl rfl
  · refine Keeps.endStaging ?_ _
    exact k.setRing_same _ rfl rfl rfl rfl rfl

theorem Keeps.endDiscovery (k : Keeps s₀ s) : Keeps s₀ (endDiscovery s) := by
  unfold Machine.endDiscovery
  have booted : Keeps s₀ (placeBoot s) := by
    unfold placeBoot
    simp only []
    split
    · rename_i room
      have room : s.link.notices.length < 32 := room
      exact k.setLink _ id fun _ => by simp only [List.length_cons]; omega
    · exact k.setLink _ id fun h => by simp only [List.length_cons, List.length_dropLast]; omega
  exact .ite (booted.other rfl) k

theorem Keeps.queueLine (k : Keeps s₀ s) (l : Line) : Keeps s₀ (queueLine l s) := by
  unfold Machine.queueLine
  split
  · rename_i room
    have room : s.link.lines.length < 8 := room
    exact k.setLink _ (fun _ => by simp only [List.length_append, List.length_cons, List.length_nil]; omega) id
  · exact k.setLink_same _ rfl rfl

theorem Keeps.gapExpires (k : Keeps s₀ s) : Keeps s₀ (gapExpires s) := by
  unfold Machine.gapExpires
  simp only []
  split
  · exact k
  split
  · exact k.setLink_same _ rfl rfl
  · exact (k.enqueue _).setLink_same _ rfl rfl

/-- An edit of step `i`, which is not at the pointer of a running ring: the table of steps replaced by one that reads the
same elsewhere, and the visit counter set to 1 for the step at the pointer (R117 to R119). -/
theorem Keeps.editStep (k : Keeps s₀ s) {i : Nat} (free : stepInUse s i = false) (t : Table StepRec)
    (wf : tableWf s.ring.steps = true → tableWf t = true) (other : ∀ j, j ≠ i → tget t j = tget s.ring.steps j)
    (reps : (∀ p ∈ s.ring.steps, 1 ≤ p.2.rep ∧ p.2.rep ≤ 16) → ∀ p ∈ t, 1 ≤ p.2.rep ∧ p.2.rep ≤ 16) :
    Keeps s₀ (afterStepEdit i (setSteps t s)) := by
  have here (g : Ring) (len : g.len = s.ring.len) (ptr : g.ptr = s.ring.ptr) (pass : g.pass = s.ring.pass)
      (steps : g.steps = t) (visit : g.visit = 1) : Keeps s₀ (s.setRing g) := by
    refine k.setRing g (fun r => ?_) (by rw [steps]; exact wf)
    obtain ⟨lens, ptrs, -, passes, old⟩ := r
    have reps' : ∀ p ∈ (s.setRing g).ring.steps, 1 ≤ p.2.rep ∧ p.2.rep ≤ 16 := by simpa [steps] using reps old
    exact ⟨by simpa [len] using lens, by simpa [len, ptr] using ptrs,
      ⟨Nat.le_of_eq visit.symm, Nat.le_trans (Nat.le_of_eq visit) (visitLimit_of_rep reps')⟩, by simpa [pass] using passes, reps'⟩
  have elsewhere (apart : s.ring.ptr ≠ i) : Keeps s₀ (setSteps t s) := by
    refine k.setRing _ (fun r => ?_) wf
    obtain ⟨lens, ptrs, ⟨low, high⟩, passes, old⟩ := r
    refine ⟨lens, ptrs, ⟨low, ?_⟩, passes, reps old⟩
    unfold visitLimit stepAt at high ⊢
    rwa [show (s.setRing { s.ring with steps := t }).ring.ptr = s.ring.ptr from rfl,
      show (s.setRing { s.ring with steps := t }).ring.steps = t from rfl, other _ apart]
  unfold afterStepEdit
  have state : (setSteps t s).ring.state = s.ring.state := rfl
  have ptr : (setSteps t s).ring.ptr = s.ring.ptr := rfl
  cases run : s.ring.state with
  | idle =>
    simp only [state, run, ptr]
    split
    · exact here _ rfl rfl rfl rfl rfl
    · rename_i apart; exact elsewhere (Ne.symm apart)
  | halted =>
    simp only [state, run, ptr]
    split
    · exact here _ rfl rfl rfl rfl rfl
    · rename_i apart; exact elsewhere (Ne.symm apart)
  | entering =>
    simp only [state, run]
    exact elsewhere (by simpa [stepInUse, ringRuns, run] using free)
  | dwelling =>
    have apart : s.ring.ptr ≠ i := by simpa [stepInUse, ringRuns, run] using free
    simp only [state, run]
    exact .ite ((elsewhere apart).endStaging _) (elsewhere apart)
  | held =>
    have apart : s.ring.ptr ≠ i := by simpa [stepInUse, ringRuns, run] using free
    simp only [state, run]
    exact .ite ((elsewhere apart).endStaging _) (elsewhere apart)

/-! #### Every row -/

/-- An invariant that follows `Keeps` survives every row, if the resets and FCLEAR keep it. -/
theorem acts_preserve {P : State → Prop} {i : Instr} {s v : State} (h : Acts i s v) (p : P s)
    (keeps : ∀ t u, Keeps t u → P t → P u) (reset : ∀ c, resets i s = true → P (beginReset c s))
    (start : i = .resetEnd → P (startUp s))
    (clear : ∀ plus, i = .fclear plus → P (s.setRecords { s.records with fault := none, more := 0 })) : P v := by
  have k := Keeps.refl s
  induction h with
  | replies o h ih => exact keeps _ _ ((Keeps.refl _).placeReply o) (ih p reset start clear k)
  | beginReset c s h => exact reset c h
  | startUp s h => exact start rfl
  | clearFault plus s => exact clear plus rfl
  | nothing i s => exact p
  | endDiscovery s => exact keeps _ _ k.endDiscovery p
  | queueLine chars framing l s => exact keeps _ _ (k.queueLine l) p
  | dropLine s l rest h =>
    exact keeps _ _ (k.setLink _ (fun len => by rw [h, List.length_cons] at len; exact Nat.le_of_succ_le len) id) p
  | noticeSent s n h => exact keeps _ _ (k.setLink_same _ rfl rfl) p
  | replySent s h => exact keeps _ _ (k.setLink_same _ rfl rfl) p
  | gapExpires s => exact keeps _ _ k.gapExpires p
  | mask plus change l s => exact keeps _ _ (k.setLink_same _ rfl rfl) p
  | holds h s => exact keeps _ _ (k.setLink_same _ rfl rfl) p
  | writeEnds r s => exact keeps _ _ (k.writeEnds r) p
  | setSite v s => exact keeps _ _ (k.setSite v) p
  | defineElem plus e kind n card slot pulse settle guard life x s => exact keeps _ _ (k.defineElem e x) p
  | deleteElem plus e s => exact keeps _ _ (k.deleteElem e) p
  | definePort plus n cls fixture s => exact keeps _ _ (k.definePort n cls fixture) p
  | deletePort plus n s => exact keeps _ _ (k.deletePort n) p
  | joinLeg plus a b s => exact keeps _ _ (k.joinLeg a b) p
  | removeLeg plus a s => exact keeps _ _ (k.removeLeg a) p
  | setRefs plus e n slot x refs s => exact keeps _ _ (k.setElem e _) p
  | setCable plus n slot q s => exact keeps _ _ (k.setNet _ id (tableWf_tput _ _)) p
  | setReleased l s => exact keeps _ _ (k.setNet _ id id) p
  | setLocked b s => exact keeps _ _ (k.setNet _ id id) p
  | defineRoute r src dst hops found s => exact keeps _ _ (k.setRoute r _) p
  | deleteRoute plus r s => exact keeps _ _ (k.deleteRoute r) p
  | requestGo plus ids s => exact keeps _ _ (k.requestGo plus ids) p
  | muteSeen s => exact keeps _ _ (.followUp _ (Keeps.startBreak (k.other rfl))) p
  | muteUp s => exact keeps _ _ (k.other rfl) p
  | muteDown s => exact keeps _ _ (Keeps.muteAckLost (k.other rfl)) p
  | muteTimeout s => exact keeps _ _ k.muteTimeout p
  | freeBus s => exact keeps _ _ (k.setTx none) p
  | noAnswer s => exact keeps _ _ k.noAnswer p
  | pulseEnds e s => exact keeps _ _ (k.pulseEnds e) p
  | settleEnds e s => exact keeps _ _ (k.settleEnds e) p
  | senseReturns got s => exact keeps _ _ (k.senseReturns got) p
  | retryEnds e s => exact keeps _ _ (k.retryEnds e) p
  | halt plus s => exact keeps _ _ k.haltEngine p
  | survey plus s => exact keeps _ _ (.ite k (k.setEngine _)) p
  | defineStep plus n dwell rep freq flags ids x s free len group low high =>
    refine keeps _ _ (k.editStep free _ (tableWf_tput _ _) (fun j h => tget_tput_other _ _ _ _ h) fun old q mem => ?_) p
    rcases mem_tput mem with rfl | mem
    · exact ⟨low, high⟩
    · exact old q mem
  | deleteStep plus n s free =>
    exact keeps _ _ (k.editStep free _ (tableWf_tdel _) (fun j h => tget_tdel_other _ _ _ h)
      fun old q mem => old q ((tdel_sublist _ _).subset mem)) p
  | setRingLen plus len s runs low high =>
    refine keeps _ _ (k.setRing _ (fun r => ?_) id) p
    obtain ⟨-, -, -, passes, reps⟩ := r
    exact ⟨⟨low, high⟩, low, ⟨Nat.le_refl 1, visitLimit_of_rep reps⟩, passes, reps⟩
  | startRun plus n s range => exact keeps _ _ (k.startRun plus range) p
  | markEnds s => exact keeps _ _ (k.setRing_same _ rfl rfl rfl rfl rfl) p
  | dwellEnds s => exact keeps _ _ (.followUp _ k.dwellEnds.continueEntry) p
  | trigger s => exact keeps _ _ (.followUp _ k.takeTrigger.continueEntry) p
  | trig plus s => exact keeps _ _ (k.trigTaken plus) p
  | hold plus s => exact keeps _ _ k.holdRing p
  | resume plus s => exact keeps _ _ k.resumeRing p
  | stop plus s => exact keeps _ _ k.stopRing p
  | dwellRead plus s => exact keeps _ _ (.ite (k.other rfl) k) p
  | beginRound s => exact keeps _ _ ((k.setBus _).roundAt 0) p
  | polled good oc s => exact keeps _ _ (k.pollDone _) p
  | beginRestart plus n s => exact keeps _ _ (k.beginRestart n) p
  | restartAcked n s => exact keeps _ _ ((k.setTx none).setRestart n _) p
  | restartWaited n s => exact keeps _ _ (k.setRestart n _) p
  | restartPolled good oc n s => exact keeps _ _ ((k.setTx none).restartPolled n _) p
  | ackCard plus n s => exact keeps _ _ (k.setCard_same n _ rfl) p
  | ackCards plus s =>
    refine keeps _ _ (k.setCards _ (tableWf_bmap _ _) fun wf b n => ?_) p
    rw [cardAt, State.setCards_cards, bget_bmap cardReset ackCard rfl wf]
    exact b n
  | fpresAt n present s => exact keeps _ _ (k.setFixture n _) p
  | foundPresent n s => exact keeps _ _ (k.foundPresent n) p
  | foundAbsent n s => exact keeps _ _ (k.foundAbsent n) p
  | beginAdmission plus n s => exact keeps _ _ (k.beginAdmission n) p
  | admitWaitEnds n s => exact keeps _ _ (k.admitWaitEnds n) p
  | identityRead n b0 b1 b2 b3 s => exact keeps _ _ (k.identityRead n b0 b1 b2 b3) p
  | identityTimeout n s => exact keeps _ _ (k.failAdmission n _) p
  | supplyDown n s => exact keeps _ _ ((k.setFixture n _).watchSupply n) p
  | supplyUp n s => exact keeps _ _ (k.setFixture n _) p
  | toBench plus n s => exact keeps _ _ (k.toBench n) p
  | toLocal plus n s => exact keeps _ _ (k.changeFixture n _) p
  | ackFixture plus n s => exact keeps _ _ (k.setFixture n _) p
  | ackFixtures plus s => exact keeps _ _ (k.setFixtures _ (tableWf_bmap _ _)) p
  | loopInputAt n closed s => exact keeps _ _ (k.setLoop n _) p
  | loopOpens n s => exact keeps _ _ (k.loopOpens n) p
  | loopCloses n s => exact keeps _ _ (k.loopCloses n) p
  | confirm plus n s => exact keeps _ _ (k.confirmLoop plus n) p
  | clearElem plus e s =>
    have cleared := k.updElem e fun x => if x.faulted then { x with faulted := false, pos := none } else x
    refine keeps _ _ ?_ p
    unfold clearElem
    simp only []
    split
    · exact .ite (cleared.setEngine _) cleared
    · exact cleared
  | clearLate plus s =>
    refine keeps _ _ ?_ p
    have kept (l : Nat) := k.setRecords
      { s.records with late := l, wear := bmap wearZero (fun w => { w with late := 0 }) s.records.wear }
      (fun wf => tableWf_bmap wearZero (fun w => { w with late := 0 }) wf) fun _ h => h
    exact kept 0
  | setWear plus e count s =>
    refine keeps _ _ ?_ p
    exact k.setRecords _ (fun wf => tableWf_bput _ _ _ wf) fun _ h => h

end Sys2Proof.StepLaws

/-! ### The ring's ranges, the queues, the fault record and the legs -/

namespace Sys2Proof.StepLaws

open Sys2Proof.Machine Sys2Proof.Laws

variable {s : State}

/-! #### Resets -/

theorem clearVolatile_ring (s : State) : (clearVolatile s).ring = ringReset := by simp [clearVolatile]
theorem clearVolatile_link (s : State) : (clearVolatile s).link = linkReset := by simp [clearVolatile]
theorem clearVolatile_net (s : State) : (clearVolatile s).net = netReset := by simp [clearVolatile]
theorem clearVolatile_engine (s : State) : (clearVolatile s).engine = engineReset := by simp [clearVolatile]
theorem clearVolatile_cards (s : State) : (clearVolatile s).cards = [] := by simp [clearVolatile]

theorem beginReset_ring (c : ResetCause) (s : State) : (beginReset c s).ring = ringReset := by
  simp [beginReset, clearVolatile]
theorem beginReset_link (c : ResetCause) (s : State) : (beginReset c s).link = linkReset := by
  simp [beginReset, clearVolatile]
theorem beginReset_net (c : ResetCause) (s : State) : (beginReset c s).net = netReset := by
  simp [beginReset, clearVolatile]
theorem beginReset_engine (c : ResetCause) (s : State) : (beginReset c s).engine = engineReset := by
  simp [beginReset, clearVolatile]
theorem beginReset_cards (c : ResetCause) (s : State) : (beginReset c s).cards = [] := by
  simp [beginReset, clearVolatile]

theorem startUp_ring (s : State) : (startUp s).ring = ringReset := by
  simp [startUp, startFilters, clearVolatile, storeLoad]
theorem startUp_link (s : State) : (startUp s).link = linkReset := by
  simp [startUp, startFilters, clearVolatile, storeLoad]
theorem startUp_net (s : State) : (startUp s).net = netReset := by
  simp [startUp, startFilters, clearVolatile, storeLoad]
theorem startUp_engine (s : State) : (startUp s).engine = engineReset := by
  simp [startUp, startFilters, clearVolatile, storeLoad]
theorem startUp_cards (s : State) : (startUp s).cards = [] := by
  simp [startUp, startFilters, clearVolatile, storeLoad]

theorem beginReset_fixtures (c : ResetCause) (s : State) :
    (beginReset c s).fixtures = fixturesReset (abandonWrite s).fixtures := by
  simp [beginReset, clearVolatile]
theorem beginReset_loops (c : ResetCause) (s : State) :
    (beginReset c s).loops = loopsReset (abandonWrite s).loops := by
  simp [beginReset, clearVolatile]
theorem beginReset_wear (c : ResetCause) (s : State) :
    (beginReset c s).records.wear = (abandonWrite s).records.wear := by
  simp [beginReset, clearVolatile]
theorem beginReset_images (c : ResetCause) (s : State) : (beginReset c s).images = (abandonWrite s).images := by
  simp [beginReset, clearVolatile]
theorem beginReset_store (c : ResetCause) (s : State) : (beginReset c s).store = (abandonWrite s).store := by
  simp [beginReset, clearVolatile]

theorem startUp_fixtures (s : State) :
    (startUp s).fixtures = tmap (fun _ f => { f with counting := f.fpres }) (fixturesReset s.fixtures) := by
  simp [startUp, startFilters, clearVolatile, storeLoad]
theorem startUp_loops (s : State) :
    (startUp s).loops = tmap (fun _ l => { l with counting := l.input }) (loopsReset s.loops) := by
  simp [startUp, startFilters, clearVolatile, storeLoad]
theorem startUp_wear (s : State) :
    (startUp s).records.wear = wearOf ((validOf s.store.wear).getD []) := by
  simp [startUp, startFilters, clearVolatile, storeLoad]
theorem startUp_images (s : State) : (startUp s).images = imagesOf s.store.curves := by
  simp [startUp, startFilters, clearVolatile, storeLoad]

/-- A bank built by writing records into a canonical one is canonical. -/
theorem tableWf_foldl_bput {α β : Type} [DecidableEq α] (d : α) (f : β → α) (l : Table β) {acc : Table α}
    (w : tableWf acc = true) : tableWf (l.foldl (fun acc p => bput d acc p.1 (f p.2)) acc) = true := by
  induction l generalizing acc with
  | nil => exact w
  | cons p l ih => exact ih (tableWf_bput _ _ _ w)

theorem tableWf_fixturesReset (t : Table Fixture) : tableWf (fixturesReset t) = true :=
  tableWf_foldl_bput fixtureReset (fun f : Fixture => { fixtureReset with fpres := f.fpres, fflt := f.fflt }) t
    (acc := []) rfl

theorem tableWf_loopsReset (t : Table Loop) : tableWf (loopsReset t) = true :=
  tableWf_foldl_bput loopReset (fun l : Loop => { loopReset with input := l.input }) t (acc := []) rfl

theorem tableWf_wearOf (t : WearCounts) : tableWf (wearOf t) = true :=
  tableWf_foldl_bput wearZero (fun n : Nat => { wearZero with count := n }) t (acc := []) rfl

theorem tableWf_imagesOf {t : Table (Stored Curve)} (w : tableWf t = true) : tableWf (imagesOf t) = true := by
  rw [tableWf_iff] at w ⊢
  refine List.Pairwise.filterMap _ (fun a b lt c hc d hd => ?_) w
  obtain ⟨-, -, rfl⟩ := Option.map_eq_some_iff.1 hc
  obtain ⟨-, -, rfl⟩ := Option.map_eq_some_iff.1 hd
  exact lt

theorem tablesSafe_beginReset (c : ResetCause) (h : TablesSafe s) : TablesSafe (beginReset c s) := by
  obtain ⟨-, -, -, -, -, -, -, wear, images, curves⟩ := (Keeps.refl s).abandonWrite.tables h
  rw [TablesSafe, beginReset_fixtures, beginReset_loops, beginReset_wear, beginReset_images, beginReset_store]
  exact ⟨rfl, rfl, rfl, rfl, rfl, tableWf_fixturesReset _, tableWf_loopsReset _, wear, images, curves⟩

theorem tablesSafe_startUp (h : TablesSafe s) : TablesSafe (startUp s) := by
  obtain ⟨-, -, -, -, -, -, -, -, -, curves⟩ := h
  rw [TablesSafe, startUp_fixtures, startUp_loops, startUp_wear, startUp_images]
  exact ⟨rfl, rfl, rfl, rfl, rfl, tableWf_tmap _ (tableWf_fixturesReset _), tableWf_tmap _ (tableWf_loopsReset _),
    tableWf_wearOf _, tableWf_imagesOf curves, curves⟩

theorem ringSafe_of_reset (h : s.ring = ringReset) : RingSafe s := by
  unfold RingSafe visitLimit stepAt
  rw [h]
  exact ⟨by decide, by decide, by decide, by decide, by decide⟩

theorem linkSafe_of_reset (h : s.link = linkReset) : LinkSafe s := by
  rw [LinkSafe, h]
  decide

theorem budgetSafe_of_reset (h : s.cards = []) : BudgetSafe s := fun n => by
  rw [cardAt, h]
  exact Nat.zero_le 2

/-! #### The taking of a command and of a line -/

theorem Keeps.setPending {s₀ : State} (k : Keeps s₀ s) (l : List Instr) : Keeps s₀ (s.setPending l) := k.other rfl

theorem Keeps.taken {s₀ u : State} (k : Keeps s₀ s) (h : Taken s u) : Keeps s₀ u := by
  obtain ⟨same, l, lines⟩ := h
  rw [same]
  exact k.setLink _ (fun len => by rw [lines, List.length_append] at len; simp only []; omega) id

/-- An invariant that follows `Keeps` and that resets and FCLEAR keep survives every step. -/
theorem step_preserves {P : State → Prop} {s t : State} (p : P s) (h : step s = .next t)
    (keeps : ∀ t u, Keeps t u → P t → P u) (reset : ∀ c s, P s → P (beginReset c s)) (start : ∀ s, P s → P (startUp s))
    (clear : ∀ s : State, P s → P (s.setRecords { s.records with fault := none, more := 0 })) : P t :=
  step_keeps (fun s l => keeps _ _ ((Keeps.refl s).setPending l)) (fun s _ t => keeps _ _ ((Keeps.refl s).taken t))
    (fun _ s _ act p => acts_preserve act p keeps (fun c _ => reset c s p) (fun _ => start s p) fun _ _ => clear s p)
    (fun s => keeps _ _ (Keeps.refl s).settle) p h

/-- Settles O52: each operation keeps the ring's numbers in range (`Keeps`), and a reset sets them anew. -/
theorem stepsKeepTheRingInRange : Obligations.StepsKeepTheRingInRange := fun _ _ safe h =>
  step_preserves safe h (fun _ _ k => k.ring) (fun _ _ _ => ringSafe_of_reset rfl) (fun _ _ => ringSafe_of_reset rfl)
    fun _ => id

/-- Settles O53: a line and a notice join their queues only while there is room. -/
theorem stepsKeepTheQueuesBounded : Obligations.StepsKeepTheQueuesBounded := fun _ _ safe h =>
  step_preserves safe h (fun _ _ k => k.link) (fun _ _ _ => linkSafe_of_reset rfl) (fun _ _ => linkSafe_of_reset rfl)
    fun _ => id

theorem step_tablesSafe {s t : State} (safe : TablesSafe s) (h : step s = .next t) : TablesSafe t :=
  step_preserves safe h (fun _ _ k => k.tables) (fun _ _ => tablesSafe_beginReset _) (fun _ => tablesSafe_startUp)
    fun _ => id

theorem step_budgetSafe {s t : State} (tables : TablesSafe s) (safe : BudgetSafe s) (h : step s = .next t) :
    BudgetSafe t :=
  (step_preserves (P := fun s => TablesSafe s ∧ BudgetSafe s) ⟨tables, safe⟩ h
    (fun _ _ k p => ⟨k.tables p.1, k.budget p.1 p.2⟩)
    (fun _ _ p => ⟨tablesSafe_beginReset _ p.1, budgetSafe_of_reset rfl⟩)
    (fun _ p => ⟨tablesSafe_startUp p.1, budgetSafe_of_reset rfl⟩) fun _ => id).2

/-- Settles O58: `recordFault` fills an empty record only, and no other operation but FCLEAR and a reset writes it. -/
theorem faultRecordsStayAsRecorded : Obligations.FaultRecordsStayAsRecorded := by
  intro i s t f present noReset noClear h
  rcases exec_moves h with rfl | ⟨u, v, taken, act, rfl⟩
  · exact present
  have slot : resets i u = resets i s := by
    rw [taken.1]
    cases i <;> rfl
  refine (Keeps.refl v).settle.fault f (acts_preserve (P := fun s => s.records.fault = some f) act
    (((Keeps.refl s).taken taken).fault f present) (fun _ _ k => k.fault f) (fun c r => ?_) (fun r => ?_)
    fun plus eq => absurd eq (noClear plus))
  · rw [slot, noReset] at r; contradiction
  · subst r; contradiction

/-! #### Legs -/

/-- Two legs that share no terminal (R32). -/
def Apart (l m : Terminal × Terminal) : Prop := l.1 ≠ m.1 ∧ l.1 ≠ m.2 ∧ l.2 ≠ m.1 ∧ l.2 ≠ m.2

theorem legsSafe_congr {t : State} (h : t.net.legs = s.net.legs) (safe : LegsSafe s) : LegsSafe t := by
  rw [LegsSafe, h]
  exact safe

/-- Cutting legs keeps the rest paired. -/
theorem legsSafe_sublist {t : State} (h : t.net.legs.Sublist s.net.legs) (safe : LegsSafe s) : LegsSafe t :=
  ⟨fun l mem => safe.1 l (h.subset mem), safe.2.sublist h⟩

theorem cutLegs_sublist (l : List Terminal) (s : State) : (cutLegs l s).net.legs.Sublist s.net.legs := by
  induction l generalizing s with
  | nil => exact List.Sublist.refl _
  | cons a l ih => exact (ih (cutLeg a s)).trans List.filter_sublist

theorem dropElemUse_sublist (e : Nat) (s : State) : (dropElemUse e s).net.legs.Sublist s.net.legs := by
  unfold dropElemUse
  split
  · exact cutLegs_sublist _ s
  · exact List.Sublist.refl _

theorem joinLeg_legs (a b : Terminal) (s : State) :
    (joinLeg a b s).net.legs = (cutLeg b (cutLeg a s)).net.legs ++ [(a, b)] := rfl

/-- A leg joined between two other terminals, after their former legs are cut (R34). -/
theorem legsSafe_joinLeg {a b : Terminal} (apart : a ≠ b) (safe : LegsSafe s) : LegsSafe (joinLeg a b s) := by
  have rest : ∀ l ∈ (cutLeg b (cutLeg a s)).net.legs, l ∈ s.net.legs ∧ Apart l (a, b) := fun l mem => by
    obtain ⟨mem, b1, b2⟩ := (cutLeg_mem b _ l).1 mem
    obtain ⟨mem, a1, a2⟩ := (cutLeg_mem a _ l).1 mem
    exact ⟨mem, a1, b1, a2, b2⟩
  have cut : (cutLeg b (cutLeg a s)).net.legs.Sublist s.net.legs := List.filter_sublist.trans List.filter_sublist
  rw [LegsSafe, joinLeg_legs]
  refine ⟨fun l mem => ?_, List.pairwise_append.2 ⟨safe.2.sublist cut, List.pairwise_singleton _ _, fun l mem m is => ?_⟩⟩
  · rcases List.mem_append.1 mem with mem | is
    · exact safe.1 l (rest l mem).1
    · rw [List.mem_singleton.1 is]; exact apart
  · rw [List.mem_singleton.1 is]; exact (rest l mem).2

theorem acts_legsSafe {i : Instr} {v : State} (h : Acts i s v) (safe : LegsSafe s) : LegsSafe v := by
  induction h with
  | replies o h ih => exact legsSafe_congr (by simp) (ih safe)
  | beginReset c s | startUp s => exact ⟨fun l mem => absurd mem List.not_mem_nil, List.Pairwise.nil⟩
  | defineElem plus e kind n card slot pulse settle guard life x s =>
    exact legsSafe_congr (s := dropElemUse e s) (by simp [defineElem]) (legsSafe_sublist (dropElemUse_sublist e s) safe)
  | deleteElem plus e s =>
    exact legsSafe_congr (s := dropElemUse e s) (by simp [deleteElem]) (legsSafe_sublist (dropElemUse_sublist e s) safe)
  | deletePort plus p s => exact legsSafe_sublist (List.filter_sublist) safe
  | joinLeg plus a b s engaged apart =>
    refine legsSafe_joinLeg (fun same => ?_) safe
    simp [sameTerminal, same] at apart
  | removeLeg plus a s =>
    unfold removeLeg
    split
    · exact legsSafe_sublist List.filter_sublist safe
    · exact safe
  | _ => exact legsSafe_congr (by simp [muteTimeout]) safe

/-- Settles O56: only ELEM, ELEMDEL, PORTDEL, LEG and the resets touch the legs; each cuts, and LEG joins two terminals
whose legs it has cut. -/
theorem stepsKeepTheLegsPaired : Obligations.StepsKeepTheLegsPaired := fun _ _ safe h =>
  step_keeps (P := LegsSafe) (fun _ _ => legsSafe_congr rfl)
    (fun s u taken => legsSafe_congr (by rw [taken.1]; rfl)) (fun _ _ _ => acts_legsSafe)
    (fun s => legsSafe_congr (by simp)) safe h

end Sys2Proof.StepLaws

/-! ### What issuing a drive and losing a card do, field by field -/

namespace Sys2Proof.StepLaws

open Sys2Proof.Machine Sys2Proof.Laws

/-! #### A drive issued -/

/-- The drive that begins when a DRIVE is issued to `e` (R95). -/
def newDrive (e target : Nat) (x : Elem) : Drive :=
  { elem := e, target := target, settle := x.settle,
    stage := if isEm x.kind then .pulsing (x.pulse.getD 0) else .settling x.settle }

/-- The state with a DRIVE of `e` on the bus and in progress, before its pulse and its throw are counted (R95). -/
def driveBegun (e target : Nat) (x : Elem) (s : State) : State :=
  let s := setElem e { x with pos := none } (setTx (some (.drive x.card x.slot e target x.pulse)) s)
  s.setEngine { s.engine with active := s.engine.active ++ [newDrive e target x] }

/-- The pulse of an EM drive counted on its card, and its element named as the transition's last EM element. -/
def pulseBegun (e : Nat) (x : Elem) (s : State) : State :=
  let s := if isEm x.kind then setPulses x.card (fun p => p + 1) s else s
  if isEm x.kind && inFlight s then updTrans (fun t => { t with lastEm := some e }) s else s

theorem issueDrive_eq (e target : Nat) (x : Elem) (s : State) :
    issueDrive e target x s = countDrive e (pulseBegun e x (driveBegun e target x s)) := rfl

@[simp] theorem pulseBegun_active (e : Nat) (x : Elem) (s : State) :
    (pulseBegun e x s).engine.active = s.engine.active := by
  unfold pulseBegun
  simp only []
  split <;> split <;> simp

@[simp] theorem pulseBegun_wear (e : Nat) (x : Elem) (s : State) : (pulseBegun e x s).records = s.records := by
  unfold pulseBegun
  simp only []
  split <;> split <;> simp

@[simp] theorem pulseBegun_bus (e : Nat) (x : Elem) (s : State) : (pulseBegun e x s).bus = s.bus := by
  unfold pulseBegun
  simp only []
  split <;> split <;> simp

@[simp] theorem pulseBegun_net (e : Nat) (x : Elem) (s : State) : (pulseBegun e x s).net = s.net := by
  unfold pulseBegun
  simp only []
  split <;> split <;> simp

theorem issueDrive_active (e target : Nat) (x : Elem) (s : State) :
    (issueDrive e target x s).engine.active = s.engine.active ++ [newDrive e target x] := by
  simp [issueDrive_eq, driveBegun]

theorem issueDrive_tx (e target : Nat) (x : Elem) (s : State) :
    (issueDrive e target x s).bus.tx = some (.drive x.card x.slot e target x.pulse) := by
  simp [issueDrive_eq, driveBegun, setTx]

theorem elemAt_issueDrive (e target : Nat) (x : Elem) (s : State) (f : Nat) :
    elemAt (issueDrive e target x s) f = if f = e then some { x with pos := none } else elemAt s f := by
  have net : (issueDrive e target x s).net = (driveBegun e target x s).net := by simp [issueDrive_eq]
  rw [elemAt, net]
  exact elemAt_setElem e f _ _

/-! #### A card lost -/

/-- The elements of card `n` at their known positions when it leaves ENABLED (R104). -/
def parkElems (n : Nat) (s : State) : State :=
  s.setNet { s.net with
    elems := tmap (fun e x => if x.card = n
      then { x with pos := positionOff ((s.engine.active.map fun d => d.elem).contains e) x } else x) s.net.elems }

/-- The engine without the drives, senses and staging entries of the elements `on` (R105, R108). -/
def engineWithout (on : List Nat) (g : Engine) : Engine :=
  { g with
    active := g.active.filter fun d => !on.contains d.elem
    due := g.due.filter fun e => !on.contains e
    staging := { g.staging with todo := g.staging.todo.filter fun p => !on.contains p.1 }
    survey := { g.survey with
      current := match g.survey.current with
        | some e => if on.contains e then none else some e
        | none => none } }

/-- The transition record without the waiting drives of the elements `on` (R105). -/
def transWithout (on : List Nat) (t : Trans) : Trans :=
  { t with
    brkTodo := t.brkTodo.filter fun e => !on.contains e
    makTodo := t.makTodo.filter fun p => !on.contains p.1 }

/-- The transition record rewritten, whether or not one is held. -/
theorem updTrans_eq (f : Trans → Trans) (s : State) :
    updTrans f s = s.setEngine { s.engine with trans := s.engine.trans.map f } := by
  unfold updTrans
  cases h : s.engine.trans with
  | some t => rfl
  | none => simp only [Option.map_none]; rw [← h]; rfl

theorem dropCardDrives_eq (n : Nat) (s : State) : dropCardDrives n s =
    (parkElems n s).setEngine { engineWithout (elemsOnCard s n) s.engine with
      trans := if inFlight s then s.engine.trans.map (transWithout (elemsOnCard s n)) else s.engine.trans } := by
  have flight : inFlight ((parkElems n s).setEngine (engineWithout (elemsOnCard s n) s.engine)) = inFlight s := rfl
  have trans : ((parkElems n s).setEngine (engineWithout (elemsOnCard s n) s.engine)).engine.trans = s.engine.trans := rfl
  have eq : dropCardDrives n s = if inFlight s then
      updTrans (transWithout (elemsOnCard s n)) ((parkElems n s).setEngine (engineWithout (elemsOnCard s n) s.engine))
      else (parkElems n s).setEngine (engineWithout (elemsOnCard s n) s.engine) := rfl
  rw [eq]
  split
  · rw [updTrans_eq, trans]
    rfl
  · rfl

theorem dropCardDrives_engine (n : Nat) (s : State) : (dropCardDrives n s).engine =
    { engineWithout (elemsOnCard s n) s.engine with
      trans := if inFlight s then s.engine.trans.map (transWithout (elemsOnCard s n)) else s.engine.trans } := by
  rw [dropCardDrives_eq]
  rfl

theorem elemAt_dropCardDrives (n : Nat) (s : State) (e : Nat) : elemAt (dropCardDrives n s) e =
    (elemAt s e).map fun x => if x.card = n
      then { x with pos := positionOff ((s.engine.active.map fun d => d.elem).contains e) x } else x := by
  have net : (dropCardDrives n s).net = (parkElems n s).net := by rw [dropCardDrives_eq]; rfl
  rw [elemAt, net, parkElems, State.setNet_net]
  simp only []
  rw [tget_tmap]
  rfl

/-! ### Throw counts (R190) -/

variable {e : Nat} {s s₀ t : State}

/-- From `s` to `t` element `e`'s throw count stands, and no element has a drive in progress that had none. -/
structure Uncounted (e : Nat) (s t : State) : Prop where
  wear : tableWf s.records.wear = true → tableWf t.records.wear = true ∧ (wearAt t e).count = (wearAt s e).count
  active : ∀ d ∈ t.engine.active, ∃ d' ∈ s.engine.active, d'.elem = d.elem

theorem Uncounted.refl (e : Nat) (s : State) : Uncounted e s s := ⟨fun w => ⟨w, rfl⟩, fun d mem => ⟨d, mem, rfl⟩⟩

theorem Uncounted.trans {u : State} (a : Uncounted e s t) (b : Uncounted e t u) : Uncounted e s u := by
  refine ⟨fun w => ?_, fun d mem => ?_⟩
  · obtain ⟨wt, ct⟩ := a.wear w
    obtain ⟨wu, cu⟩ := b.wear wt
    exact ⟨wu, cu.trans ct⟩
  · obtain ⟨d', mem', same'⟩ := b.active d mem
    obtain ⟨d'', mem'', same''⟩ := a.active d' mem'
    exact ⟨d'', mem'', same''.trans same'⟩

/-- An operation that leaves the wear table and the drives in progress alone. -/
theorem Uncounted.other (wear : t.records.wear = s.records.wear) (active : t.engine.active = s.engine.active) :
    Uncounted e s t :=
  ⟨fun w => by rw [wearAt, wear]; exact ⟨w, rfl⟩, fun d mem => ⟨d, active ▸ mem, rfl⟩⟩

theorem Uncounted.then_other {u : State} (a : Uncounted e s t) (wear : u.records.wear = t.records.wear)
    (active : u.engine.active = t.engine.active) : Uncounted e s u := a.trans (.other wear active)

/-- An operation that leaves the wear table alone and only moves or ends drives. -/
theorem Uncounted.drives (wear : t.records.wear = s.records.wear)
    (active : ∀ d ∈ t.engine.active, ∃ d' ∈ s.engine.active, d'.elem = d.elem) : Uncounted e s t :=
  ⟨fun w => by rw [wearAt, wear]; exact ⟨w, rfl⟩, active⟩

theorem Uncounted.ite {c : Prop} [Decidable c] {a b : State} (ha : Uncounted e s a) (hb : Uncounted e s b) :
    Uncounted e s (if c then a else b) := by
  split
  · exact ha
  · exact hb

theorem Uncounted.notify (h : Uncounted e s t) (n : Notice) : Uncounted e s (notify n t) :=
  h.then_other (by simp) (by simp)

theorem uncounted_setStage (f : Nat) (g : DriveStage) (s : State) : Uncounted e s (setStage f g s) := by
  refine .drives (by simp) fun d mem => ?_
  obtain ⟨d', mem', rfl⟩ := List.mem_map.1 mem
  refine ⟨d', mem', ?_⟩
  split <;> rfl

theorem uncounted_dropDrive (f : Nat) (s : State) : Uncounted e s (dropDrive f s) :=
  .drives (by simp) fun d mem => ⟨d, (List.mem_filter.1 mem).1, rfl⟩

theorem uncounted_cardLeft (n : Nat) (s : State) : Uncounted e s (cardLeft n s) := by
  have dropped : Uncounted e s (dropCardDrives n s) := .drives (by simp) fun d mem => by
    rw [dropCardDrives_engine] at mem
    exact ⟨d, (List.mem_filter.1 mem).1, rfl⟩
  refine dropped.then_other ?_ ?_
  all_goals
    unfold cardLeft
    simp only []
    split <;> simp

theorem uncounted_leaveEnabled (n : Nat) (s : State) : Uncounted e s (leaveEnabled n s) :=
  (Uncounted.other (by simp) (by simp)).trans (uncounted_cardLeft n _)

theorem uncounted_beginRestart (n : Nat) (s : State) : Uncounted e s (beginRestart n s) := by
  unfold beginRestart
  simp only []
  have begun (c : Card) : Uncounted e s (setCard n c (changeCard n .restarting s)) := .other (by simp) (by simp)
  split
  · exact (begun _).trans (uncounted_leaveEnabled n _)
  · exact begun _

theorem uncounted_loseCard (n : Nat) (s : State) : Uncounted e s (loseCard n s) :=
  (Uncounted.other (by simp) (by simp)).trans (uncounted_leaveEnabled n _)

theorem uncounted_disableCard (n : Nat) (s : State) : Uncounted e s (disableCard n s) :=
  (Uncounted.other (by simp) (by simp)).trans (uncounted_leaveEnabled n _)

theorem uncounted_pollDone (p : PollResult) (s : State) : Uncounted e s (pollDone p s) := by
  unfold pollDone
  split
  · rename_i n _
    refine Uncounted.then_other (t := roundPolled n p (setTx none s)) ?_ (by simp) (by simp)
    unfold roundPolled
    have last (n : Nat) : Uncounted e s (setLast n p (setTx none s)) := .other (by simp) (by simp)
    simp only []
    split
    · exact last _
    · exact (last n).then_other (by simp) (by simp)
    · exact (last n).then_other (by simp) (by simp)
    · exact last _
    · exact last _
    · exact (last _).trans (uncounted_loseCard _ _)
    · exact (last _).trans (uncounted_disableCard _ _)
    · exact last _
  · rename_i n _
    refine Uncounted.then_other (t := if p = .silent then setLast n p (setTx none s)
      else beginRestart n (setLast n p (setTx none s))) ?_ (by simp [discoveryAfter]) (by simp [discoveryAfter])
    have last : Uncounted e s (setLast n p (setTx none s)) := .other (by simp) (by simp)
    split
    · exact last
    · exact last.trans (uncounted_beginRestart n _)
  · exact .refl e s

theorem uncounted_noAnswer (s : State) : Uncounted e s (noAnswer s) := by
  have freed : Uncounted e s (setTx none s) := .other (by simp) (by simp)
  have lost (n : Nat) : Uncounted e s (if cardEnabled (setTx none s) n then loseCard n (setTx none s) else setTx none s) := by
    split
    · exact freed.trans (uncounted_loseCard _ _)
    · exact freed
  unfold noAnswer
  split
  · exact lost _
  · exact lost _
  · exact .other (by simp) (by simp)
  · exact .other (by simp) (by simp)
  · exact uncounted_pollDone _ _
  · exact uncounted_pollDone _ _
  · exact .refl e s

theorem wearAt_setRecords (r : Records) (s : State) (f : Nat) : wearAt (s.setRecords r) f = bget wearZero r.wear f := rfl

theorem uncounted_lateEvent (f : Nat) (s : State) : Uncounted e s (lateEvent f s) := by
  have late (n k : Nat) : Uncounted e s (s.setRecords { s.records with
      late := n, wear := bput wearZero s.records.wear f { wearAt s f with late := k } }) := by
    refine ⟨fun w => ⟨tableWf_bput _ _ _ w, ?_⟩, fun d mem => ⟨d, mem, rfl⟩⟩
    rw [wearAt_setRecords]
    by_cases same : e = f
    · rw [same, bget_bput_same _ _ _ w]
    · rw [bget_bput_other _ _ _ _ _ same]; rfl
  exact .ite ((late _ _).notify _) (late _ _)

/-- A readback failure in a transition up to the latch: the element, the fault and the transition record (R96). -/
def failureNoted (d : Drive) (got : Option Nat) (s : State) : State :=
  let s := updElem d.elem (fun x => { x with pos := got, faulted := true }) s
  let claims := match s.engine.trans with
    | some t => sortNat (routesWhere s t.target fun r => claimsElem r d.elem)
    | none => []
  updTrans (fun t => noteFirst .readback { t with faultedElems := t.faultedElems ++ [d.elem] })
    (recordFault { plainFault .readback with
      elem := some d.elem, commanded := some d.target, indicated := some got, number := flightNumber s,
      torn := claims } s)

/-- The transition record says that mute was needed (R96). -/
def transMute (s : State) : Bool := match s.engine.trans with | some t => t.muteNeeded | none => false

theorem readbackFailed_eq (d : Drive) (got : Option Nat) (s : State) : readbackFailed d got s = dropDrive d.elem
    (if transMute (failureNoted d got s) then setTheLatch (failureNoted d got s) else failureNoted d got s) := rfl

theorem uncounted_driveReached (d : Drive) (s : State) : Uncounted e s (driveReached d s) :=
  (Uncounted.other (t := updElem d.elem (fun x => { x with pos := some d.target }) s) (by simp) (by simp)).trans
    (uncounted_dropDrive d.elem _)

theorem uncounted_readback (d : Drive) (retry : Bool) (got : Option Nat) (s : State) :
    Uncounted e s (readback d retry got s) := by
  have reached := uncounted_driveReached (e := e) d s
  unfold readback
  split
  · refine Uncounted.then_other (t := if retry then lateEvent d.elem (driveReached d s) else driveReached d s) ?_
      (by simp) (by simp)
    split
    · exact reached.trans (uncounted_lateEvent _ _)
    · exact reached
  split
  · exact uncounted_setStage _ _ s
  · refine Uncounted.then_other (t := if stagingDrive s then stagingFailed d got s else readbackFailed d got s) ?_
      (by simp) (by simp)
    split
    · unfold stagingFailed
      simp only []
      split
      · exact (Uncounted.other (by simp) (by simp)).trans (uncounted_dropDrive d.elem _)
      · exact (Uncounted.other (by simp) (by simp)).trans (uncounted_dropDrive d.elem _)
    · rw [readbackFailed_eq]
      have noted : Uncounted e s (failureNoted d got s) := .other (by simp [failureNoted]) (by simp [failureNoted])
      exact Uncounted.trans (.ite (noted.then_other (by simp) (by simp)) noted) (uncounted_dropDrive d.elem _)

theorem uncounted_senseReturns (got : Option Nat) (s : State) : Uncounted e s (senseReturns got s) := by
  have freed : Uncounted e s (setTx none s) := .other (by simp) (by simp)
  unfold senseReturns
  split
  · simp only []
    split
    · exact freed
    split
    · split
      · exact freed.then_other (by simp) (by simp)
      · exact freed
    split
    · split
      · exact freed.trans (uncounted_readback _ _ _ _)
      · exact freed
    · exact freed
  · exact .refl e s

theorem uncounted_senseFallsDue (f : Nat) (retry : Bool) (s : State) : Uncounted e s (senseFallsDue f retry s) :=
  (uncounted_setStage f _ s).then_other rfl rfl

theorem uncounted_pulseEnds (f : Nat) (s : State) : Uncounted e s (pulseEnds f s) := by
  unfold pulseEnds
  split
  · split
    · rename_i d _ _ _ _ _ _
      exact (uncounted_setStage f (.settling d.settle) s).then_other (by simp) (by simp)
    · exact .refl e s
  · exact .refl e s

theorem uncounted_settleEnds (f : Nat) (s : State) : Uncounted e s (settleEnds f s) := by
  have reached (d : Drive) : Uncounted e s (advanceAll (driveReached d s)) :=
    (uncounted_driveReached d s).then_other (by simp) (by simp)
  unfold settleEnds
  split
  · split
    · split
      · exact uncounted_senseFallsDue _ _ s
      · exact reached _
      · exact reached _
    · exact .refl e s
  · exact .refl e s

theorem uncounted_retryEnds (f : Nat) (s : State) : Uncounted e s (retryEnds f s) := by
  unfold retryEnds
  split
  · split
    · exact uncounted_senseFallsDue _ _ s
    · exact .refl e s
  · exact .refl e s

/-- No row but the resets and WEARSET of `e` counts a throw of `e` or adds a drive before what follows at once. -/
theorem acts_uncounted {i : Instr} {v : State} (h : Acts i s v) (noReset : resets i s = false)
    (noSet : ∀ plus n, i ≠ .wearset plus e n) (phase : i = .resetEnd → s.phase ≠ .inReset) : Uncounted e s v := by
  induction h with
  | replies o h ih => exact (ih noReset noSet phase).then_other (by simp) (by simp)
  | beginReset c s h => rw [h] at noReset; contradiction
  | startUp s h => exact absurd h (phase rfl)
  | noAnswer s => exact uncounted_noAnswer s
  | pulseEnds f s => exact uncounted_pulseEnds f s
  | settleEnds f s => exact uncounted_settleEnds f s
  | senseReturns got s => exact uncounted_senseReturns got s
  | retryEnds f s => exact uncounted_retryEnds f s
  | polled good oc s => exact uncounted_pollDone _ s
  | beginRestart plus n s => exact uncounted_beginRestart n s
  | clearLate plus s =>
    refine ⟨fun w => ⟨tableWf_bmap wearZero (fun w => { w with late := 0 }) w, ?_⟩, fun d mem => ⟨d, mem, rfl⟩⟩
    rw [wearAt_setRecords, bget_bmap wearZero _ rfl w]
    rfl
  | setWear plus f count s =>
    refine ⟨fun w => ⟨tableWf_bput wearZero f _ w, ?_⟩, fun d mem => ⟨d, mem, rfl⟩⟩
    have apart : e ≠ f := fun same => noSet plus count (by rw [same])
    rw [wearAt_setRecords, bget_bput_other _ _ _ _ _ apart]
    rfl
  | _ => exact .other (by simp [muteTimeout]) (by simp [muteTimeout])

/-- The count of one more throw, saturating (R190). -/
def oneMore (n : Nat) : Nat := if n < 4294967295 then n + 1 else 4294967295

/-- The life limit of element `f`, 0 when it is undefined (R190). -/
def lifeOf (f : Nat) (s : State) : Nat := match elemAt s f with | some x => x.life | none => 0

/-- The next throw of `f` brings its count to the life limit with the flag clear (R190). -/
def wearDue (f : Nat) (s : State) : Bool :=
  decide (lifeOf f s > 0) && decide (lifeOf f s ≤ oneMore (wearAt s f).count) && !(wearAt s f).noticed

/-- The wear entry of `f` after one more throw (R190). -/
def countedWear (f : Nat) (s : State) : Wear :=
  { wearAt s f with count := oneMore (wearAt s f).count, noticed := (wearAt s f).noticed || wearDue f s }

/-- The records after one more throw of `f` (R190). -/
def countedRecords (f : Nat) (s : State) : Records :=
  { s.records with wear := bput wearZero s.records.wear f (countedWear f s) }

theorem countDrive_eq (f : Nat) (s : State) : countDrive f s =
    if wearDue f s then notify (.wear f (oneMore (wearAt s f).count)) (s.setRecords (countedRecords f s))
    else s.setRecords (countedRecords f s) := rfl

theorem countDrive_records (f : Nat) (s : State) : (countDrive f s).records = countedRecords f s := by
  rw [countDrive_eq]
  split <;> simp

theorem countDrive_count (f : Nat) (s : State) (w : tableWf s.records.wear = true) :
    (wearAt (countDrive f s) e).count = if e = f then oneMore (wearAt s e).count else (wearAt s e).count := by
  rw [wearAt, countDrive_records, countedRecords]
  split
  · rename_i same; rw [same, bget_bput_same _ _ _ w]; rfl
  · rename_i apart; rw [bget_bput_other _ _ _ _ _ apart]; rfl

theorem issueDrive_count (f target : Nat) (x : Elem) (s : State) (w : tableWf s.records.wear = true) :
    (wearAt (issueDrive f target x s) e).count = if e = f then oneMore (wearAt s e).count else (wearAt s e).count := by
  have same : (pulseBegun f x (driveBegun f target x s)).records = s.records := by simp [driveBegun]
  rw [issueDrive_eq, countDrive_count f _ (by rw [same]; exact w)]
  simp only [wearAt, same]

/-- A free bus is given a DRIVE, which counts one throw of its element and adds its drive, or neither happens. -/
theorem grantBus_drives (s : State) :
    (∀ e, Uncounted e s (grantBus s))
    ∨ ∃ f target x, grantBus s = issueDrive f target x (takeWaiting f s) ∧ (f, target) ∈ waitingDrives s
      ∧ mayIssue s f = true ∧ elemAt s f = some x ∧ s.engine.due = [] := by
  rcases grantBus_cases s with same | issued | ⟨n, eq⟩ | ⟨n, eq⟩ | ⟨n, eq⟩
  · rw [same]; exact .inl fun e => .refl e s
  · rcases engineIssues_cases issued with ⟨f, l, -, eq⟩ | ⟨f, target, x, waits, may, at_f, due, eq⟩
      | ⟨f, l, x, -, -, -, -, -, eq⟩
    · left
      intro e
      rw [eq]
      unfold issueSense
      simp only []
      have due : Uncounted e s (s.setEngine { s.engine with due := l }) := .other rfl rfl
      split
      · exact (due.trans (uncounted_setStage f _ _)).then_other rfl rfl
      · exact due
    · exact .inr ⟨f, target, x, eq, waits, may, at_f, due⟩
    · rw [eq]; exact .inl fun e => .other (by simp) (by simp)
  · rw [eq]; exact .inl fun e => .other (by simp) (by simp)
  · rw [eq]; exact .inl fun e => .other (by simp) (by simp)
  · rw [eq]; exact .inl fun e => .other (by simp) (by simp)

theorem settle_records (s : State) : (settle s).records = (grantBus s).records := by simp [settle]
theorem settle_engine (s : State) : (settle s).engine = (grantBus s).engine := by simp [settle]
theorem settle_bus (s : State) : (settle s).bus = (grantBus s).bus := by simp [settle]

/-- Settles O59: before all that follows at once no row counts a throw or adds a drive (`acts_uncounted`), and a free bus
is given at most one DRIVE, which does both. -/
theorem throwCountsRiseByDrives : Obligations.ThrowCountsRiseByDrives := by
  intro i s t e wf noReset noSet h
  rcases exec_moves h with rfl | ⟨u, v, taken, act, rfl⟩
  · exact ⟨.inl rfl, fun none ⟨d, mem, same⟩ => absurd same (none d mem)⟩
  have slot : resets i u = resets i s := by
    rw [taken.1]
    cases i <;> rfl
  have line : Uncounted e s u := by rw [taken.1]; exact .other rfl rfl
  have before := line.trans (acts_uncounted act (slot.trans noReset) noSet fun eq => by rw [eq] at noReset; contradiction)
  obtain ⟨wfv, same⟩ := before.wear wf
  rw [wearAt, settle_records, settle_engine, settle_bus]
  rcases grantBus_drives v with quiet | ⟨f, target, x, eq, -⟩
  · have all := before.trans (quiet e)
    refine ⟨.inl (all.wear wf).2, fun none ⟨d, mem, is⟩ => ?_⟩
    obtain ⟨d', mem', same'⟩ := all.active d mem
    exact absurd (same'.trans is) (none d' mem')
  · have count := issueDrive_count (e := e) f target x (takeWaiting f v) (by simpa using wfv)
    rw [eq, issueDrive_active, issueDrive_tx]
    have waiting : (takeWaiting f v).engine.active = v.engine.active := by simp
    have wear : wearAt (takeWaiting f v) e = wearAt v e := by simp [wearAt]
    rw [wear, same] at count
    rw [waiting]
    change ((wearAt (issueDrive f target x (takeWaiting f v)) e).count = _ ∨ _) ∧ _
    by_cases driven : e = f
    · rw [if_pos driven] at count
      have added : ∃ d ∈ v.engine.active ++ [newDrive f target x], d.elem = e :=
        ⟨_, List.mem_append_right _ (List.mem_singleton_self _), driven.symm⟩
      exact ⟨.inr ⟨count, ⟨_, _, _, _, by rw [driven]⟩, added⟩, fun _ _ => count⟩
    · rw [if_neg driven] at count
      refine ⟨.inl count, fun none ⟨d, mem, is⟩ => ?_⟩
      rcases List.mem_append.1 mem with mem | new
      · obtain ⟨d', mem', same'⟩ := before.active d mem
        exact absurd (same'.trans is) (none d' mem')
      · rw [List.mem_singleton.1 new] at is
        exact absurd is.symm driven

end Sys2Proof.StepLaws

/-! ### Drives in progress, the mute law and the applied set

The three laws (`DrivesSafe`, `MuteSafe`, `AppliedSafe`) speak of the engine and of three things beside it: the kind and
card of each element, each card's count of pulses, and the level of MUTE_ACK. They are said here of those, so that an
operation's lemma speaks of what it does to the engine. -/

namespace Sys2Proof.StepLaws

open Sys2Proof.Machine Sys2Proof.Laws

/-- What the laws of drives and mute read beside the engine. -/
structure Parts where
  type : Nat → Option (ElemKind × Nat)
  ack : Bool

/-- The parts of a state. -/
def parts (s : State) : Parts :=
  { type := fun e => (elemAt s e).map fun x => (x.kind, x.card), ack := s.muteAck }

/-- Each card's count of pulses in progress (R145). -/
def pulsesAt (s : State) (n : Nat) : Nat := (cardAt s n).pulses

/-- Element `e` is electromechanical (R23). -/
def Parts.em (p : Parts) (e : Nat) : Bool := (p.type e).any fun k => isEm k.1

/-- Element `e` stands on card `n` (R25). -/
def Parts.on (p : Parts) (n e : Nat) : Bool := (p.type e).any fun k => k.2 == n

/-- The elements whose drives wait to be issued (R94, R108). -/
def waitingElems (g : Engine) : List Nat :=
  match g.mode, g.trans with
  | .breaking, some t => t.brkTodo
  | .making, some t => t.makTodo.map fun q => q.1
  | .staging, _ => g.staging.todo.map fun q => q.1
  | _, _ => []

/-- `DrivesSafe`, of an engine beside its parts. -/
structure DriveLaw (p : Parts) (k : Nat → Nat) (g : Engine) : Prop where
  count : ∀ n, k n = (g.active.filter fun d => pulsing d && p.on n d.elem).length
  once : (g.active.map fun d => d.elem).Nodup
  defined : ∀ d ∈ g.active, p.type d.elem ≠ none
  apart : ∀ e ∈ waitingElems g, ∀ d ∈ g.active, e ≠ d.elem
  staged : (g.staging.todo.map fun q => q.1).Nodup
  listed : ∀ t, g.trans = some t → t.brkTodo.Nodup ∧ (t.makTodo.map fun q => q.1).Nodup
  none : g.mode = .idle ∨ g.mode = .muting ∨ g.mode = .survey → g.active = []
  dueOnce : g.due.Nodup
  due : ∀ e ∈ g.due, ∃ d ∈ g.active, d.elem = e ∧ ∃ retry, d.stage = .senseDue retry

/-- An EM drive of transition `t` is left to issue, or its pulse is in progress (R93). -/
def emLeft (p : Parts) (g : Engine) (t : Trans) : Bool :=
  t.brkTodo.any p.em
  || ((g.mode == .making || t.faultedElems.isEmpty) && t.makTodo.any fun q => p.em q.1)
  || g.active.any fun d => p.em d.elem && pulsing d

/-- `MuteSafe`, of an engine beside its parts. -/
def MuteLaw (p : Parts) (g : Engine) : Prop :=
  ∀ t, g.trans = some t →
    (g.mode = .muting → g.mute = true ∧ t.muteNeeded = true ∧ t.stop = none)
    ∧ (g.mode = .breaking ∨ g.mode = .making → t.muteNeeded = true →
        g.mute = true ∧ (t.stop ≠ none → t.brkTodo = [] ∧ t.makTodo = [])
        ∧ (t.stop = none → p.ack = true ∨ emLeft p g t = false))

/-- The engine is in MUTING, BREAK or MAKE (R83). -/
def Flying (g : Engine) : Prop := g.mode = .muting ∨ g.mode = .breaking ∨ g.mode = .making

/-- `AppliedSafe`, of an engine. -/
def AppliedLaw (g : Engine) : Prop :=
  g.applied.Pairwise (fun a b => a < b) ∧ ∀ t, Flying g → g.trans = some t → ∀ r ∈ g.applied, r ∈ t.old

theorem emElem_eq (s : State) (e : Nat) : emElem s e = (parts s).em e := by
  unfold emElem Parts.em parts
  cases h : elemAt s e <;> simp [h]

theorem emDriveLeft_eq (s : State) (t : Trans) : emDriveLeft s t = emLeft (parts s) s.engine t := by
  have em : emElem s = (parts s).em := funext (emElem_eq s)
  unfold emDriveLeft emLeft
  rw [em]

theorem inFlight_iff {s : State} : inFlight s = true ↔ Flying s.engine := by simp [inFlight, Flying, or_assoc]

theorem waitingDrives_elems (s : State) : (waitingDrives s).map (fun q => q.1) = waitingElems s.engine := by
  unfold waitingDrives waitingElems
  cases s.engine.mode <;> cases s.engine.trans <;> simp [Function.comp_def]

theorem type_eq_none (s : State) (e : Nat) : (parts s).type e = none ↔ elemAt s e = none := by simp [parts]

theorem drivesSafe_iff {s : State} : DrivesSafe s ↔ DriveLaw (parts s) (pulsesAt s) s.engine := by
  have on (n : Nat) (d : Drive) : ((elemAt s d.elem).any fun x => x.card == n) = (parts s).on n d.elem := by
    unfold Parts.on parts
    cases h : elemAt s d.elem <;> simp [h]
  have waits : (∀ e ∈ waitingElems s.engine, ∀ d ∈ s.engine.active, e ≠ d.elem)
      ↔ ∀ q ∈ waitingDrives s, ∀ d ∈ s.engine.active, q.1 ≠ d.elem := by
    rw [← waitingDrives_elems, List.forall_mem_map]
  constructor
  · intro ⟨count, once, defined, apart, staged, listed, still, dueOnce, due⟩
    refine ⟨fun n => (count n).trans ?_, once, fun d mem => ?_, waits.2 apart, staged, listed, still, dueOnce, due⟩
    · simp only [pulsesOn, on]
    · rw [Ne, type_eq_none]; exact defined d mem
  · intro l
    refine ⟨fun n => (l.count n).trans ?_, l.once, fun d mem => ?_, waits.1 l.apart, l.staged, l.listed, l.none, l.dueOnce,
      l.due⟩
    · simp only [pulsesOn, on]
    · rw [Ne, ← type_eq_none]; exact l.defined d mem

theorem muteSafe_iff {s : State} : MuteSafe s ↔ MuteLaw (parts s) s.engine := by
  unfold MuteSafe MuteLaw
  simp only [emDriveLeft_eq]
  rfl

theorem appliedSafe_iff {s : State} : AppliedSafe s ↔ AppliedLaw s.engine := by
  unfold AppliedSafe AppliedLaw
  simp only [inFlight_iff]

/-- With no drive in progress the law of drives is four conditions. -/
theorem driveLaw_still {p : Parts} {k : Nat → Nat} {g : Engine} (active : g.active = []) (pulses : ∀ n, k n = 0)
    (staged : (g.staging.todo.map fun q => q.1).Nodup)
    (listed : ∀ t, g.trans = some t → t.brkTodo.Nodup ∧ (t.makTodo.map fun q => q.1).Nodup) (due : g.due = []) :
    DriveLaw p k g := by
  constructor <;> simp_all

theorem DriveLaw.due_nil {p : Parts} {k : Nat → Nat} {g : Engine} (l : DriveLaw p k g) (active : g.active = []) : g.due = [] := by
  refine List.eq_nil_iff_forall_not_mem.2 fun e mem => ?_
  obtain ⟨d, mem, -⟩ := l.due e mem
  rw [active] at mem
  exact absurd mem List.not_mem_nil

theorem DriveLaw.pulses_zero {p : Parts} {k : Nat → Nat} {g : Engine} (l : DriveLaw p k g) (active : g.active = [])
    (n : Nat) : k n = 0 := by
  rw [l.count, active]
  rfl

/-! #### What an operation does to the engine, its parts standing -/

/-- The three laws survive a change of the engine. -/
structure Onward (p : Parts) (g h : Engine) : Prop where
  drives : ∀ k, DriveLaw p k g → DriveLaw p k h
  mute : MuteLaw p g → MuteLaw p h
  applied : AppliedLaw g → AppliedLaw h

/-- From record `t` to record `u` waiting drives go and faults come; what the laws read else stays. -/
structure Shrinks (t u : Trans) : Prop where
  brk : u.brkTodo.Sublist t.brkTodo
  mak : u.makTodo.Sublist t.makTodo
  needed : u.muteNeeded = t.muteNeeded
  stop : u.stop = t.stop
  old : u.old = t.old
  faulted : u.faultedElems = [] → t.faultedElems = []

variable {p : Parts} {g h : Engine}

theorem Shrinks.refl (t : Trans) : Shrinks t t := ⟨.refl _, .refl _, rfl, rfl, rfl, id⟩

theorem Onward.refl (p : Parts) (g : Engine) : Onward p g g := ⟨fun _ => id, id, id⟩

/-- Drives waiting go, in the same mode: what waits then waited before. -/
theorem waitingElems_sub (mode : h.mode = g.mode) (staging : h.staging.todo.Sublist g.staging.todo)
    (trans : ∀ u, h.trans = some u → ∃ t, g.trans = some t ∧ Shrinks t u) : waitingElems h ⊆ waitingElems g := by
  intro e waits
  cases m : g.mode <;> simp only [waitingElems, mode, m] at waits ⊢
  case idle | check | muting | survey => exact waits
  case staging => exact (staging.map _).subset waits
  case breaking =>
    cases held : h.trans with
    | none => rw [held] at waits; exact absurd waits List.not_mem_nil
    | some u =>
      obtain ⟨t, had, less⟩ := trans u held
      rw [held] at waits
      simpa [had] using less.brk.subset waits
  case making =>
    cases held : h.trans with
    | none => rw [held] at waits; exact absurd waits List.not_mem_nil
    | some u =>
      obtain ⟨t, had, less⟩ := trans u held
      rw [held] at waits
      simpa [had] using (less.mak.map _).subset waits

theorem listed_less (trans : ∀ u, h.trans = some u → ∃ t, g.trans = some t ∧ Shrinks t u)
    (listed : ∀ t, g.trans = some t → t.brkTodo.Nodup ∧ (t.makTodo.map fun q => q.1).Nodup) (u : Trans)
    (held : h.trans = some u) : u.brkTodo.Nodup ∧ (u.makTodo.map fun q => q.1).Nodup := by
  obtain ⟨t, had, less⟩ := trans u held
  obtain ⟨brk, mak⟩ := listed t had
  exact ⟨brk.sublist less.brk, mak.sublist (less.mak.map _)⟩

/-- Drives waiting go and pulses in progress end, in the same mode. -/
theorem MuteLaw.fewer (l : MuteLaw p g) (mode : h.mode = g.mode) (mute : h.mute = g.mute)
    (active : ∀ d ∈ h.active, pulsing d = true → ∃ d' ∈ g.active, d'.elem = d.elem ∧ pulsing d' = true)
    (trans : ∀ u, h.trans = some u → ∃ t, g.trans = some t ∧ Shrinks t u) : MuteLaw p h := by
  intro u held
  obtain ⟨t, had, less⟩ := trans u held
  obtain ⟨muting, moving⟩ := l t had
  rw [mode, mute, less.needed, less.stop]
  refine ⟨muting, fun m needed => ?_⟩
  obtain ⟨raised, stopped, seen⟩ := moving m needed
  refine ⟨raised, fun stop => ?_, fun stop => (seen stop).imp_right fun left => ?_⟩
  · obtain ⟨noBrk, noMak⟩ := stopped stop
    exact ⟨List.sublist_nil.1 (noBrk ▸ less.brk), List.sublist_nil.1 (noMak ▸ less.mak)⟩
  · unfold emLeft at left ⊢
    rw [mode]
    simp only [Bool.or_eq_false_iff, Bool.and_eq_false_iff] at left ⊢
    obtain ⟨⟨brk, mak⟩, pulses⟩ := left
    refine ⟨⟨?_, ?_⟩, ?_⟩
    · rw [List.any_eq_false] at brk ⊢
      exact fun e mem => brk e (less.brk.subset mem)
    · rcases mak with notMake | none
      · refine .inl ⟨notMake.1, ?_⟩
        rw [List.isEmpty_eq_false_iff] at *
        exact fun empty => notMake.2 (less.faulted empty)
      · rw [List.any_eq_false] at none ⊢
        exact .inr fun e mem => none e (less.mak.subset mem)
    · rw [List.any_eq_false] at pulses ⊢
      intro d mem
      simp only [Bool.and_eq_true, not_and]
      intro em pulse
      obtain ⟨d', mem', same, pulse'⟩ := active d mem pulse
      exact pulses d' mem' (by rw [same, em, pulse']; rfl)

theorem AppliedLaw.fewer (l : AppliedLaw g) (mode : h.mode = g.mode) (applied : h.applied.Sublist g.applied)
    (trans : ∀ u, h.trans = some u → ∃ t, g.trans = some t ∧ Shrinks t u) : AppliedLaw h := by
  obtain ⟨sorted, old⟩ := l
  refine ⟨sorted.sublist applied, fun u fly held r mem => ?_⟩
  obtain ⟨t, had, less⟩ := trans u held
  rw [less.old]
  unfold Flying at fly
  rw [mode] at fly
  exact old t fly had r (applied.subset mem)

/-- Drives waiting and routes applied go, in the same mode with the same drives in progress. -/
theorem Onward.fewer (mode : h.mode = g.mode) (mute : h.mute = g.mute) (active : h.active = g.active)
    (due : h.due = g.due) (applied : h.applied.Sublist g.applied) (staging : h.staging.todo.Sublist g.staging.todo)
    (trans : ∀ u, h.trans = some u → ∃ t, g.trans = some t ∧ Shrinks t u) : Onward p g h := by
  refine ⟨fun k l => ?_, fun l => l.fewer mode mute (fun d mem pulse => ⟨d, active ▸ mem, rfl, pulse⟩) trans,
    fun l => l.fewer mode applied trans⟩
  exact ⟨by simpa [active] using l.count, by simpa [active] using l.once, by simpa [active] using l.defined,
    fun e waits => active ▸ l.apart e (waitingElems_sub mode staging trans waits), l.staged.sublist (staging.map _),
    listed_less trans l.listed, by simpa [mode, active] using l.none, by simpa [due] using l.dueOnce,
    by simpa [due, active] using l.due⟩

/-- A change of fields that no law reads. -/
theorem Onward.aside (mode : h.mode = g.mode) (mute : h.mute = g.mute) (active : h.active = g.active) (due : h.due = g.due)
    (applied : h.applied = g.applied) (staging : h.staging.todo = g.staging.todo) (trans : h.trans = g.trans) :
    Onward p g h :=
  .fewer mode mute active due (applied ▸ .refl _) (staging ▸ .refl _) fun u held => ⟨u, by rw [← trans, held], .refl u⟩

/-- The engine comes to a state with no transition in flight: CHECK, or with no drive in progress. -/
theorem Onward.land (mode : ¬Flying h) (active : h.active = g.active) (due : h.due = g.due)
    (staged : (g.staging.todo.map fun q => q.1).Nodup → (h.staging.todo.map fun q => q.1).Nodup)
    (listed : ∀ u, h.trans = some u → ∃ t, g.trans = some t ∧ u.brkTodo.Sublist t.brkTodo ∧ u.makTodo.Sublist t.makTodo)
    (none : ∀ k, DriveLaw p k g → h.mode = .check ∨ g.active = [])
    (sorted : g.applied.Pairwise (fun a b => a < b) → h.applied.Pairwise (fun a b => a < b)) : Onward p g h := by
  have lists {k : Nat → Nat} (l : DriveLaw p k g) (u : Trans) (held : h.trans = some u) :
      u.brkTodo.Nodup ∧ (u.makTodo.map fun q => q.1).Nodup := by
    obtain ⟨t, had, brk, mak⟩ := listed u held
    obtain ⟨oldBrk, oldMak⟩ := l.listed t had
    exact ⟨oldBrk.sublist brk, oldMak.sublist (mak.map _)⟩
  refine ⟨fun k l => ?_, fun _ t _ => ⟨fun m => absurd (.inl m) mode, fun m => absurd (.inr m) mode⟩,
    fun l => ⟨sorted l.1, fun _ m => absurd m mode⟩⟩
  rcases none k l with check | still
  · refine ⟨by simpa [active] using l.count, by simpa [active] using l.once, by simpa [active] using l.defined, ?_,
      staged l.staged, lists l, fun m => by rcases m with m | m | m <;> rw [check] at m <;> contradiction,
      by simpa [due] using l.dueOnce, by simpa [due, active] using l.due⟩
    simp [waitingElems, check]
  · exact driveLaw_still (active.trans still) (l.pulses_zero still) (staged l.staged) (lists l)
      (due.trans (l.due_nil still))

/-! #### The laws kept by an operation -/

/-- What an operation keeps of the invariants, the three laws of the engine among them. -/
structure Runs (s t : State) : Prop where
  keeps : Keeps s t
  drives : TablesSafe s → DrivesSafe s → DrivesSafe t
  mute : MuteSafe s → MuteSafe t
  applied : AppliedSafe s → AppliedSafe t

variable {s₀ s t : State}

theorem Runs.refl (s : State) : Runs s s := ⟨.refl s, fun _ => id, id, id⟩

/-- An operation that leaves the elements' kinds and cards, MUTE_ACK and the pulses alone and changes the engine lawfully. -/
theorem Runs.engine (r : Runs s₀ s) (keeps : Keeps s₀ t) (same : parts t = parts s)
    (pulses : TablesSafe s → pulsesAt t = pulsesAt s) (onward : Onward (parts s) s.engine t.engine) : Runs s₀ t := by
  refine ⟨keeps, fun tables l => ?_, fun l => ?_, fun l => ?_⟩
  · rw [drivesSafe_iff, same, pulses (r.keeps.tables tables)]
    exact onward.drives _ (drivesSafe_iff.1 (r.drives tables l))
  · rw [muteSafe_iff, same]
    exact onward.mute (muteSafe_iff.1 (r.mute l))
  · exact appliedSafe_iff.2 (onward.applied (appliedSafe_iff.1 (r.applied l)))

end Sys2Proof.StepLaws

/-! ### The laws of drives, mute and the applied set, kept by the engine's operations -/

namespace Sys2Proof.StepLaws

open Sys2Proof.Machine Sys2Proof.Laws

variable {s₀ s t : State} {p : Parts} {g h : Engine}

/-- What the laws read beside the engine. -/
def beside (s : State) := (s.net.elems, s.cards, s.muteAck)

theorem parts_congr (h : beside t = beside s) : parts t = parts s := by
  simp only [beside, Prod.mk.injEq] at h
  obtain ⟨elems, -, ack⟩ := h
  unfold parts elemAt
  rw [elems, ack]

theorem pulsesAt_congr (h : t.cards = s.cards) : pulsesAt t = pulsesAt s := by
  unfold pulsesAt cardAt
  rw [h]

/-- An operation that changes the engine lawfully and nothing beside it. -/
theorem Runs.turn (r : Runs s₀ s) (keeps : Keeps s₀ t) (same : beside t = beside s)
    (onward : Onward (parts s) s.engine t.engine) : Runs s₀ t := by
  refine r.engine keeps (parts_congr same) (fun _ => pulsesAt_congr ?_) onward
  simp only [beside, Prod.mk.injEq] at same
  exact same.2.1

theorem Runs.other (r : Runs s₀ s) (keeps : Keeps s₀ t) (same : beside t = beside s) (engine : t.engine = s.engine) :
    Runs s₀ t := r.turn keeps same (by rw [engine]; exact .refl _ _)

theorem Runs.setEngine (r : Runs s₀ s) (v : Engine) (onward : Onward (parts s) s.engine v) : Runs s₀ (s.setEngine v) :=
  r.turn (r.keeps.setEngine v) rfl onward

theorem Runs.ite {c : Prop} [Decidable c] {a b : State} (ha : Runs s₀ a) (hb : Runs s₀ b) :
    Runs s₀ (if c then a else b) := by
  split
  · exact ha
  · exact hb

theorem Runs.foldl {β : Type} {f : State → β → State} (h : ∀ s a, Runs s₀ s → Runs s₀ (f s a)) (l : List β)
    (r : Runs s₀ s) : Runs s₀ (l.foldl f s) := by
  induction l generalizing s with
  | nil => exact r
  | cons a l ih => exact ih (h s a r)

/-- The engine at rest: no drive in progress, or a mode in which the law of drives has none. -/
def Resting (g : Engine) : Prop := g.active = [] ∨ g.mode = .idle ∨ g.mode = .muting ∨ g.mode = .survey

theorem DriveLaw.resting {k : Nat → Nat} (l : DriveLaw p k g) (rest : Resting g) : g.active = [] :=
  rest.elim id l.none

/-! #### Operations that leave the engine alone -/

theorem Runs.notify (r : Runs s₀ s) (n : Notice) : Runs s₀ (notify n s) :=
  r.other (r.keeps.notify n) (by simp [beside]) (by simp)

theorem Runs.placeReply (r : Runs s₀ s) (o : OutReply) : Runs s₀ (placeReply o s) :=
  r.other (r.keeps.placeReply o) (by simp [beside]) (by simp)

theorem Runs.answer (r : Runs s₀ s) (plus : Bool) (a : Reply) : Runs s₀ (answer plus a s) := r.placeReply _

theorem Runs.opEnded (r : Runs s₀ s) (o : Op) : Runs s₀ (opEnded o s) :=
  r.other (r.keeps.opEnded o) (by simp [beside]) (by simp)

theorem Runs.recordFault (r : Runs s₀ s) (f : FaultRec) : Runs s₀ (recordFault f s) :=
  r.other (r.keeps.recordFault f) (by simp [beside]) (by simp)

theorem Runs.answerGo (r : Runs s₀ s) (a : Reply) : Runs s₀ (answerGo a s) :=
  r.other (r.keeps.answerGo a) (by simp [beside]) (by simp)

theorem Runs.setLatch (r : Runs s₀ s) (b : Bool) : Runs s₀ (s.setLatch b) := r.other (r.keeps.setLatch b) rfl rfl

theorem Runs.setBus (r : Runs s₀ s) (v : Bus) : Runs s₀ (s.setBus v) := r.other (r.keeps.setBus v) rfl rfl

/-- A ring written whose numbers stay in range. -/
theorem Runs.ring (r : Runs s₀ s) (v : Ring) (keeps : Keeps s₀ (s.setRing v)) : Runs s₀ (s.setRing v) :=
  r.other keeps rfl rfl

/-! #### Routes and staging -/

theorem Runs.routeLeave (r : Runs s₀ s) (n : Nat) : Runs s₀ (routeLeave n s) := by
  refine r.turn (r.keeps.routeLeave n) (by simp [beside]) (.fewer (by simp) (by simp) (by simp) (by simp) ?_ (by simp)
    fun u held => ⟨u, by simpa using held, .refl u⟩)
  rw [applied_routeLeave]
  exact List.erase_sublist

theorem Runs.tornCause (r : Runs s₀ s) (c : TearCause) (n : Nat) : Runs s₀ (tornCause c n s) :=
  r.other (r.keeps.tornCause c n) (by simp [beside]) (by simp)

theorem Runs.tearApplied (r : Runs s₀ s) (c : TearCause) (n : Nat) : Runs s₀ (tearApplied c n s) :=
  (r.tornCause c n).routeLeave n

/-- The engine at rest comes to IDLE. -/
theorem Runs.setIdle (r : Runs s₀ s) (rest : Resting s.engine) : Runs s₀ (setMode .idle s) :=
  r.setEngine _ (.land (by simp [Flying]) rfl rfl id (fun u held => ⟨u, held, .refl _, .refl _⟩)
    (fun _ l => .inr (l.resting rest)) id)

/-- Drives waiting to be staged go. -/
theorem Runs.setStaging (r : Runs s₀ s) (v : Engine) (todo : List (Nat × Nat)) (sub : v.staging.todo = todo)
    (less : todo.Sublist s.engine.staging.todo) (mode : v.mode = s.engine.mode) (mute : v.mute = s.engine.mute)
    (active : v.active = s.engine.active) (due : v.due = s.engine.due) (applied : v.applied = s.engine.applied)
    (trans : v.trans = s.engine.trans) : Runs s₀ (s.setEngine v) :=
  r.setEngine v (.fewer mode mute active due (applied ▸ .refl _) (sub ▸ less) fun u held => ⟨u, by rw [← trans, held], .refl u⟩)

theorem Runs.aside (r : Runs s₀ s) (v : Engine) (mode : v.mode = s.engine.mode) (mute : v.mute = s.engine.mute)
    (active : v.active = s.engine.active) (due : v.due = s.engine.due) (applied : v.applied = s.engine.applied)
    (staging : v.staging.todo = s.engine.staging.todo) (trans : v.trans = s.engine.trans) : Runs s₀ (s.setEngine v) :=
  r.setEngine v (.aside mode mute active due applied staging trans)

theorem Runs.stagingOver (r : Runs s₀ s) : Runs s₀ (stagingOver s) :=
  (r.setStaging { s.engine with staging := stagingReset } [] rfl (List.nil_sublist _) rfl rfl rfl rfl rfl rfl).opEnded _

theorem stagingOver_active (s : State) : (stagingOver s).engine.active = s.engine.active := by simp

theorem Runs.endStaging (r : Runs s₀ s) (empty : Bool) : Runs s₀ (endStaging empty s) := by
  unfold Machine.endStaging
  have cleared := Runs.ite (c := empty = true)
    (r.aside { s.engine with holder := none } rfl rfl rfl rfl rfl rfl rfl) r
  simp only []
  generalize (if empty = true then s.setEngine { s.engine with holder := none } else s) = u at cleared ⊢
  split
  · have quit := cleared.setStaging { u.engine with staging := { quitStaging u.engine.staging with
      discard := (quitStaging u.engine.staging).discard || empty } } [] rfl (List.nil_sublist _) rfl rfl rfl rfl rfl rfl
    split
    · rename_i still
      refine quit.stagingOver.setIdle (.inl ?_)
      rw [stagingOver_active]
      exact List.isEmpty_iff.1 still
    · exact quit
  · exact cleared

theorem Runs.haltRing (r : Runs s₀ s) (c : HaltCause) (d : Val) : Runs s₀ (haltRing c d s) :=
  ((r.ring (ringHalted c d s.ring) (r.keeps.setRing_same _ rfl rfl rfl rfl rfl)).endStaging false).notify _

theorem Runs.ringTorn (r : Runs s₀ s) (c : TearCause) (n : Nat) : Runs s₀ (ringTorn c n s) := .ite (r.haltRing _ _) r

theorem Runs.ringRefused (r : Runs s₀ s) (c : HaltCause) (d : Val) : Runs s₀ (ringRefused c d s) :=
  .ite (r.haltRing _ _) r

theorem Runs.ringDropped (r : Runs s₀ s) (gone : List Nat) : Runs s₀ (ringDropped gone s) := by
  unfold Machine.ringDropped
  split
  · split
    · exact r.haltRing _ _
    · exact r
  · exact r

/-! #### What halting the ring does to the engine -/

/-- Ending staging takes drives off the staging list, and leaves the mode when the engine is not STAGING. -/
theorem endStaging_engine (empty : Bool) (s : State) :
    (endStaging empty s).engine.staging.todo.Sublist s.engine.staging.todo
    ∧ (s.engine.mode ≠ .staging → (endStaging empty s).engine.mode = s.engine.mode) := by
  unfold endStaging
  have todo : (if empty = true then s.setEngine { s.engine with holder := none } else s).engine.staging = s.engine.staging := by
    split <;> rfl
  have mode : (if empty = true then s.setEngine { s.engine with holder := none } else s).engine.mode = s.engine.mode := by
    split <;> rfl
  simp only []
  generalize (if empty = true then s.setEngine { s.engine with holder := none } else s) = u at todo mode ⊢
  split
  · rename_i staging
    refine ⟨?_, fun other => absurd (mode ▸ beq_iff_eq.1 staging) other⟩
    split
    · rw [show (setMode .idle (stagingOver _)).engine.staging = stagingReset from by simp [stagingOver]]
      exact List.nil_sublist _
    · exact List.nil_sublist _
  · exact ⟨todo ▸ .refl _, fun _ => mode⟩

/-- What the ring's halts do to the engine's staging list and mode. -/
def Halts (s t : State) : Prop :=
  t.engine.staging.todo.Sublist s.engine.staging.todo ∧ (s.engine.mode ≠ .staging → t.engine.mode = s.engine.mode)

theorem Halts.other (h : t.engine = s.engine) : Halts s t := by rw [Halts, h]; exact ⟨.refl _, fun _ => rfl⟩

theorem Halts.trans {u : State} (a : Halts s t) (b : Halts t u) : Halts s u :=
  ⟨b.1.trans a.1, fun other => (b.2 (a.2 other ▸ other)).trans (a.2 other)⟩

theorem halts_haltRing (c : HaltCause) (d : Val) (s : State) : Halts s (haltRing c d s) := by
  have ended := endStaging_engine false (s.setRing (ringHalted c d s.ring))
  have eng : (haltRing c d s).engine = (endStaging false (s.setRing (ringHalted c d s.ring))).engine := by simp [haltRing]
  rw [Halts, eng]
  exact ended

theorem halts_ringTorn (c : TearCause) (n : Nat) (s : State) : Halts s (ringTorn c n s) := by
  unfold ringTorn
  split
  · exact halts_haltRing _ _ s
  · exact .other rfl

theorem halts_foldl {β : Type} {f : State → β → State} (h : ∀ s a, Halts s (f s a)) (l : List β) (s : State) :
    Halts s (l.foldl f s) := by
  induction l generalizing s with
  | nil => exact .other rfl
  | cons a l ih => exact (h s a).trans (ih _)

theorem halts_entryClean (st : StepRec) (n : Nat) (s : State) : Halts s (entryClean st n s).1 := by
  have reported : (reported st n s).engine = s.engine := by
    unfold StepLaws.reported
    simp only []
    split <;> simp
  rw [entryClean_eq]
  split
  · exact (Halts.other reported).trans (halts_haltRing _ _ _)
  · refine .other (Eq.trans ?_ reported)
    have announced : (announced st (StepLaws.reported st n s)).engine = (StepLaws.reported st n s).engine := by
      unfold StepLaws.announced
      simp only []
      (repeat' split) <;> simp
    rw [← announced]
    simp

theorem halts_tellOutcome (u : Trans) (s : State) : Halts s (tellOutcome u s).1 := by
  unfold tellOutcome ringOutcome
  split
  · split
    · split
      · exact halts_entryClean _ _ s
      · exact halts_haltRing _ _ s
      · exact halts_haltRing _ _ s
    · exact .other rfl
  · exact .other rfl

theorem halts_tellTears (l : List (Nat × TearCause)) (s : State) : Halts s (tellTears l s) :=
  halts_foldl (fun s (q : Nat × TearCause) => halts_ringTorn q.2 q.1 s) l s

/-! #### The end of a transition -/

/-- A list of numbers in ascending order, each once. -/
def Ascending (l : List Nat) : Prop := l.Pairwise fun a b => a < b

theorem mem_insertNat {n m : Nat} {l : List Nat} : m ∈ insertNat n l ↔ m = n ∨ m ∈ l := by
  induction l with
  | nil => simp [insertNat]
  | cons k l ih =>
    unfold insertNat
    split
    · simp
    split
    · rename_i same; subst same; simp
    · simp only [List.mem_cons, ih, or_left_comm]

theorem ascending_insertNat {l : List Nat} (n : Nat) (h : Ascending l) : Ascending (insertNat n l) := by
  induction l with
  | nil => exact List.pairwise_singleton _ _
  | cons k l ih =>
    obtain ⟨low, rest⟩ := List.pairwise_cons.1 h
    unfold insertNat
    split
    · rename_i below
      refine List.pairwise_cons.2 ⟨fun m mem => ?_, h⟩
      rcases List.mem_cons.1 mem with rfl | mem
      · exact below
      · exact Nat.lt_trans below (low m mem)
    split
    · exact h
    · rename_i notBelow notSame
      refine List.pairwise_cons.2 ⟨fun m mem => ?_, ih rest⟩
      rcases mem_insertNat.1 mem with rfl | mem
      · omega
      · exact low m mem

theorem routeEnter_applied (n r : Nat) (s : State) :
    (routeEnter n r s).engine.applied = insertNat r s.engine.applied := by
  rw [routeEnter_eq]
  split <;> rfl

theorem ascending_enterAll (n : Nat) (l : List Nat) (s : State) (h : Ascending s.engine.applied) :
    Ascending (enterAll n l s).engine.applied := by
  induction l generalizing s with
  | nil => exact h
  | cons r l ih => exact ih _ (by rw [routeEnter_applied]; exact ascending_insertNat r h)

theorem tearApplied_applied (c : TearCause) (r : Nat) (s : State) :
    (tearApplied c r s).engine.applied = s.engine.applied.erase r := by
  rw [show tearApplied c r s = routeLeave r (tornCause c r s) from rfl, applied_routeLeave]
  simp

theorem foldl_tearApplied (torn : List (Nat × TearCause)) (s : State) :
    (torn.foldl (fun s q => tearApplied q.2 q.1 s) s).engine.applied.Sublist s.engine.applied := by
  induction torn generalizing s with
  | nil => exact .refl _
  | cons q torn ih =>
    refine (ih _).trans ?_
    rw [tearApplied_applied]
    exact List.erase_sublist

theorem tearBoth_applied (torn lost : List (Nat × TearCause)) (s : State) :
    (tearBoth torn lost s).engine.applied.Sublist s.engine.applied := by
  have causes : (tearBoth torn lost s).engine = (torn.foldl (fun s q => tearApplied q.2 q.1 s) s).engine := by simp [tearBoth]
  rw [causes]
  exact foldl_tearApplied torn s

theorem closeTransition_engine (u : Trans) (carries : Bool) (s : State) : (closeTransition u carries s).engine =
    { s.engine with
      mute := false, muteTimer := none, trans := s.engine.trans.map fun t' => { t' with outcome := some (outcomeOf u) } } := by
  unfold closeTransition
  simp only [opEnded_keeps, notify_keeps, apply_ite State.engine, State.setLatch_engine, ite_self, updTrans_eq,
    State.setEngine_engine]
  split <;> simp [clearPending, setTheLatch]

theorem endFrom_engine (u : Trans) (entered : List Nat) (s : State) :
    (endFrom u entered s).1.engine.mode = .idle
    ∧ (endFrom u entered s).1.engine.staging.todo.Sublist s.engine.staging.todo
    ∧ (endFrom u entered s).1.engine.trans = s.engine.trans.map (fun t' => { t' with outcome := some (outcomeOf u) })
    ∧ (endFrom u entered s).1.engine.applied.Sublist s.engine.applied := by
  unfold endFrom
  simp only []
  generalize appliedTears s u = torn
  generalize targetTears s u entered = lost
  generalize anyCarries s (latchTears s (torn ++ lost)) = carries
  have close := closeTransition_engine u carries (tearBoth torn lost s)
  have told := (halts_tellOutcome u (closeTransition u carries (tearBoth torn lost s))).trans
    (halts_tellTears (torn ++ lost) _)
  have still : (tellTears (torn ++ lost) (tellOutcome u (closeTransition u carries (tearBoth torn lost s))).1).engine.trans
      = (closeTransition u carries (tearBoth torn lost s)).engine.trans
      ∧ (tellTears (torn ++ lost) (tellOutcome u (closeTransition u carries (tearBoth torn lost s))).1).engine.applied
      = (closeTransition u carries (tearBoth torn lost s)).engine.applied := by
    unfold tellTears tellOutcome
    split <;> simp
  refine ⟨rfl, ?_, ?_, ?_⟩
  · refine told.1.trans ?_
    rw [close]
    simp [tearBoth]
  · rw [show (setMode .idle (tellTears _ _)).engine.trans = _ from still.1, close]
    simp [tearBoth]
  · rw [show (setMode .idle (tellTears _ _)).engine.applied = _ from still.2, close]
    exact tearBoth_applied torn lost s

/-- The end of a transition: IDLE, the record kept with its outcome, the applied set in order. -/
theorem endTransition_engine (completed : Bool) (s : State) :
    (endTransition completed s).1.engine.mode = .idle
    ∧ (endTransition completed s).1.engine.staging.todo.Sublist s.engine.staging.todo
    ∧ (endTransition completed s).1.engine.trans = s.engine.trans.map (fun u => { u with outcome := some (outcomeOf u) })
    ∧ (Ascending s.engine.applied → Ascending (endTransition completed s).1.engine.applied) := by
  cases held : s.engine.trans with
  | none =>
    rw [endTransition_none completed held]
    exact ⟨rfl, .refl _, held, id⟩
  | some u =>
    rw [endTransition_some completed held]
    generalize enteringRoutes s u completed = entered
    obtain ⟨mode, todo, kept, applied⟩ := endFrom_engine u entered (enterAll u.number entered s)
    have sameTodo : (enterAll u.number entered s).engine.staging = s.engine.staging := by simp [enterAll]
    have sameTrans : (enterAll u.number entered s).engine.trans = s.engine.trans := by simp [enterAll]
    refine ⟨mode, sameTodo ▸ todo, ?_, fun asc => (ascending_enterAll _ _ _ asc).sublist applied⟩
    rw [kept, sameTrans, held]
    rfl

/-- The end of a transition, its record rewritten just before. -/
theorem Runs.endAfter (r : Runs s₀ s) (f : Trans → Trans)
    (less : ∀ u, (f u).brkTodo.Sublist u.brkTodo ∧ (f u).makTodo.Sublist u.makTodo) (completed : Bool)
    (rest : Resting s.engine) : Runs s₀ (endTransition completed (updTrans f s)).1 := by
  have trans : (updTrans f s).engine.trans = s.engine.trans.map f := by rw [updTrans_eq]; rfl
  obtain ⟨mode, todo, kept, applied⟩ := endTransition_engine completed (updTrans f s)
  refine r.turn ((r.keeps.updTrans f).endTransition completed) (by simp [beside]) (.land (by simp [Flying, mode]) (by simp)
    (by simp) (fun nodup => ?_) (fun v had => ?_) (fun k l => .inr (l.resting rest))
    fun asc => applied (by simpa [Ascending] using asc))
  · rw [show (updTrans f s).engine.staging = s.engine.staging from by simp] at todo
    exact nodup.sublist (todo.map _)
  · rw [kept, trans, Option.map_map] at had
    obtain ⟨v₀, was, rfl⟩ := Option.map_eq_some_iff.1 had
    exact ⟨v₀, was, (less v₀).1, (less v₀).2⟩

theorem Runs.endTransition (r : Runs s₀ s) (completed : Bool) (rest : Resting s.engine) :
    Runs s₀ (endTransition completed s).1 := by
  have same : updTrans id s = s := by rw [updTrans_eq, Option.map_id]; rfl
  have ended := r.endAfter id (fun u => ⟨.refl _, .refl _⟩) completed rest
  rwa [same] at ended

/-! #### The phases and stops -/

theorem leaveOld_engine (u : Trans) (s : State) : Halts s (leaveOld u s) := by
  unfold leaveOld
  refine halts_foldl (fun s r => ?_) _ s
  have left (s : State) : Halts s (routeLeave r s) := ⟨by simp, fun _ => by simp⟩
  split
  · exact (Halts.other (by simp)).trans (((left (tornCause .permit r s))).trans (halts_ringTorn _ _ _))
  · exact left s

theorem Runs.leaveOld (r : Runs s₀ s) (u : Trans) : Runs s₀ (leaveOld u s) :=
  r.foldl (fun _ _ r => .ite ((r.tearApplied _ _).ringTorn _ _) (r.routeLeave _)) _

/-- BREAK begins, from MUTING with MUTE_ACK asserted or from BREAK itself. -/
theorem Onward.toBreak (ready : g.mode = .breaking ∨ g.mode = .muting ∧ p.ack = true) :
    Onward p g { g with mode := .breaking, muteTimer := none } := by
  rcases ready with breaking | ⟨muting, ack⟩
  · exact .aside breaking.symm rfl rfl rfl rfl rfl rfl
  · refine ⟨fun k l => ?_, fun l u held => ⟨fun m => absurd m (by simp), fun _ _ => ?_⟩,
      fun ⟨sorted, old⟩ => ⟨sorted, fun u _ held => old u (.inl muting) held⟩⟩
    · have still := l.none (.inr (.inl muting))
      exact driveLaw_still still (l.pulses_zero still) l.staged l.listed (l.due_nil still)
    · obtain ⟨raised, -, stop⟩ := (l u held).1 muting
      exact ⟨raised, fun stopped => absurd stop stopped, fun _ => .inl ack⟩

/-- MAKE begins, with no drive in progress and nothing stopped or faulted. -/
theorem Onward.toMake (breaking : g.mode = .breaking) (still : g.active = [])
    (clean : ∀ u, g.trans = some u → u.faultedElems = []) : Onward p g { g with mode := .making } := by
  refine ⟨fun k l => driveLaw_still still (l.pulses_zero still) l.staged l.listed (l.due_nil still),
    fun l u held => ⟨fun m => absurd m (by simp), fun _ needed => ?_⟩,
    fun ⟨sorted, old⟩ => ⟨sorted, fun u _ held => old u (.inr (.inl breaking)) held⟩⟩
  obtain ⟨raised, stopped, seen⟩ := (l u held).2 (.inl breaking) needed
  refine ⟨raised, stopped, fun stop => (seen stop).imp_right fun left => ?_⟩
  simpa [emLeft, breaking, clean u held] using left

theorem Runs.phaseAdvance (r : Runs s₀ s) : Runs s₀ (phaseAdvance s).1 := by
  unfold Machine.phaseAdvance
  split
  · exact r
  rename_i u held
  split
  · exact r
  rename_i still
  have still : s.engine.active = [] := by simpa using still
  split
  · rename_i breaking
    split
    · exact r
    split
    · exact r.endTransition _ (.inl still)
    rename_i clean
    simp only [Bool.or_eq_true, Option.isSome_iff_ne_none, Bool.not_eq_true', List.isEmpty_eq_false_iff, not_or,
      Classical.not_not] at clean
    have make : Runs s₀ (setMode .making s) := r.setEngine _ (.toMake breaking still fun v had => by
      rw [held] at had; cases had; exact clean.2)
    split
    · exact make.endTransition _ (.inl still)
    · exact make
  · split
    · exact r.endTransition _ (.inl still)
    · exact r
  · exact r

theorem Runs.startBreak (r : Runs s₀ s) (ready : s.engine.mode = .breaking ∨ s.engine.mode = .muting ∧ s.muteAck = true) :
    Runs s₀ (startBreak s).1 := by
  unfold Machine.startBreak
  split
  · exact r
  · rename_i u _
    have mode : (Machine.leaveOld u s).engine.mode = s.engine.mode :=
      (leaveOld_engine u s).2 (by rcases ready with m | ⟨m, -⟩ <;> rw [m] <;> decide)
    refine Runs.phaseAdvance ((r.leaveOld u).setEngine _ (.toBreak ?_))
    rw [mode]
    exact ready.imp_right fun h => ⟨h.1, by simpa [parts] using h.2⟩

theorem Runs.proceed (r : Runs s₀ s) : Runs s₀ (proceed s).1 := by
  unfold Machine.proceed
  split
  · rename_i ready
    exact r.startBreak (by simpa using ready)
  · exact r

theorem Runs.updTrans (r : Runs s₀ s) (f : Trans → Trans) (less : ∀ u, Shrinks u (f u)) : Runs s₀ (updTrans f s) := by
  refine r.turn (r.keeps.updTrans f) (by simp [beside]) ?_
  rw [updTrans_eq]
  refine .fewer rfl rfl rfl rfl (.refl _) (.refl _) fun v had => ?_
  obtain ⟨u, held, rfl⟩ := Option.map_eq_some_iff.1 had
  exact ⟨u, held, less u⟩

/-- The record of a transition stopped in BREAK or MAKE (R101). -/
def stopped (c : Stop) (u : Trans) : Trans := { u with stop := some c, brkTodo := [], makTodo := [] }

/-- The stop written, with what is left to issue emptied. -/
theorem stopTransition_eq (c : Stop) (s : State) : stopTransition c s =
    if s.engine.trans.all fun u => u.stop.isSome then s
    else if s.engine.trans.any fun u => u.muteNeeded then setTheLatch (updTrans (stopped c) s) else updTrans (stopped c) s := by
  unfold stopTransition
  cases held : s.engine.trans with
  | none => rfl
  | some u =>
    simp only [Option.all_some, Option.any_some]
    split
    · rfl
    · simp only [Machine.updTrans, held]; rfl

theorem Onward.stop (c : Stop) (moving : g.mode ≠ .muting) : Onward p g { g with trans := g.trans.map (stopped c) } := by
  refine ⟨fun k l => ?_, fun l v had => ?_, fun ⟨sorted, old⟩ => ⟨sorted, fun v fly had => ?_⟩⟩
  · refine ⟨l.count, l.once, l.defined, fun e waits => ?_, l.staged, fun v had => ?_, l.none, l.dueOnce, l.due⟩
    · have less : e ∈ waitingElems g := by
        unfold waitingElems at waits ⊢
        cases m : g.mode <;> cases held : g.trans <;> simp_all [stopped]
      exact l.apart e less
    · obtain ⟨u, held, rfl⟩ := Option.map_eq_some_iff.1 had
      exact ⟨.nil, .nil⟩
  · obtain ⟨u, held, rfl⟩ := Option.map_eq_some_iff.1 had
    refine ⟨fun m => absurd m moving, fun m needed => ?_⟩
    exact ⟨((l u held).2 m needed).1, fun _ => ⟨rfl, rfl⟩, fun none => absurd none (by simp [stopped])⟩
  · obtain ⟨u, held, rfl⟩ := Option.map_eq_some_iff.1 had
    exact old u fly held

theorem Runs.stopTransition (r : Runs s₀ s) (c : Stop) (moving : s.engine.mode ≠ .muting) : Runs s₀ (stopTransition c s) := by
  have stop : Runs s₀ (Machine.updTrans (stopped c) s) :=
    r.turn (r.keeps.updTrans _) (by simp [beside]) (by rw [updTrans_eq]; exact .stop c moving)
  rw [stopTransition_eq]
  exact .ite r (.ite (stop.setLatch true) stop)

theorem Runs.stopMuting (r : Runs s₀ s) (c : Stop) (muting : s.engine.mode = .muting) :
    Runs s₀ (stopMuting c s).1 := by
  refine r.endAfter _ (fun u => ?_) false (.inr (.inr (.inl muting)))
  exact ⟨.refl _, .refl _⟩

/-! #### Requests -/

theorem type_updElem (e : Nat) (f : Elem → Elem) (same : ∀ x, (f x).kind = x.kind ∧ (f x).card = x.card) (s : State) :
    parts (updElem e f s) = parts s := by
  have type : (fun a => (elemAt (updElem e f s) a).map fun x => (x.kind, x.card))
      = fun a => (elemAt s a).map fun x => (x.kind, x.card) := by
    funext a
    rw [elemAt_updElem]
    split
    · rename_i here
      rw [here, Option.map_map]
      exact congrArg (Option.map · _) (funext fun x => Prod.ext (same x).1 (same x).2)
    · rfl
  unfold parts
  rw [type, show (updElem e f s).muteAck = s.muteAck from by simp]

theorem Runs.updElem (r : Runs s₀ s) (e : Nat) (f : Elem → Elem) (same : ∀ x, (f x).kind = x.kind ∧ (f x).card = x.card) :
    Runs s₀ (updElem e f s) :=
  r.engine (r.keeps.updElem e f) (type_updElem e f same s) (fun _ => pulsesAt_congr (by simp))
    (by rw [show (Machine.updElem e f s).engine = s.engine from by simp]; exact .refl _ _)

theorem Runs.promoteHolder (r : Runs s₀ s) : Runs s₀ (promoteHolder s) := by
  unfold Machine.promoteHolder
  split
  · exact r
  · rename_i a _
    have faulted := r.updElem a.elem (fun x => { x with faulted := true }) fun _ => ⟨rfl, rfl⟩
    exact (faulted.aside { (Machine.updElem a.elem (fun x => { x with faulted := true }) s).engine with holder := none }
      rfl rfl rfl rfl rfl rfl rfl).recordFault _

theorem keys_filterMap {α β : Type} (l : Table α) (f : Nat × α → Option (Nat × β))
    (key : ∀ q r, f q = some r → r.1 = q.1) (wf : tableWf l = true) : ((l.filterMap f).map fun r => r.1).Nodup := by
  have sub : ((l.filterMap f).map fun r => r.1).Sublist (l.map fun q => q.1) := by
    induction l with
    | nil => exact .refl _
    | cons q l ih =>
      have ih := ih (tableWf_sublist (List.sublist_cons_self _ _) wf)
      rw [List.filterMap_cons]
      split
      · exact ih.trans (List.sublist_cons_self _ _)
      · rename_i r is
        rw [List.map_cons, List.map_cons, key q r is]
        exact ih.cons_cons _
  refine (List.Nodup.sublist sub ?_)
  rw [tableWf_iff] at wf
  rw [List.Nodup, List.pairwise_map]
  exact wf.imp fun below => Nat.ne_of_lt below

theorem planDrives_nodup (target : List Nat) (wf : tableWf s.net.elems = true) :
    ((planDrives s target).map fun q => q.1).Nodup :=
  keys_filterMap _ _ (fun q r is => by obtain ⟨_, _, rfl⟩ := Option.map_eq_some_iff.1 is; rfl) wf

theorem breakList_nodup (target : List Nat) (wf : tableWf s.net.elems = true) : (breakList (planDrives s target)).Nodup :=
  (planDrives_nodup target wf).sublist (List.filter_sublist.map _)

theorem makeList_nodup (target : List Nat) (wf : tableWf s.net.elems = true) :
    ((makeList (planDrives s target)).map fun q => q.1).Nodup := by
  unfold makeList
  rw [List.map_map]
  exact (planDrives_nodup target wf).sublist (List.filter_sublist.map _)

theorem accept_engine (q : Request) (s : State) : (accept q s).engine =
    { s.engine with
      number := (newTrans s q).number, trans := some (newTrans s q)
      mode := if (newTrans s q).muteNeeded then .muting else .breaking
      mute := (newTrans s q).muteNeeded
      muteTimer := if (newTrans s q).muteNeeded then some s.site.muteWait else none } := rfl

theorem Runs.accept (r : Runs s₀ s) (q : Request) (rest : Resting s.engine) : Runs s₀ (accept q s) := by
  have same : parts (Machine.accept q s) = parts s := rfl
  refine ⟨r.keeps.accept q, fun tables drives => ?_, fun _ => ?_, fun applied => ?_⟩
  · have l := drivesSafe_iff.1 (r.drives tables drives)
    have still := l.resting rest
    obtain ⟨wf, -⟩ := r.keeps.tables tables
    refine drivesSafe_iff.2 (driveLaw_still still (l.pulses_zero still) l.staged (fun u held => ?_) (l.due_nil still))
    rw [accept_engine] at held
    cases held
    exact ⟨breakList_nodup _ wf, makeList_nodup _ wf⟩
  · refine muteSafe_iff.2 fun u held => ?_
    rw [accept_engine] at held ⊢
    cases held
    simp only []
    split
    · rename_i needed
      exact ⟨fun _ => ⟨needed, needed, rfl⟩, fun m => absurd m (by simp)⟩
    · rename_i needed
      exact ⟨fun m => absurd m (by simp), fun _ yes => absurd yes needed⟩
  · obtain ⟨sorted, -⟩ := appliedSafe_iff.1 (r.applied applied)
    refine appliedSafe_iff.2 ⟨sorted, fun u _ held n mem => ?_⟩
    rw [accept_engine] at held
    cases held
    exact mem

theorem Runs.decideRequest (r : Runs s₀ s) (q : Request) (rest : Resting s.engine) : Runs s₀ (decideRequest q s).1 := by
  unfold Machine.decideRequest
  simp only []
  have held : Runs s₀ (if q.origin = .step then Machine.promoteHolder (Machine.setMode .idle s) else Machine.setMode .idle s) :=
    .ite (r.setIdle rest).promoteHolder (r.setIdle rest)
  split
  · exact held
  · refine held.accept q (.inr (.inl ?_))
    split <;> simp [setMode]

theorem Runs.takeRequest (r : Runs s₀ s) (q : Request) : Runs s₀ (takeRequest q s).1 := by
  unfold Machine.takeRequest
  split
  · rename_i idle
    exact r.decideRequest q (.inr (.inl idle))
  · simp only []
    have quit : Runs s₀ (s.setEngine { s.engine with staging := quitStaging s.engine.staging }) :=
      r.setStaging _ [] rfl (List.nil_sublist _) rfl rfl rfl rfl rfl rfl
    split
    · rename_i still
      exact quit.stagingOver.decideRequest q (.inl ((stagingOver_active _).trans (List.isEmpty_iff.1 still)))
    · refine Runs.setEngine (quit.aside { s.engine with staging := quitStaging s.engine.staging, waiting := some q }
        rfl rfl rfl rfl rfl rfl rfl) _ (.land (by simp [Flying]) rfl rfl id (fun u held => ⟨u, held, .refl _, .refl _⟩)
        (fun _ _ => .inl rfl) id)
  · exact r

theorem Runs.makeDrop (r : Runs s₀ s) : Runs s₀ (makeDrop s) := by
  unfold Machine.makeDrop
  simp only []
  split
  · exact r
  have taken := fun gone q => (r.ringDropped gone).takeRequest q
  split
  · exact (taken _ _).proceed
  · exact taken _ _

theorem Runs.takeHeldDrop (r : Runs s₀ s) : Runs s₀ (takeHeldDrop s) := by
  unfold Machine.takeHeldDrop
  have cleared := r.aside { s.engine with dropHeld := false } rfl rfl rfl rfl rfl rfl rfl
  exact .ite (.ite cleared cleared.makeDrop) r

theorem Runs.callDrop (r : Runs s₀ s) : Runs s₀ (callDrop s) := by
  unfold Machine.callDrop
  split
  · exact r.makeDrop
  · exact r.makeDrop
  · exact r.aside _ rfl rfl rfl rfl rfl rfl rfl

theorem Runs.beginEntry (r : Runs s₀ s) : Runs s₀ (beginEntry s).1 := by
  unfold Machine.beginEntry
  split
  · exact r.haltRing _ _
  simp only []
  have aimed := r.ring { s.ring with
      state := .entering, visit := 1, pendingTrig := false, overrun := false, holdPending := false,
      dwellTimer := none, keptDwell := none } (r.keeps.aim _ rfl rfl id rfl id)
  split
  · exact aimed.takeRequest _
  · exact (aimed.takeRequest _).ringRefused _ _
  · exact aimed.takeRequest _

theorem Runs.continueEntry {a : State × Bool} (r : Runs s₀ a.1) : Runs s₀ (continueEntry a).1 := by
  unfold Machine.continueEntry
  split
  · exact r.proceed
  · exact r

theorem Runs.stageGroup (r : Runs s₀ s) (group : List Nat) : Runs s₀ (stageGroup group s) := by
  unfold Machine.stageGroup
  split
  · rename_i idle
    have idle : s.engine.mode = .idle := beq_iff_eq.1 idle
    simp only []
    split
    · exact r
    · refine ⟨r.keeps.setEngine _, fun tables drives => ?_, fun _ => muteSafe_iff.2 fun u held => ?_, fun applied => ?_⟩
      · have l := drivesSafe_iff.1 (r.drives tables drives)
        have still := l.none (.inl idle)
        obtain ⟨wf, -⟩ := r.keeps.tables tables
        refine drivesSafe_iff.2 (driveLaw_still still (l.pulses_zero still) ?_ l.listed (l.due_nil still))
        exact keys_filterMap _ _ (fun q r is => by obtain ⟨_, _, rfl⟩ := Option.map_eq_some_iff.1 is; rfl) wf
      · exact ⟨fun m => absurd m (by simp), fun m => absurd m (by simp)⟩
      · obtain ⟨sorted, -⟩ := appliedSafe_iff.1 (r.applied applied)
        exact appliedSafe_iff.2 ⟨sorted, fun u fly => absurd fly (by simp [Flying])⟩
  · exact r

theorem Runs.stageNext (r : Runs s₀ s) : Runs s₀ (stageNext s) := by
  unfold Machine.stageNext
  split
  · exact r
  · exact .ite r (r.stageGroup _)

theorem Runs.followUp (n : Nat) {a : State × Ask} (r : Runs s₀ a.1) : Runs s₀ (followUp n a) := by
  induction n generalizing a with
  | zero => exact r
  | succ n ih =>
    obtain ⟨s, a⟩ := a
    cases a with
    | nothing => exact r.takeHeldDrop
    | stage => exact r.takeHeldDrop.stageNext
    | enter => exact ih r.takeHeldDrop.beginEntry.continueEntry

theorem Runs.resolveCheck (r : Runs s₀ s) (still : s.engine.active = []) : Runs s₀ (resolveCheck s).1 := by
  unfold Machine.resolveCheck
  simp only []
  have still : (Machine.stagingOver s).engine.active = [] := (stagingOver_active s).trans still
  split
  · exact r.stagingOver.setIdle (.inl still)
  have decided := fun q => (r.stagingOver.aside { (Machine.stagingOver s).engine with waiting := none }
    rfl rfl rfl rfl rfl rfl rfl).decideRequest q (.inl still)
  split
  · split
    · exact ((decided _).opEnded _).answerGo _
    · exact ((decided _).opEnded _).ringRefused _ _
    · exact (decided _).opEnded _
  · exact Runs.proceed (.ite ((decided _).answerGo _) (decided _))

theorem Runs.surveyAdvance (r : Runs s₀ s) (survey : s.engine.mode = .survey) : Runs s₀ (surveyAdvance s) := by
  unfold Machine.surveyAdvance
  simp only []
  split
  · exact (r.setEngine { s.engine with mode := .idle, survey := surveyReset } (.land (by simp [Flying]) rfl rfl id
      (fun u held => ⟨u, held, .refl _, .refl _⟩) (fun _ l => .inr (l.none (.inr (.inr survey)))) id)).opEnded _
  · exact r.aside _ rfl rfl rfl rfl rfl rfl rfl

theorem Runs.advance (r : Runs s₀ s) : Runs s₀ (advance s).1 := by
  unfold Machine.advance
  split
  · exact r.phaseAdvance
  · exact r.phaseAdvance
  · split
    · rename_i nothing
      simp only [Bool.and_eq_true, List.isEmpty_iff] at nothing
      exact r.stagingOver.setIdle (.inl ((stagingOver_active s).trans nothing.1))
    · exact r
  · split
    · rename_i still
      exact r.resolveCheck (List.isEmpty_iff.1 still)
    · exact r
  · rename_i survey
    exact r.surveyAdvance survey
  · exact r

theorem Runs.advanceAll (r : Runs s₀ s) : Runs s₀ (advanceAll s) := .followUp _ r.advance

theorem Runs.abandonWaiting (r : Runs s₀ s) (c : EndCause) : Runs s₀ (abandonWaiting c s) := by
  unfold Machine.abandonWaiting
  split
  · exact r
  simp only []
  have told := fun n => ((r.aside { s.engine with waiting := none } rfl rfl rfl rfl rfl rfl rfl).notify n).opEnded .transition
  split
  · exact (told _).answerGo _
  · exact (told _).ringRefused _ _
  · exact told _

/-- The survey's list emptied. -/
theorem Runs.quitSurvey (r : Runs s₀ s) :
    Runs s₀ (s.setEngine { s.engine with survey := { s.engine.survey with todo := [] } }) :=
  r.aside _ rfl rfl rfl rfl rfl rfl rfl

theorem Runs.haltEngine (r : Runs s₀ s) : Runs s₀ (haltEngine s) := by
  unfold Machine.haltEngine
  split
  · exact r
  · exact (r.abandonWaiting _).advanceAll
  · rename_i muting
    exact .followUp _ (r.stopMuting _ muting)
  · rename_i m
    exact (r.stopTransition _ (by rw [m]; decide)).advanceAll
  · rename_i m
    exact (r.stopTransition _ (by rw [m]; decide)).advanceAll
  · exact r.endStaging _
  · exact r.quitSurvey.advanceAll

theorem Runs.permitLost (r : Runs s₀ s) : Runs s₀ (permitLost s) := by
  unfold Machine.permitLost
  simp only []
  have r := fun (c : Prop) [Decidable c] =>
    Runs.ite (c := c) (r.aside { s.engine with dropHeld := true } rfl rfl rfl rfl rfl rfl rfl) r
  split
  · exact .ite (r _).callDrop (r _)
  · exact .ite (r _).callDrop (r _)
  · exact .ite ((r _).abandonWaiting _).advanceAll (r _)
  · rename_i muting
    exact .ite (.followUp _ ((r _).stopMuting _ muting)) (r _)
  · rename_i m
    exact .ite ((r _).stopTransition _ (by rw [m]; decide)).advanceAll (r _)
  · rename_i m
    exact .ite ((r _).stopTransition _ (by rw [m]; decide)).advanceAll (r _)
  · exact .ite (r _).quitSurvey.advanceAll (r _)

theorem Runs.tearAtOnce (r : Runs s₀ s) (c : TearCause) (n : Nat) : Runs s₀ (tearAtOnce c n s) := by
  unfold Machine.tearAtOnce
  simp only []
  have torn := r.tearApplied c n
  split
  · refine Runs.ringTorn (Runs.ite ?_ torn) _ _
    exact torn.aside _ rfl rfl rfl rfl rfl rfl rfl
  · exact torn.ringTorn _ _

theorem Runs.tearAll (r : Runs s₀ s) (c : TearCause) (l : List Nat) : Runs s₀ (tearAll c l s) :=
  Runs.foldl (f := fun s n => Machine.tearAtOnce c n s) (fun _ _ r => r.tearAtOnce c _) l (.ite (r.setLatch true) r)

theorem Runs.fixtureLeft (r : Runs s₀ s) (n : Nat) : Runs s₀ (fixtureLeft n s) := by
  unfold Machine.fixtureLeft
  split
  · refine r.updTrans _ fun u => ?_
    unfold noteFixture noteFirst
    simp only []
    (repeat' split) <;> exact ⟨.refl _, .refl _, rfl, rfl, rfl, id⟩
  · exact r.tearAll _ _

end Sys2Proof.StepLaws

/-! ### The laws of drives, mute and the applied set, kept by drives, cards, fixtures and every row -/

namespace Sys2Proof.StepLaws

open Sys2Proof.Machine Sys2Proof.Laws

variable {s₀ s t : State} {p : Parts} {g h : Engine} {k : Nat → Nat}

/-! #### The drive of one element -/

/-- Different members of a list stand in the relation that holds between every two of its members in order. -/
theorem pairwise_apart {α : Type} {R : α → α → Prop} (symm : ∀ a b, R a b → R b a) {l : List α} (every : l.Pairwise R)
    {a b : α} (a_in : a ∈ l) (b_in : b ∈ l) (apart : a ≠ b) : R a b := by
  induction every with
  | nil => cases a_in
  | cons first _ ih =>
    rcases List.mem_cons.1 a_in with rfl | a_later <;> rcases List.mem_cons.1 b_in with rfl | b_later
    · exact absurd rfl apart
    · exact first b b_later
    · exact symm _ _ (first a a_later)
    · exact ih a_later b_later

/-- Drives of different elements: the one of `d.elem` is `d`. -/
theorem DriveLaw.unique (l : DriveLaw p k g) {d f : Drive} (d_in : d ∈ g.active) (f_in : f ∈ g.active)
    (same : f.elem = d.elem) : f = d :=
  Classical.byContradiction fun apart =>
    pairwise_apart (fun _ _ => Ne.symm) (List.pairwise_map.1 l.once) f_in d_in apart same

/-- A drive whose readback is not due does not wait for it. -/
theorem DriveLaw.not_due (l : DriveLaw p k g) {d : Drive} (d_in : d ∈ g.active) (stage : ∀ b, d.stage ≠ .senseDue b) :
    d.elem ∉ g.due := fun mem => by
  obtain ⟨f, f_in, same, b, due⟩ := l.due _ mem
  rw [l.unique d_in f_in same] at due
  exact stage b due

/-- The drive of `e` at another stage. -/
def atStage (e : Nat) (g : DriveStage) (l : List Drive) : List Drive := l.map fun d => if d.elem = e then { d with stage := g } else d

theorem atStage_elems (e : Nat) (x : DriveStage) (l : List Drive) :
    (atStage e x l).map (fun d => d.elem) = l.map fun d => d.elem := by
  unfold atStage
  rw [List.map_map]
  refine List.map_congr_left fun d _ => ?_
  simp only [Function.comp]
  split <;> rfl

theorem mem_atStage {e : Nat} {x : DriveStage} {l : List Drive} {d : Drive} (mem : d ∈ atStage e x l) :
    ∃ d' ∈ l, d'.elem = d.elem ∧ (d.elem = e → d.stage = x) ∧ (d.elem ≠ e → d = d') := by
  obtain ⟨d', mem', rfl⟩ := List.mem_map.1 mem
  refine ⟨d', mem', ?_⟩
  split <;> simp_all

theorem atStage_other {e : Nat} {x : DriveStage} {l : List Drive} {d : Drive} (mem : d ∈ l) (other : d.elem ≠ e) :
    d ∈ atStage e x l := List.mem_map.2 ⟨d, mem, if_neg other⟩

theorem atStage_same {e : Nat} {x : DriveStage} {l : List Drive} {d : Drive} (mem : d ∈ l) (same : d.elem = e) :
    { d with stage := x } ∈ atStage e x l := List.mem_map.2 ⟨d, mem, if_pos same⟩

/-- The coil pulses of a list of drives on card `n`. -/
def pulseCount (p : Parts) (n : Nat) (l : List Drive) : Nat := (l.filter fun d => pulsing d && p.on n d.elem).length

theorem pulseCount_cons (n : Nat) (d : Drive) (l : List Drive) :
    pulseCount p n (d :: l) = (if pulsing d && p.on n d.elem then 1 else 0) + pulseCount p n l := by
  unfold pulseCount
  rw [List.filter_cons]
  split <;> simp; omega

/-- A stage that is no pulse takes the pulse of its element's drive, if it had one, from the count. -/
theorem pulseCount_atStage {l : List Drive} (once : (l.map fun d => d.elem).Nodup) {d : Drive} (d_in : d ∈ l)
    {x : DriveStage} (off : ∀ ms, x ≠ .pulsing ms) (n : Nat) :
    pulseCount p n (atStage d.elem x l) + (if pulsing d && p.on n d.elem then 1 else 0) = pulseCount p n l := by
  induction l with
  | nil => exact absurd d_in List.not_mem_nil
  | cons f l ih =>
    rw [List.map_cons, List.nodup_cons] at once
    have quiet (f : Drive) : pulsing { f with stage := x } = false := by
      unfold pulsing
      split
      · rename_i ms is; exact absurd is (off ms)
      · rfl
    have step : atStage d.elem x (f :: l) = (if f.elem = d.elem then { f with stage := x } else f) :: atStage d.elem x l := rfl
    rw [step, pulseCount_cons, pulseCount_cons]
    rcases List.mem_cons.1 d_in with rfl | mem
    · have rest : atStage d.elem x l = l := by
        refine (List.map_congr_left fun f mem => if_neg fun same => once.1 ?_).trans (List.map_id l)
        exact List.mem_map.2 ⟨f, mem, same⟩
      rw [rest, if_pos rfl, quiet]
      simp; omega
    · have other : f.elem ≠ d.elem := fun same => once.1 (same ▸ List.mem_map_of_mem mem)
      rw [if_neg other]
      have := ih once.2 mem
      omega

/-- The drive of `d.elem` comes to a stage that is no pulse. -/
theorem DriveLaw.stage (l : DriveLaw p k g) {d : Drive} (d_in : d ∈ g.active) {x : DriveStage} (off : ∀ ms, x ≠ .pulsing ms)
    (active : h.active = atStage d.elem x g.active) (mode : h.mode = g.mode) (staging : h.staging = g.staging)
    (trans : h.trans = g.trans) (dueOnce : h.due.Nodup) (due : ∀ e ∈ h.due, e ≠ d.elem → e ∈ g.due)
    (now : d.elem ∈ h.due → ∃ b, x = .senseDue b) :
    DriveLaw p (fun n => k n - if pulsing d && p.on n d.elem then 1 else 0) h := by
  refine ⟨fun n => ?_, by rw [active, atStage_elems]; exact l.once, fun f mem => ?_, fun e waits f mem => ?_, ?_, ?_,
    fun m => ?_, dueOnce, fun e mem => ?_⟩
  · have count := l.count n
    have moved := pulseCount_atStage (p := p) l.once d_in off n
    rw [active]
    change k n - _ = pulseCount p n _
    change k n = pulseCount p n _ at count
    omega
  · rw [active] at mem
    obtain ⟨f', mem', same, -⟩ := mem_atStage mem
    exact same ▸ l.defined f' mem'
  · rw [active] at mem
    obtain ⟨f', mem', same, -⟩ := mem_atStage mem
    rw [← same]
    refine l.apart e ?_ f' mem'
    unfold waitingElems at waits ⊢
    rwa [mode, staging, trans] at waits
  · rw [staging]; exact l.staged
  · rw [trans]; exact l.listed
  · rw [active, l.none (mode ▸ m)]; rfl
  · rw [active]
    by_cases here : e = d.elem
    · obtain ⟨b, is⟩ := now (here ▸ mem)
      exact ⟨_, atStage_same d_in rfl, here.symm, b, is⟩
    · obtain ⟨f, mem', same, due⟩ := l.due e (due e mem here)
      exact ⟨f, atStage_other mem' (same ▸ here), same, due⟩

theorem DriveLaw.stage_quiet (l : DriveLaw p k g) {d : Drive} (d_in : d ∈ g.active) (quiet : pulsing d = false)
    {x : DriveStage} (off : ∀ ms, x ≠ .pulsing ms) (active : h.active = atStage d.elem x g.active) (mode : h.mode = g.mode)
    (staging : h.staging = g.staging) (trans : h.trans = g.trans) (dueOnce : h.due.Nodup)
    (due : ∀ e ∈ h.due, e ≠ d.elem → e ∈ g.due) (now : d.elem ∈ h.due → ∃ b, x = .senseDue b) : DriveLaw p k h := by
  have := l.stage d_in off active mode staging trans dueOnce due now
  simpa [quiet] using this

theorem atStage_pulses {e : Nat} {x : DriveStage} (off : ∀ ms, x ≠ .pulsing ms) {l : List Drive} (d : Drive)
    (mem : d ∈ atStage e x l) (pulse : pulsing d = true) : ∃ d' ∈ l, d'.elem = d.elem ∧ pulsing d' = true := by
  obtain ⟨d', mem', same, here, there⟩ := mem_atStage mem
  by_cases at_e : d.elem = e
  · unfold pulsing at pulse
    rw [here at_e] at pulse
    cases x <;> simp_all
  · exact ⟨d', mem', same, there at_e ▸ pulse⟩

/-- The drive of `e` ended, which is no pulse and waits for no readback. -/
theorem Onward.dropDrive {d : Drive} (d_in : d ∈ g.active) (quiet : pulsing d = false) (stage : ∀ b, d.stage ≠ .senseDue b) :
    Onward p g { g with active := g.active.filter fun f => f.elem != d.elem } := by
  have sub : (g.active.filter fun f => f.elem != d.elem) ⊆ g.active := fun f mem => (List.mem_filter.1 mem).1
  refine ⟨fun k l => ?_, fun l => l.fewer rfl rfl (fun f mem pulse => ⟨f, sub mem, rfl, pulse⟩)
    fun u held => ⟨u, held, .refl u⟩, fun l => l.fewer rfl (.refl _) fun u held => ⟨u, held, .refl u⟩⟩
  refine ⟨fun n => (l.count n).trans ?_, l.once.sublist (List.filter_sublist.map _), fun f mem => l.defined f (sub mem),
    fun e waits f mem => l.apart e waits f (sub mem), l.staged, l.listed, fun m => ?_, l.dueOnce, fun e mem => ?_⟩
  · rw [List.filter_filter]
    refine congrArg List.length (List.filter_congr fun f mem => ?_)
    by_cases same : f.elem = d.elem
    · rw [l.unique d_in mem same, quiet]; rfl
    · simp [same]
  · rw [l.none m]; rfl
  · obtain ⟨f, mem', same, due⟩ := l.due e mem
    refine ⟨f, List.mem_filter.2 ⟨mem', ?_⟩, same, due⟩
    have : f.elem ≠ d.elem := fun at_d => l.not_due d_in stage (at_d ▸ same ▸ mem)
    simpa using this

/-- A drive of `e` begun, its element no longer waiting: its pulse is counted on its card, and it may become the
transition's last EM element. -/
theorem DriveLaw.issue (l : DriveLaw p k g) {d : Drive} {kind : ElemKind} {card : Nat}
    (type : p.type d.elem = some (kind, card)) (pulse : pulsing d = isEm kind)
    (free : ∀ f ∈ g.active, d.elem ≠ f.elem) (waits : d.elem ∉ waitingElems g) (busy : ¬(g.mode = .idle ∨ g.mode = .muting ∨ g.mode = .survey))
    (active : h.active = g.active ++ [d]) (mode : h.mode = g.mode) (due : h.due = g.due) (staging : h.staging = g.staging)
    (trans : ∀ u, h.trans = some u → ∃ t, g.trans = some t ∧ Shrinks t u) :
    DriveLaw p (fun n => k n + if isEm kind && card == n then 1 else 0) h := by
  have on (n : Nat) : p.on n d.elem = (card == n) := by simp [Parts.on, type]
  refine ⟨fun n => ?_, ?_, fun f mem => ?_, fun e mem f mem' => ?_, staging ▸ l.staged, listed_less trans l.listed,
    fun m => absurd (mode ▸ m) busy, due ▸ l.dueOnce, fun e mem => ?_⟩
  · rw [active, List.filter_append, List.length_append, ← l.count n]
    simp only [List.filter_cons, List.filter_nil, pulse, on]
    split <;> rfl
  · rw [active, List.map_append, List.nodup_append]
    refine ⟨l.once, List.pairwise_singleton _ _, fun a mem b mem' => ?_⟩
    obtain ⟨f, f_in, rfl⟩ := List.mem_map.1 mem
    rw [List.map_singleton, List.mem_singleton] at mem'
    exact mem' ▸ (free f f_in).symm
  · rw [active] at mem
    rcases List.mem_append.1 mem with mem | mem
    · exact l.defined f mem
    · rw [List.mem_singleton.1 mem, type]; simp
  · have before := waitingElems_sub mode (staging ▸ List.Sublist.refl _) trans mem
    rw [active] at mem'
    rcases List.mem_append.1 mem' with mem' | mem'
    · exact l.apart e before f mem'
    · rw [List.mem_singleton.1 mem']
      exact fun same => waits (same ▸ before)
  · obtain ⟨f, mem', same⟩ := l.due e (due ▸ mem)
    exact ⟨f, active ▸ List.mem_append_left _ mem', same⟩

theorem emLeft_of_waits {e : Nat} (waits : e ∈ waitingElems g) (em : p.em e = true)
    (moving : g.mode = .breaking ∨ g.mode = .making) {u : Trans} (held : g.trans = some u) : emLeft p g u = true := by
  unfold emLeft
  rcases moving with m | m <;> simp only [waitingElems, m, held] at waits
  · have : u.brkTodo.any p.em = true := List.any_eq_true.2 ⟨e, waits, em⟩
    simp [this]
  · obtain ⟨q, mem, rfl⟩ := List.mem_map.1 waits
    have : (u.makTodo.any fun q => p.em q.1) = true := List.any_eq_true.2 ⟨q, mem, em⟩
    simp [m, this]

/-- A waiting drive begun: an EM drive waits only with MUTE_ACK asserted, where mute is needed. -/
theorem MuteLaw.issue (l : MuteLaw p g) {d : Drive} (waits : d.elem ∈ waitingElems g)
    (em : pulsing d = true → p.em d.elem = true) (active : h.active = g.active ++ [d]) (mode : h.mode = g.mode)
    (mute : h.mute = g.mute) (trans : ∀ u, h.trans = some u → ∃ t, g.trans = some t ∧ Shrinks t u) : MuteLaw p h := by
  by_cases pulse : pulsing d = true
  · intro u held
    obtain ⟨t, had, less⟩ := trans u held
    obtain ⟨muting, moving⟩ := l t had
    rw [mode, mute, less.needed, less.stop]
    refine ⟨muting, fun m needed => ?_⟩
    obtain ⟨raised, stopped, seen⟩ := moving m needed
    refine ⟨raised, fun stop => ?_, fun stop => .inl ?_⟩
    · obtain ⟨noBrk, noMak⟩ := stopped stop
      exact ⟨List.sublist_nil.1 (noBrk ▸ less.brk), List.sublist_nil.1 (noMak ▸ less.mak)⟩
    · exact (seen stop).resolve_right (by rw [emLeft_of_waits waits (em pulse) m had]; simp)
  · refine l.fewer mode mute (fun f mem pulses => ?_) trans
    rw [active] at mem
    rcases List.mem_append.1 mem with mem | mem
    · exact ⟨f, mem, rfl, pulses⟩
    · rw [List.mem_singleton.1 mem] at pulses
      exact absurd pulses pulse

/-! #### A waiting drive issued -/

theorem takeWaiting_engine (e : Nat) (s : State) : Onward p s.engine (takeWaiting e s).engine
    ∧ (takeWaiting e s).engine.mode = s.engine.mode ∧ (takeWaiting e s).engine.mute = s.engine.mute
    ∧ (takeWaiting e s).engine.staging.todo.Sublist s.engine.staging.todo
    ∧ ∀ u, (takeWaiting e s).engine.trans = some u → ∃ t, s.engine.trans = some t ∧ Shrinks t u := by
  have facts : (takeWaiting e s).engine.mode = s.engine.mode ∧ (takeWaiting e s).engine.mute = s.engine.mute
      ∧ (takeWaiting e s).engine.staging.todo.Sublist s.engine.staging.todo
      ∧ ∀ u, (takeWaiting e s).engine.trans = some u → ∃ t, s.engine.trans = some t ∧ Shrinks t u := by
    have mapped (f : Trans → Trans) (less : ∀ t, Shrinks t (f t)) (u : Trans) (held : (updTrans f s).engine.trans = some u) :
        ∃ t, s.engine.trans = some t ∧ Shrinks t u := by
      rw [updTrans_eq] at held
      obtain ⟨t, had, rfl⟩ := Option.map_eq_some_iff.1 held
      exact ⟨t, had, less t⟩
    unfold takeWaiting
    split
    · exact ⟨by simp, by simp, by simp, mapped _ fun t => ⟨List.erase_sublist, .refl _, rfl, rfl, rfl, id⟩⟩
    · exact ⟨by simp, by simp, by simp, mapped _ fun t => ⟨.refl _, List.filter_sublist, rfl, rfl, rfl, id⟩⟩
    · exact ⟨rfl, rfl, List.filter_sublist, fun u held => ⟨u, held, .refl u⟩⟩
    · exact ⟨rfl, rfl, .refl _, fun u held => ⟨u, held, .refl u⟩⟩
  obtain ⟨mode, mute, staging, trans⟩ := facts
  exact ⟨.fewer mode mute (by simp) (by simp) (by simp) staging trans, mode, mute, staging, trans⟩

theorem takeWaiting_gone {e : Nat} (waits : e ∈ waitingElems s.engine)
    (listed : ∀ u, s.engine.trans = some u → u.brkTodo.Nodup) : e ∉ waitingElems (takeWaiting e s).engine := by
  unfold waitingElems at waits
  unfold takeWaiting updTrans
  split at waits
  · rename_i u m held
    simp only [m, held, waitingElems, State.setEngine_engine]
    exact (listed u held).not_mem_erase
  · rename_i u m held
    simp [m, held, waitingElems]
  · rename_i m
    simp [m, waitingElems]
  · exact absurd waits List.not_mem_nil

theorem not_resting_of_waits {e : Nat} (waits : e ∈ waitingElems g) :
    ¬(g.mode = .idle ∨ g.mode = .muting ∨ g.mode = .survey) := by
  rintro (m | m | m) <;> simp [waitingElems, m] at waits

/-- The transition record after a DRIVE of an EM element in flight (R93). -/
def lastEmTrans (e : Nat) (x : Elem) (s : State) : Option Trans :=
  if isEm x.kind && inFlight s then s.engine.trans.map fun u => { u with lastEm := some e } else s.engine.trans

theorem issueDrive_engine (e target : Nat) (x : Elem) (s : State) : (issueDrive e target x s).engine =
    { s.engine with active := s.engine.active ++ [newDrive e target x], trans := lastEmTrans e x s } := by
  rw [issueDrive_eq, show ∀ u, (countDrive e u).engine = u.engine from fun u => by simp]
  unfold pulseBegun lastEmTrans
  have begun (c : Prop) [Decidable c] : (if c then setPulses x.card (fun n => n + 1) (driveBegun e target x s)
      else driveBegun e target x s).engine = { s.engine with active := s.engine.active ++ [newDrive e target x] } := by
    split <;> simp [driveBegun, setTx, setElem]
  have flight (c : Prop) [Decidable c] : inFlight (if c then setPulses x.card (fun n => n + 1) (driveBegun e target x s)
      else driveBegun e target x s) = inFlight s := by
    unfold inFlight
    rw [begun]
  simp only [flight]
  split
  · rw [updTrans_eq, State.setEngine_engine, begun]
  · exact begun _

theorem lastEmTrans_shrinks (e : Nat) (x : Elem) (s : State) (u : Trans) (held : lastEmTrans e x s = some u) :
    ∃ t, s.engine.trans = some t ∧ Shrinks t u := by
  unfold lastEmTrans at held
  split at held
  · obtain ⟨t, had, rfl⟩ := Option.map_eq_some_iff.1 held
    exact ⟨t, had, ⟨.refl _, .refl _, rfl, rfl, rfl, id⟩⟩
  · exact ⟨u, held, .refl u⟩

theorem pulsesAt_setCard (wf : tableWf s.cards = true) (n : Nat) (c : Card) (m : Nat) :
    pulsesAt (setCard n c s) m = if m = n then c.pulses else pulsesAt s m := by
  unfold pulsesAt
  rw [cardAt_setCard wf]
  split <;> rfl

theorem pulsesAt_issueDrive (e target : Nat) (x : Elem) (wf : tableWf s.cards = true) : pulsesAt (issueDrive e target x s)
    = fun n => pulsesAt s n + if isEm x.kind && x.card == n then 1 else 0 := by
  have cards : (issueDrive e target x s).cards = (if isEm x.kind then setPulses x.card (fun n => n + 1)
      (driveBegun e target x s) else driveBegun e target x s).cards := by
    rw [issueDrive_eq, pulseBegun]
    split <;> split <;> simp
  have begun : (driveBegun e target x s).cards = s.cards := by simp [driveBegun]
  rw [pulsesAt_congr cards]
  funext n
  split
  · rename_i em
    rw [setPulses, pulsesAt_setCard (by rw [begun]; exact wf)]
    have same : pulsesAt (driveBegun e target x s) = pulsesAt s := pulsesAt_congr begun
    by_cases here : n = x.card
    · subst here
      simp only [em, if_true, beq_self_eq_true, Bool.and_true]
      exact congrArg (· + 1) (congrFun same x.card)
    · rw [if_neg here, same]
      simp [Ne.symm here]
  · rename_i solid
    rw [pulsesAt_congr begun]
    simp [solid]

theorem Runs.takeWaiting (r : Runs s₀ s) (e : Nat) : Runs s₀ (takeWaiting e s) :=
  r.turn (r.keeps.takeWaiting e) (by simp [beside]) (takeWaiting_engine e s).1

theorem Shrinks.trans {t u v : Trans} (a : Shrinks t u) (b : Shrinks u v) : Shrinks t v :=
  ⟨b.brk.trans a.brk, b.mak.trans a.mak, b.needed.trans a.needed, b.stop.trans a.stop, b.old.trans a.old,
    fun none => a.faulted (b.faulted none)⟩

theorem Runs.issue (r : Runs s₀ s) {e target : Nat} {x : Elem} (waits : (e, target) ∈ waitingDrives s)
    (may : mayIssue s e = true) (at_e : elemAt s e = some x) : Runs s₀ (issueDrive e target x (Machine.takeWaiting e s)) := by
  have waiting : e ∈ waitingElems s.engine := by
    rw [← waitingDrives_elems]; exact List.mem_map.2 ⟨_, waits, rfl⟩
  obtain ⟨-, mode, mute, -, trans⟩ := takeWaiting_engine (p := parts s) e s
  have taken := r.takeWaiting e
  have kind : (parts s).type e = some (x.kind, x.card) := by simp [parts, at_e]
  have same : parts (Machine.takeWaiting e s) = parts s := parts_congr (by simp [beside])
  have pulse : pulsing (newDrive e target x) = isEm x.kind := by
    unfold newDrive pulsing
    cases isEm x.kind <;> rfl
  have active : (Machine.takeWaiting e s).engine.active = s.engine.active := by simp
  have type : parts (issueDrive e target x (Machine.takeWaiting e s)) = parts s := by
    rw [← same]
    unfold parts
    congr 1
    · funext f
      rw [elemAt_issueDrive]
      split
      · rename_i here
        have : elemAt (Machine.takeWaiting e s) e = some x := by simpa [elemAt] using at_e
        rw [here, this]; rfl
      · rfl
    · simp
  have shrinks : ∀ u, (issueDrive e target x (Machine.takeWaiting e s)).engine.trans = some u →
      ∃ t, s.engine.trans = some t ∧ Shrinks t u := fun u held => by
    rw [issueDrive_engine] at held
    obtain ⟨v, had, less⟩ := lastEmTrans_shrinks _ _ _ u held
    obtain ⟨t, had, more⟩ := trans v had
    exact ⟨t, had, more.trans less⟩
  have keeps : Keeps s₀ (issueDrive e target x (Machine.takeWaiting e s)) := by
    refine (r.keeps.takeWaiting e).issueDrive e target x fun em => ?_
    rw [cardAt_takeWaiting]
    exact pulses_of_mayIssue at_e may em
  refine ⟨keeps, fun tables drives => ?_, fun l => ?_, fun l => ?_⟩
  · have before := drivesSafe_iff.1 (r.drives tables drives)
    have l := drivesSafe_iff.1 (taken.drives tables drives)
    rw [same] at l
    have wf : tableWf (Machine.takeWaiting e s).cards = true := by
      obtain ⟨-, -, -, -, cards, -⟩ := taken.keeps.tables tables
      exact cards
    rw [drivesSafe_iff, type, pulsesAt_issueDrive e target x wf]
    refine l.issue (d := newDrive e target x) kind pulse (fun f mem => ?_)
      (takeWaiting_gone waiting fun u held => (before.listed u held).1) (mode ▸ not_resting_of_waits waiting)
      (issueDrive_active ..) ?_ ?_ ?_ (fun u held => ?_)
    · rw [active] at mem; exact before.apart e waiting f mem
    · rw [issueDrive_engine]
    · rw [issueDrive_engine]
    · rw [issueDrive_engine]
    · rw [issueDrive_engine] at held
      exact lastEmTrans_shrinks _ _ _ u held
  · rw [muteSafe_iff, type]
    refine (muteSafe_iff.1 (r.mute l)).issue (d := newDrive e target x) waiting (fun em => ?_) ?_ ?_ ?_ shrinks
    · rw [pulse] at em
      rw [show (newDrive e target x).elem = e from rfl]
      simp [Parts.em, kind, em]
    · rw [issueDrive_active, active]
    · rw [issueDrive_engine]; exact mode
    · rw [issueDrive_engine]; exact mute
  · refine appliedSafe_iff.2 ((appliedSafe_iff.1 (r.applied l)).fewer ?_ ?_ shrinks)
    · rw [issueDrive_engine]; exact mode
    · rw [issueDrive_engine]; simp

end Sys2Proof.StepLaws

/-! ### The laws of drives, mute and the applied set, kept by every step -/

namespace Sys2Proof.StepLaws

open Sys2Proof.Machine Sys2Proof.Laws

variable {e : Nat} {s₀ s t : State} {p : Parts} {g h : Engine} {k : Nat → Nat}

theorem Runs.setTx (r : Runs s₀ s) (b : Option BusTx) : Runs s₀ (setTx b s) := r.setBus _

/-- A card's record written with the same count of pulses. -/
theorem Runs.setCard_same (r : Runs s₀ s) (n : Nat) (c : Card) (same : c.pulses = (cardAt s n).pulses) :
    Runs s₀ (Machine.setCard n c s) := by
  refine r.engine (r.keeps.setCard_same n c same) rfl (fun tables => ?_) (.refl _ _)
  obtain ⟨-, -, -, -, wf, -⟩ := tables
  funext m
  rw [pulsesAt_setCard wf]
  split
  · rename_i here; rw [here, same]; rfl
  · rfl

/-! #### Stages of a drive -/

/-- The drive `d` of the engine comes to a stage that is no pulse, from one that is none. -/
theorem Onward.stage {d : Drive} (d_in : d ∈ g.active) (quiet : ∀ k, DriveLaw p k g → pulsing d = false)
    {x : DriveStage} (off : ∀ ms, x ≠ .pulsing ms) (active : h.active = atStage d.elem x g.active) (mode : h.mode = g.mode)
    (mute : h.mute = g.mute) (applied : h.applied = g.applied) (staging : h.staging = g.staging) (trans : h.trans = g.trans)
    (dueOnce : ∀ k, DriveLaw p k g → h.due.Nodup) (due : ∀ e ∈ h.due, e ≠ d.elem → e ∈ g.due)
    (now : ∀ k, DriveLaw p k g → d.elem ∈ h.due → ∃ b, x = .senseDue b) : Onward p g h := by
  have same : ∀ u, h.trans = some u → ∃ t, g.trans = some t ∧ Shrinks t u := fun u held => ⟨u, trans ▸ held, .refl u⟩
  refine ⟨fun k l => l.stage_quiet d_in (quiet k l) off active mode staging trans (dueOnce k l) due (now k l),
    fun l => l.fewer mode mute (fun f mem pulse => ?_) same, fun l => l.fewer mode (applied ▸ .refl _) same⟩
  rw [active] at mem
  exact atStage_pulses off f mem pulse

theorem Runs.senseFallsDue (r : Runs s₀ s) {d : Drive} (found : driveOf s e = some d) (quiet : pulsing d = false)
    (stage : ∀ b, d.stage ≠ .senseDue b) (b : Bool) : Runs s₀ (senseFallsDue e b s) := by
  obtain ⟨mem, rfl⟩ := driveOf_spec found
  refine r.turn (r.keeps.senseFallsDue _ b) rfl (.stage mem (fun _ _ => quiet) (fun _ => by simp) rfl rfl rfl rfl rfl rfl
    (fun k l => ?_) (fun e due other => ?_) fun _ _ _ => ⟨b, rfl⟩)
  · exact List.nodup_append.2 ⟨l.dueOnce, List.pairwise_singleton _ _, fun a a_in c c_in same =>
      l.not_due mem stage ((List.mem_singleton.1 c_in) ▸ same ▸ a_in)⟩
  · rcases List.mem_append.1 due with due | here
    · exact due
    · exact absurd (List.mem_singleton.1 here) other

theorem Runs.issueSense (r : Runs s₀ s) {e : Nat} {l : List Nat} (due : s.engine.due = e :: l) :
    Runs s₀ (issueSense e l s) := by
  have less (u : State) (h : u.engine = { s.engine with due := l }) (same : beside u = beside s) (keeps : Keeps s₀ u)
      : Runs s₀ u := by
    refine r.turn keeps same (h ▸ ⟨fun k law => ?_, fun law => ?_, fun law => ?_⟩)
    · have := law.dueOnce
      rw [due, List.nodup_cons] at this
      exact ⟨law.count, law.once, law.defined, law.apart, law.staged, law.listed, law.none, this.2,
        fun f mem => law.due f (due ▸ List.mem_cons_of_mem _ mem)⟩
    · exact law.fewer rfl rfl (fun f mem pulse => ⟨f, mem, rfl, pulse⟩) fun u held => ⟨u, held, .refl u⟩
    · exact law.fewer rfl (.refl _) fun u held => ⟨u, held, .refl u⟩
  unfold Machine.issueSense
  simp only []
  split
  · rename_i x d _ found
    refine Runs.setTx ?_ _
    obtain ⟨mem, here⟩ := driveOf_spec (s := s) (e := e) found
    refine r.turn ((r.keeps.setEngine { s.engine with due := l }).setStage _ _) rfl (.stage mem (fun k law => ?_)
      (x := .sensing (match d.stage with | .senseDue b => b | _ => false)) (fun _ => by simp)
      (here ▸ rfl) rfl rfl rfl rfl rfl (fun k law => ?_) (fun f f_in _ => due ▸ List.mem_cons_of_mem _ f_in)
      fun k law f_in => ?_)
    · obtain ⟨f, f_in, same, b, stage⟩ := law.due e (due ▸ List.mem_cons_self)
      rw [← law.unique mem f_in (same.trans here.symm), pulsing, stage]
    · have := law.dueOnce
      rw [due, List.nodup_cons] at this
      exact this.2
    · have := law.dueOnce
      rw [due, List.nodup_cons] at this
      exact absurd (here ▸ f_in) this.1
  · exact less _ rfl rfl (r.keeps.setEngine _)

theorem Runs.restartIssues (r : Runs s₀ s) (n : Nat) : Runs s₀ (restartIssues n s) := by
  unfold Machine.restartIssues
  simp only []
  split
  · refine Runs.setTx ?_ _
    exact r.setCard_same n _ rfl
  · refine Runs.setTx ?_ _
    exact r.setCard_same n _ rfl

theorem Runs.roundAt (r : Runs s₀ s) (n : Nat) : Runs s₀ (roundAt n s) :=
  r.other (r.keeps.roundAt n) (by simp [beside]) (by simp)

theorem Runs.grantBus (r : Runs s₀ s) : Runs s₀ (grantBus s) := by
  rcases grantBus_cases s with same | issued | ⟨n, same⟩ | ⟨n, same⟩ | ⟨n, same⟩
  · rw [same]; exact r
  · rcases engineIssues_cases issued with ⟨e, l, due, eq⟩ | ⟨e, target, x, waits, may, at_e, -, eq⟩
      | ⟨e, l, x, -, -, -, -, -, eq⟩ <;> rw [eq]
    · exact r.issueSense due
    · exact r.issue waits may at_e
    · exact (r.aside { s.engine with survey := { s.engine.survey with todo := l, current := some e } }
        rfl rfl rfl rfl rfl rfl rfl).setTx _
  · rw [same]; exact r.restartIssues n
  · rw [same]; exact r.setTx _
  · rw [same]; exact r.other (r.keeps.roundIssues n) (by simp [beside]) (by simp)

theorem Runs.settle (r : Runs s₀ s) : Runs s₀ (settle s) := by
  have granted := r.grantBus
  refine granted.other r.keeps.settle ?_ (settle_engine s)
  simp [beside, Machine.settle]

/-! #### Drives and senses -/

theorem Runs.driveReached (r : Runs s₀ s) {d : Drive} (d_in : d ∈ s.engine.active) (quiet : pulsing d = false)
    (stage : ∀ b, d.stage ≠ .senseDue b) : Runs s₀ (driveReached d s) := by
  have at_target := r.updElem d.elem (fun x => { x with pos := some d.target }) fun _ => ⟨rfl, rfl⟩
  have same : (Machine.updElem d.elem (fun x => { x with pos := some d.target }) s).engine = s.engine := by simp
  exact at_target.turn (at_target.keeps.dropDrive d.elem) rfl (.dropDrive (same ▸ d_in) quiet stage)

theorem Runs.failureNoted (r : Runs s₀ s) (d : Drive) (got : Option Nat) : Runs s₀ (failureNoted d got s) := by
  have faulted := r.updElem d.elem (fun x => { x with pos := got, faulted := true }) fun _ => ⟨rfl, rfl⟩
  refine (faulted.recordFault _).updTrans _ fun u => ?_
  unfold noteFirst
  simp only []
  split <;> exact ⟨.refl _, .refl _, rfl, rfl, rfl, fun none => by simp at none⟩

theorem Runs.readbackFailed (r : Runs s₀ s) {d : Drive} (d_in : d ∈ s.engine.active) (quiet : pulsing d = false)
    (stage : ∀ b, d.stage ≠ .senseDue b) (got : Option Nat) : Runs s₀ (readbackFailed d got s) := by
  have noted := r.failureNoted d got
  have latched : Runs s₀ (if transMute (StepLaws.failureNoted d got s) then setTheLatch (StepLaws.failureNoted d got s)
      else StepLaws.failureNoted d got s) := .ite (noted.setLatch true) noted
  rw [readbackFailed_eq]
  refine latched.turn (latched.keeps.dropDrive d.elem) rfl (.dropDrive ?_ quiet stage)
  have same : (StepLaws.failureNoted d got s).engine.active = s.engine.active := by simp [StepLaws.failureNoted]
  split <;> simpa [same] using d_in

theorem Runs.stagingFailed (r : Runs s₀ s) {d : Drive} (d_in : d ∈ s.engine.active) (quiet : pulsing d = false)
    (stage : ∀ b, d.stage ≠ .senseDue b) (got : Option Nat) : Runs s₀ (stagingFailed d got s) := by
  unfold Machine.stagingFailed
  have unknown := r.updElem d.elem (fun x => { x with pos := none }) fun _ => ⟨rfl, rfl⟩
  have same : (Machine.updElem d.elem (fun x => { x with pos := none }) s).engine = s.engine := by simp
  simp only []
  split
  · exact unknown.turn (unknown.keeps.dropDrive d.elem) rfl (.dropDrive (same ▸ d_in) quiet stage)
  · have held := unknown.aside { (Machine.updElem d.elem (fun x => { x with pos := none }) s).engine with
      holder := some { elem := d.elem, commanded := d.target, indicated := got } } rfl rfl rfl rfl rfl rfl rfl
    refine held.turn (held.keeps.dropDrive d.elem) rfl (.dropDrive ?_ quiet stage)
    rw [State.setEngine_engine, same]
    exact d_in

theorem Runs.lateEvent (r : Runs s₀ s) (e : Nat) : Runs s₀ (lateEvent e s) :=
  r.other (r.keeps.lateEvent e) (by simp [beside]) (by simp)

theorem Runs.readback (r : Runs s₀ s) {d : Drive} (d_in : d ∈ s.engine.active) {b : Bool} (stage : d.stage = .sensing b)
    (got : Option Nat) : Runs s₀ (readback d b got s) := by
  have quiet : pulsing d = false := by rw [pulsing, stage]
  have notDue (c : Bool) : d.stage ≠ .senseDue c := by rw [stage]; simp
  have reached := r.driveReached d_in quiet notDue
  unfold Machine.readback
  split
  · exact Runs.advanceAll (.ite (reached.lateEvent _) reached)
  split
  · refine r.turn (r.keeps.setStage _ _) rfl (.stage d_in (fun _ _ => quiet) (fun _ => by simp) rfl rfl rfl rfl rfl rfl
      (fun k l => l.dueOnce) (fun _ mem _ => mem) fun k l mem => absurd mem (l.not_due d_in notDue))
  · exact Runs.advanceAll (.ite (r.stagingFailed d_in quiet notDue _) (r.readbackFailed d_in quiet notDue _))

theorem Runs.surveyed (r : Runs s₀ s) (e : Nat) (got : Option Nat) : Runs s₀ (surveyed e got s) := by
  unfold Machine.surveyed
  cases got with
  | some n =>
    refine Runs.advanceAll (Runs.aside ?_ _ rfl rfl rfl rfl rfl rfl rfl)
    exact r.updElem e _ fun _ => ⟨rfl, rfl⟩
  | none =>
    refine Runs.advanceAll (Runs.aside (Runs.recordFault ?_ _) _ rfl rfl rfl rfl rfl rfl rfl)
    exact r.updElem e _ fun _ => ⟨rfl, rfl⟩

theorem Runs.senseReturns (r : Runs s₀ s) (got : Option Nat) : Runs s₀ (senseReturns got s) := by
  unfold Machine.senseReturns
  have freed := r.setTx none
  split
  · simp only []
    split
    · exact freed
    split
    · exact .ite (freed.surveyed _ _) freed
    split
    · rename_i found
      split
      · rename_i stage
        exact freed.readback (driveOf_spec found).1 stage _
      · exact freed
    · exact freed
  · exact r

theorem Runs.pulseEnds (r : Runs s₀ s) (e : Nat) : Runs s₀ (pulseEnds e s) := by
  have keeps := r.keeps.pulseEnds e
  unfold Machine.pulseEnds at keeps ⊢
  split
  · rename_i d x found at_e
    split
    · rename_i ms stage
      simp only [found, at_e, stage] at keeps
      obtain ⟨mem, rfl⟩ := driveOf_spec found
      have pulse : pulsing d = true := by rw [pulsing, stage]
      have notDue (c : Bool) : d.stage ≠ .senseDue c := by rw [stage]; simp
      have same : ∀ u, s.engine.trans = some u → ∃ t, s.engine.trans = some t ∧ Shrinks t u := fun u held => ⟨u, held, .refl u⟩
      refine ⟨keeps, fun tables drives => ?_, fun l => ?_, fun l => ?_⟩
      · have l := drivesSafe_iff.1 (r.drives tables drives)
        obtain ⟨-, -, -, -, wf, -⟩ := r.keeps.tables tables
        have pulses : pulsesAt (setPulses x.card (fun n => n - 1) (setStage d.elem (.settling d.settle) s))
            = fun n => pulsesAt s n - if pulsing d && (parts s).on n d.elem then 1 else 0 := by
          funext n
          have on : (parts s).on n d.elem = (x.card == n) := by simp [Parts.on, parts, at_e]
          rw [setPulses, pulsesAt_setCard (s := setStage d.elem (.settling d.settle) s) wf, pulse, on]
          by_cases here : n = x.card
          · subst here; simp; rfl
          · simp [here, Ne.symm here]; rfl
        rw [drivesSafe_iff, pulses]
        exact l.stage mem (fun _ => by simp) rfl rfl rfl rfl l.dueOnce (fun _ due _ => due)
          fun due => absurd due (l.not_due mem notDue)
      · refine muteSafe_iff.2 ((muteSafe_iff.1 (r.mute l)).fewer rfl rfl (fun f f_in pulse => ?_) same)
        exact atStage_pulses (fun _ => by simp) f f_in pulse
      · exact appliedSafe_iff.2 ((appliedSafe_iff.1 (r.applied l)).fewer rfl (.refl _) same)
    · exact r
  · exact r

theorem Runs.settleEnds (r : Runs s₀ s) (e : Nat) : Runs s₀ (settleEnds e s) := by
  unfold Machine.settleEnds
  split
  · rename_i d x found _
    split
    · rename_i units stage
      have quiet : pulsing d = false := by rw [pulsing, stage]
      have notDue (c : Bool) : d.stage ≠ .senseDue c := by rw [stage]; simp
      have reached := r.driveReached (driveOf_spec found).1 quiet notDue
      split
      · exact r.senseFallsDue found quiet notDue _
      · exact reached.advanceAll
      · exact reached.advanceAll
    · exact r
  · exact r

theorem Runs.retryEnds (r : Runs s₀ s) (e : Nat) : Runs s₀ (retryEnds e s) := by
  unfold Machine.retryEnds
  split
  · rename_i d found
    split
    · rename_i units stage
      exact r.senseFallsDue found (by rw [pulsing, stage]) (fun c => by rw [stage]; simp) _
    · exact r
  · exact r

/-! #### Cards -/

theorem mem_tkeys {α : Type} {q : Nat → α → Bool} {l : Table α} (wf : tableWf l = true) {e : Nat} :
    e ∈ tkeys q l ↔ ∃ x, tget l e = some x ∧ q e x = true := by
  constructor
  · intro mem
    obtain ⟨⟨j, x⟩, f_in, rfl⟩ := List.mem_map.1 mem
    obtain ⟨f_in, ok⟩ := List.mem_filter.1 f_in
    exact ⟨x, tget_of_mem wf f_in, ok⟩
  · rintro ⟨x, found, ok⟩
    exact List.mem_map.2 ⟨(e, x), List.mem_filter.2 ⟨mem_of_tget found, ok⟩, rfl⟩

theorem mem_elemsOnCard (wf : tableWf s.net.elems = true) (n : Nat) : e ∈ elemsOnCard s n ↔ (parts s).on n e = true := by
  unfold elemsOnCard
  rw [mem_tkeys wf]
  cases at_e : tget s.net.elems e <;> simp [Parts.on, parts, elemAt, at_e]

theorem Parts.on_unique {n m : Nat} (a : p.on n e = true) (b : p.on m e = true) : m = n := by
  unfold Parts.on at a b
  cases h : p.type e <;> simp_all

/-- The drives of card `n` ended and its count of pulses 0 (R105, R145). -/
theorem DriveLaw.without {on : List Nat} {n : Nat} (l : DriveLaw p k g) (mem : ∀ e, e ∈ on ↔ p.on n e = true)
    (less : h.active = g.active.filter fun d => !on.contains d.elem) (due : h.due = g.due.filter fun e => !on.contains e)
    (staging : h.staging.todo.Sublist g.staging.todo) (mode : h.mode = g.mode)
    (trans : ∀ u, h.trans = some u → ∃ t, g.trans = some t ∧ Shrinks t u) :
    DriveLaw p (fun m => if m = n then 0 else k m) h := by
  have sub : h.active.Sublist g.active := less ▸ List.filter_sublist
  refine ⟨fun m => ?_, l.once.sublist (sub.map _), fun d d_in => l.defined d (sub.subset d_in),
    fun e waits d d_in => l.apart e (waitingElems_sub mode staging trans waits) d (sub.subset d_in),
    l.staged.sublist (staging.map _), listed_less trans l.listed, fun m => ?_, due ▸ l.dueOnce.sublist List.filter_sublist,
    fun e e_in => ?_⟩
  · rw [less, List.filter_filter]
    split
    · rename_i here
      subst here
      refine (List.length_eq_zero_iff.2 (List.filter_eq_nil_iff.2 fun d _ => ?_)).symm
      simp only [Bool.and_eq_true, Bool.not_eq_true', List.contains_eq_mem, decide_eq_false_iff_not, mem]
      exact fun h => h.2 h.1.2
    · rename_i other
      rw [l.count m]
      refine congrArg List.length (List.filter_congr fun d _ => ?_)
      cases on_m : p.on m d.elem
      · simp
      · have : d.elem ∉ on := fun d_in => other (Parts.on_unique ((mem _).1 d_in) on_m)
        simp [this]
  · rw [less, l.none (mode ▸ m)]; rfl
  · rw [due] at e_in
    obtain ⟨e_in, off⟩ := List.mem_filter.1 e_in
    obtain ⟨d, d_in, same, stage⟩ := l.due e e_in
    exact ⟨d, less ▸ List.mem_filter.2 ⟨d_in, same ▸ off⟩, same, stage⟩

theorem transWithout_shrinks (on : List Nat) (u : Trans) : Shrinks u (transWithout on u) :=
  ⟨List.filter_sublist, List.filter_sublist, rfl, rfl, rfl, id⟩

theorem parts_dropCardDrives (n : Nat) (s : State) : parts (dropCardDrives n s) = parts s := by
  unfold parts
  congr 1
  · funext e
    rw [elemAt_dropCardDrives, Option.map_map]
    refine congrArg (Option.map · _) (funext fun x => ?_)
    simp only [Function.comp]
    split <;> rfl
  · simp [dropCardDrives_eq, parkElems]

theorem Runs.dropCardDrives (r : Runs s₀ s) (n : Nat) :
    Runs s₀ (dropCardDrives n (setPulses n (fun _ => 0) s)) := by
  have keeps := (r.keeps.setPulses n (fun _ => 0) fun _ => Nat.zero_le 2).dropCardDrives n
  have eng := dropCardDrives_engine n (setPulses n (fun _ => 0) s)
  rw [show (setPulses n (fun _ => 0) s).engine = s.engine from rfl] at eng
  have type : parts (Machine.dropCardDrives n (setPulses n (fun _ => 0) s)) = parts s := parts_dropCardDrives n _
  have shrinks (u : Trans) (held : (Machine.dropCardDrives n (setPulses n (fun _ => 0) s)).engine.trans = some u) :
      ∃ t, s.engine.trans = some t ∧ Shrinks t u := by
    rw [eng] at held
    simp only [] at held
    split at held
    · obtain ⟨t, had, rfl⟩ := Option.map_eq_some_iff.1 held
      exact ⟨t, had, transWithout_shrinks _ t⟩
    · exact ⟨u, held, .refl u⟩
  refine ⟨keeps, fun tables drives => ?_, fun l => ?_, fun l => ?_⟩
  · have l := drivesSafe_iff.1 (r.drives tables drives)
    obtain ⟨elems, -, -, -, cards, -⟩ := r.keeps.tables tables
    have pulses : pulsesAt (Machine.dropCardDrives n (setPulses n (fun _ => 0) s))
        = fun m => if m = n then 0 else pulsesAt s m := by
      rw [pulsesAt_congr (t := Machine.dropCardDrives n (setPulses n (fun _ => 0) s)) (s := setPulses n (fun _ => 0) s) (by simp)]
      funext m
      rw [setPulses, pulsesAt_setCard cards]
    rw [drivesSafe_iff, type, pulses, eng]
    exact l.without (on := elemsOnCard s n) (fun e => mem_elemsOnCard elems n) rfl rfl List.filter_sublist rfl
      (by rw [eng] at shrinks; exact shrinks)
  · rw [muteSafe_iff, type]
    refine (muteSafe_iff.1 (r.mute l)).fewer (by rw [eng]; rfl) (by rw [eng]; rfl) (fun d mem pulse => ?_) shrinks
    rw [eng] at mem
    exact ⟨d, (List.mem_filter.1 mem).1, rfl, pulse⟩
  · exact appliedSafe_iff.2 ((appliedSafe_iff.1 (r.applied l)).fewer (by rw [eng]; rfl) (by rw [eng]; exact .refl _) shrinks)

theorem Runs.leaveEnabled (r : Runs s₀ s) (n : Nat) : Runs s₀ (leaveEnabled n s) := by
  have dropped := r.dropCardDrives n
  refine Runs.advanceAll (.ite (dropped.updTrans _ fun u => ?_) (dropped.tearAll _ _))
  unfold noteCard noteFirst
  simp only []
  (repeat' split) <;> exact ⟨.refl _, .refl _, rfl, rfl, rfl, id⟩

theorem Runs.changeCard (r : Runs s₀ s) (n : Nat) (new : CardState) : Runs s₀ (changeCard n new s) := by
  unfold Machine.changeCard
  simp only []
  split
  · exact r
  split
  · exact r.setCard_same n _ rfl
  · refine Runs.notify ?_ _
    exact r.setCard_same n _ rfl

theorem Runs.disableCard (r : Runs s₀ s) (n : Nat) : Runs s₀ (disableCard n s) :=
  (((r.setCard_same n { cardAt s n with coilFault := true } rfl).changeCard n .disabled).recordFault _).leaveEnabled n

theorem Runs.loseCard (r : Runs s₀ s) (n : Nat) : Runs s₀ (loseCard n s) :=
  ((r.changeCard n .absent).recordFault _).leaveEnabled n

theorem Runs.setLast (r : Runs s₀ s) (n : Nat) (q : PollResult) : Runs s₀ (setLast n q s) := r.setCard_same n _ rfl

theorem Runs.setRestart (r : Runs s₀ s) (n : Nat) (x : RestartStage) : Runs s₀ (setRestart n x s) :=
  r.setCard_same n _ rfl

theorem Runs.beginRestart (r : Runs s₀ s) (n : Nat) : Runs s₀ (beginRestart n s) := by
  have begun := (r.changeCard n .restarting).setCard_same n
    { cardAt (Machine.changeCard n .restarting s) n with restart := some .wantRestart } rfl
  exact .ite (begun.leaveEnabled n) begun

theorem Runs.endRestart (r : Runs s₀ s) (n : Nat) (new : CardState) : Runs s₀ (endRestart n new s) :=
  ((r.changeCard n new).setCard_same n { cardAt (Machine.changeCard n new s) n with restart := none } rfl).opEnded _

theorem Runs.restartPolled (r : Runs s₀ s) (n : Nat) (q : PollResult) : Runs s₀ (restartPolled n q s) := by
  unfold Machine.restartPolled
  simp only []
  split
  · refine Runs.endRestart ?_ _ _
    exact (r.setLast n _).setCard_same n _ rfl
  · exact (r.setLast n _).endRestart _ _
  · refine Runs.endRestart ?_ _ _
    exact (r.setLast n _).setCard_same n _ rfl

theorem Runs.roundPolled (r : Runs s₀ s) (n : Nat) (q : PollResult) : Runs s₀ (roundPolled n q s) := by
  have last := r.setLast n q
  unfold Machine.roundPolled
  simp only []
  split
  · exact last
  · exact last.changeCard _ _
  · exact last.changeCard _ _
  · exact last
  · exact last
  · exact last.loseCard _
  · exact last.disableCard _
  · exact last

theorem Runs.pollDone (r : Runs s₀ s) (q : PollResult) : Runs s₀ (pollDone q s) := by
  unfold Machine.pollDone
  split
  · exact ((r.setTx none).roundPolled _ _).roundAt _
  · exact Runs.setBus (.ite ((r.setTx none).setLast _ _) (((r.setTx none).setLast _ _).beginRestart _)) _
  · exact r

theorem Runs.noAnswer (r : Runs s₀ s) : Runs s₀ (noAnswer s) := by
  unfold Machine.noAnswer
  split
  · exact .ite ((r.setTx none).loseCard _) (r.setTx none)
  · exact .ite ((r.setTx none).loseCard _) (r.setTx none)
  · exact (r.setTx none).endRestart _ _
  · exact (r.setTx none).restartPolled _ _
  · exact r.pollDone _
  · exact r.pollDone _
  · exact r

/-! #### Fixtures and loops -/

theorem Runs.changeFixture (r : Runs s₀ s) (n : Nat) (f : Fixture) : Runs s₀ (changeFixture n f s) :=
  r.other (r.keeps.changeFixture n f) (by simp [beside]) (by simp)

theorem Runs.leaveAdmitted (r : Runs s₀ s) (n : Nat) (f : Fixture) (judged : Bool) : Runs s₀ (leaveAdmitted n f judged s) :=
  Runs.fixtureLeft (.ite ((r.changeFixture _ _).recordFault _) (r.changeFixture _ _)) n

theorem Runs.foundAbsent (r : Runs s₀ s) (n : Nat) : Runs s₀ (foundAbsent n s) := by
  unfold Machine.foundAbsent
  simp only []
  split
  · split
    · exact r.leaveAdmitted _ _ _
    · exact (r.changeFixture _ _).opEnded _
    · exact r.changeFixture _ _
  · exact r

theorem Runs.beginAdmission (r : Runs s₀ s) (n : Nat) : Runs s₀ (beginAdmission n s) :=
  .ite (r.leaveAdmitted _ _ _) (r.changeFixture _ _)

theorem Runs.watchSupply (r : Runs s₀ s) (n : Nat) : Runs s₀ (watchSupply n s) := .ite (r.leaveAdmitted _ _ _) r

theorem Runs.failAdmission (r : Runs s₀ s) (n : Nat) (a : AdmitResult) : Runs s₀ (failAdmission n a s) :=
  (r.changeFixture _ _).opEnded _

theorem Runs.identityRead (r : Runs s₀ s) (n : Nat) (b0 b1 b2 b3 : Byte) : Runs s₀ (identityRead n b0 b1 b2 b3 s) := by
  unfold Machine.identityRead
  split
  · split
    · exact ((r.changeFixture _ _).opEnded _).watchSupply n
    · exact r.failAdmission _ _
  · exact r

theorem Runs.toBench (r : Runs s₀ s) (n : Nat) : Runs s₀ (toBench n s) := by
  unfold Machine.toBench
  simp only []
  split
  · exact r.changeFixture _ _
  · exact r.changeFixture _ _
  · exact (r.changeFixture _ _).opEnded _
  · exact r.leaveAdmitted _ _ _
  · exact r.changeFixture _ _

theorem Runs.loopOpens (r : Runs s₀ s) (n : Nat) : Runs s₀ (loopOpens n s) := by
  have told := fun l m => r.other (t := Machine.notify m (clearConfirmed (Machine.setLoop n l s)))
    ((r.keeps.setLoop n l).clearConfirmed.notify m) (by simp [beside]) (by simp)
  exact .ite (.ite (told _ _).permitLost (told _ _)) r

/-! #### Elements defined and deleted -/

/-- An element that is not busy is given another kind and card. -/
theorem DriveLaw.retype {q : Parts} (l : DriveLaw p k g) (same : ∀ f, f ≠ e → q.type f = p.type f)
    (idle : ∀ d ∈ g.active, d.elem ≠ e) : DriveLaw q k g := by
  have on (n : Nat) (d : Drive) (mem : d ∈ g.active) : q.on n d.elem = p.on n d.elem := by
    rw [Parts.on, same _ (idle d mem)]; rfl
  refine ⟨fun n => (l.count n).trans (congrArg List.length (List.filter_congr fun d mem => by rw [on n d mem])), l.once,
    fun d mem => ?_, l.apart, l.staged, l.listed, l.none, l.dueOnce, l.due⟩
  rw [same _ (idle d mem)]
  exact l.defined d mem

theorem not_flying_of_open (engaged : engineEngaged s = false) : ¬Flying s.engine := by
  rw [← inFlight_iff]
  simp only [engineEngaged, Bool.or_eq_false_iff] at engaged
  simp [engaged.2]

theorem forgetElem_engine (e : Nat) (s : State) : (forgetElem e s).engine.mode = s.engine.mode
    ∧ (forgetElem e s).engine.active = s.engine.active ∧ (forgetElem e s).engine.due = s.engine.due
    ∧ (forgetElem e s).engine.applied = s.engine.applied ∧ (forgetElem e s).engine.trans = s.engine.trans
    ∧ (forgetElem e s).engine.staging.todo = s.engine.staging.todo.filter fun q => q.1 != e :=
  ⟨rfl, rfl, rfl, rfl, rfl, rfl⟩

/-- Element `e`, which is not busy, rewritten or removed while the engine is not engaged, and taken off its lists. -/
theorem Runs.forgetElem (r : Runs s₀ s) {u : State} (keeps : Keeps s₀ (forgetElem e u)) (engaged : engineEngaged s = false)
    (busy : elemBusy s e = false) (engine : u.engine = s.engine) (cards : u.cards = s.cards)
    (elems : ∀ f, f ≠ e → elemAt u f = elemAt s f) : Runs s₀ (forgetElem e u) := by
  have grounded := not_flying_of_open engaged
  have free : ∀ d ∈ s.engine.active, d.elem ≠ e := by
    simp only [elemBusy, Bool.or_eq_false_iff, List.any_eq_false, beq_iff_eq] at busy
    exact busy.1
  obtain ⟨mode, active, due, applied, trans, todo⟩ := forgetElem_engine e u
  rw [engine] at mode active due applied trans todo
  have sub : (Machine.forgetElem e u).engine.staging.todo.Sublist s.engine.staging.todo := todo ▸ List.filter_sublist
  have same : ∀ v, (Machine.forgetElem e u).engine.trans = some v → ∃ t, s.engine.trans = some t ∧ Shrinks t v :=
    fun v held => ⟨v, trans ▸ held, .refl v⟩
  refine ⟨keeps, fun tables drives => ?_, fun _ => muteSafe_iff.2 fun v _ => ?_, fun l => ?_⟩
  · have l := drivesSafe_iff.1 (r.drives tables drives)
    have pulses : pulsesAt (Machine.forgetElem e u) = pulsesAt s := pulsesAt_congr (by simpa using cards)
    rw [drivesSafe_iff, pulses]
    refine (DriveLaw.retype (e := e) (p := parts s) ?_ (fun f other => ?_) fun d mem => free d (active ▸ mem))
    · exact (Onward.fewer mode (by simp [engine]) active due (applied ▸ .refl _) sub same).drives _ l
    · have : elemAt (Machine.forgetElem e u) f = elemAt u f := rfl
      simp only [parts, this, elems f other]
  · unfold Flying at grounded
    rw [mode]
    exact ⟨fun m => absurd (.inl m) grounded, fun m => absurd (.inr m) grounded⟩
  · exact appliedSafe_iff.2 ((appliedSafe_iff.1 (r.applied l)).fewer mode (applied ▸ .refl _) same)

theorem elemAt_dropElemUse (e f : Nat) (s : State) : elemAt (dropElemUse e s) f = elemAt s f := by simp [elemAt]

theorem Runs.elemEdit (r : Runs s₀ s) (before : State) (e : Nat) : Runs s₀ (elemEdit before e s) :=
  r.other (r.keeps.elemEdit before e) (by simp [beside]) (by simp)

theorem Runs.defineElem (r : Runs s₀ s) (x : Elem) (engaged : engineEngaged s = false) (busy : elemBusy s e = false) :
    Runs s₀ (defineElem e x s) := by
  have forgotten : Runs s₀ (Machine.forgetElem e (setElem e x (dropElemUse e s))) :=
    r.forgetElem (((r.keeps.dropElemUse e).setElem e x).setEngine _) engaged busy (by simp) (by simp) fun f other => by
      rw [elemAt_setElem, if_neg other, elemAt_dropElemUse]
  exact (forgotten.elemEdit s e).advanceAll

theorem Runs.deleteElem (r : Runs s₀ s) (engaged : engineEngaged s = false) (busy : elemBusy s e = false) :
    Runs s₀ (deleteElem e s) := by
  have keeps : Keeps s₀ ((dropElemUse e s).setNet { (dropElemUse e s).net with elems := tdel (dropElemUse e s).net.elems e }) :=
    (r.keeps.dropElemUse e).setNet _ (tableWf_tdel e) id
  have forgotten := r.forgetElem (e := e) (keeps.setEngine _) engaged busy (by simp) (by simp) fun f other => by
    rw [elemAt, State.setNet_net, tget_tdel_other _ _ _ other]
    exact elemAt_dropElemUse e f s
  exact (forgotten.elemEdit s e).advanceAll

/-! #### Commands of the engine and the ring -/

theorem Runs.requestGo (r : Runs s₀ s) (plus : Bool) (ids : List Nat) : Runs s₀ (requestGo plus ids s) := by
  have taken := fun q => r.takeRequest q
  unfold Machine.requestGo
  simp only []
  split
  · exact (taken _).other ((taken _).keeps.setLink_same _ rfl rfl) rfl rfl
  · exact (taken _).answer _ _
  · exact .followUp _ ((taken _).answer _ _).proceed

/-- MUTE_ACK asserted. -/
theorem Runs.muteUp (r : Runs s₀ s) : Runs s₀ (s.setMuteAck true) := by
  refine ⟨r.keeps.other rfl, r.drives, fun l u held => ?_, r.applied⟩
  obtain ⟨muting, moving⟩ := r.mute l u held
  refine ⟨muting, fun m needed => ?_⟩
  obtain ⟨raised, stopped, -⟩ := moving m needed
  exact ⟨raised, stopped, fun _ => .inl rfl⟩

theorem DriveLaw.congr {q : Parts} (l : DriveLaw p k g) (same : q.type = p.type) : DriveLaw q k g := by
  have on : q.on = p.on := by unfold Parts.on; rw [same]
  refine ⟨fun n => (l.count n).trans (by rw [on]), l.once, fun d mem => ?_, l.apart, l.staged, l.listed, l.none, l.dueOnce,
    l.due⟩
  rw [same]
  exact l.defined d mem

/-- A transition stopped HOT as MUTE_ACK falls (R93). -/
theorem Runs.stopHot (r : Runs s₀ s) (keeps : Keeps s₀ t) (elems : t.net.elems = s.net.elems) (cards : t.cards = s.cards)
    (engine : t.engine = { s.engine with trans := s.engine.trans.map (stopped .hot) }) (raised : s.engine.mute = true)
    (moving : s.engine.mode = .breaking ∨ s.engine.mode = .making) : Runs s₀ t := by
  have moves : s.engine.mode ≠ .muting := by rcases moving with m | m <;> rw [m] <;> decide
  have onward := Onward.stop (p := parts s) .hot moves
  rw [← engine] at onward
  refine ⟨keeps, fun tables drives => ?_, fun l => muteSafe_iff.2 fun u held => ?_, fun l => ?_⟩
  · rw [drivesSafe_iff, pulsesAt_congr cards]
    refine (onward.drives _ (drivesSafe_iff.1 (r.drives tables drives))).congr ?_
    simp only [parts, elemAt, elems]
  · rw [engine] at held ⊢
    obtain ⟨v, -, rfl⟩ := Option.map_eq_some_iff.1 held
    exact ⟨fun m => absurd m moves, fun _ _ => ⟨raised, fun _ => ⟨rfl, rfl⟩, fun none => absurd none (by simp [stopped])⟩⟩
  · exact appliedSafe_iff.2 (onward.applied (appliedSafe_iff.1 (r.applied l)))

/-- MUTE_ACK deasserted with nothing to stop (R93). -/
theorem Runs.muteDown (r : Runs s₀ s)
    (quiet : ∀ u, s.engine.trans = some u → s.engine.mute = true → s.engine.mode = .breaking ∨ s.engine.mode = .making →
      u.stop = none → emDriveLeft s u = false) : Runs s₀ (s.setMuteAck false) := by
  refine ⟨r.keeps.other rfl, r.drives, fun l u held => ?_, r.applied⟩
  obtain ⟨muting, moving⟩ := r.mute l u held
  refine ⟨muting, fun m needed => ?_⟩
  obtain ⟨raised, stopped, -⟩ := moving m needed
  exact ⟨raised, stopped, fun none => .inr (quiet u held raised m none)⟩

/-- The fault of a hot event (R93). -/
def hotFault (u : Trans) (s : State) : FaultRec :=
  { plainFault .hot with
    elem := u.lastEm, number := flightNumber s, torn := sortNat (u.target.filter fun r => !u.old.contains r) }

theorem hotEvent_eq (u : Trans) (s : State) :
    hotEvent u s = advanceAll (setTheLatch (stopTransition .hot (Machine.recordFault (hotFault u s) s))) := rfl

theorem Runs.ite_of {c : Prop} [Decidable c] {a b : State} (ha : c → Runs s₀ a) (hb : ¬c → Runs s₀ b) :
    Runs s₀ (if c then a else b) := by
  split
  · rename_i yes; exact ha yes
  · rename_i no; exact hb no

/-- MUTE_ACK deasserted: with an EM drive left the transition is stopped (R93). -/
theorem Runs.muteAckLost (r : Runs s₀ s) : Runs s₀ (muteAckLost (s.setMuteAck false)) := by
  have keeps : Keeps s₀ (s.setMuteAck false) := r.keeps.other rfl
  unfold Machine.muteAckLost
  cases held : s.engine.trans with
  | none =>
    simp only [State.setMuteAck_engine, held]
    exact r.muteDown fun u had => by rw [held] at had; contradiction
  | some u =>
    simp only [State.setMuteAck_engine, held]
    refine .ite_of (fun hot => ?_) fun cold => ?_
    · simp only [Bool.and_eq_true, Bool.or_eq_true, beq_iff_eq, Option.isNone_iff_eq_none] at hot
      obtain ⟨⟨⟨raised, moving⟩, running⟩, -⟩ := hot
      rw [hotEvent_eq]
      generalize hotFault u _ = f
      refine Runs.advanceAll (Runs.setLatch (r.stopHot ((keeps.recordFault f).stopTransition .hot) (by simp) (by simp) ?_
        raised moving) true)
      have same : (Machine.recordFault f (s.setMuteAck false)).engine = s.engine := by simp
      rw [stopTransition_eq, same, if_neg (by simp [held, running])]
      split <;> simp [setTheLatch, updTrans_eq]
    · refine r.muteDown fun v had raised moving running => ?_
      rw [held] at had
      cases had
      have same : emDriveLeft (s.setMuteAck false) u = emDriveLeft s u := rfl
      simpa [raised, moving, running, same] using cold

theorem Runs.muteTimeout (r : Runs s₀ s) (muting : s.engine.mode = .muting) : Runs s₀ (muteTimeout s) := by
  refine .followUp _ (Runs.endAfter (r.recordFault _) _ (fun u => ?_) false (.inr (.inr (.inl ?_))))
  · unfold noteFirst
    split <;> exact ⟨.refl _, .refl _⟩
  · simpa using muting

theorem Runs.leaveStep (r : Runs s₀ s) : Runs s₀ (leaveStep s) :=
  r.other r.keeps.leaveStep (by simp [beside]) (by simp)

theorem Runs.visitEnds (r : Runs s₀ s) {st : StepRec} (at_ptr : stepAt s s.ring.ptr = some st) :
    Runs s₀ (visitEnds st s).1 := by
  have keeps := r.keeps.visitEnds at_ptr
  unfold Machine.visitEnds at keeps ⊢
  split
  · rename_i below
    rw [if_pos below] at keeps
    exact r.ring _ keeps
  · exact r.leaveStep.beginEntry

theorem Runs.dwellEnds (r : Runs s₀ s) : Runs s₀ (dwellEnds s).1 := by
  unfold Machine.dwellEnds
  split
  · rename_i st at_ptr
    split
    · exact r.visitEnds at_ptr
    · exact r
  · exact r

theorem Runs.takeTrigger (r : Runs s₀ s) : Runs s₀ (takeTrigger s).1.1 := by
  unfold Machine.takeTrigger
  split
  · split
    · rename_i st at_ptr
      split
      · exact r.visitEnds at_ptr
      · exact r
    · exact r
  · split
    · exact r.ring _ (r.keeps.setRing_same _ rfl rfl rfl rfl rfl)
    · exact r.ring _ (r.keeps.setRing_same _ rfl rfl rfl rfl rfl)
  · exact r
  · exact r
  · exact r

theorem Runs.trigTaken (r : Runs s₀ s) (plus : Bool) : Runs s₀ (trigTaken plus s) :=
  .followUp _ (.continueEntry (a := (_, _)) (r.takeTrigger.answer _ _))

theorem Runs.startRun (r : Runs s₀ s) (plus : Bool) {i : Nat} (range : i < s.ring.len) : Runs s₀ (startRun plus i s) := by
  have aimed := r.ring { s.ring with
      pass := 0, ptr := i, visit := 1, pendingTrig := false, overrun := false, holdPending := false, halt := none }
    (r.keeps.aim _ rfl rfl (fun _ => range) rfl fun _ => Nat.zero_le _)
  exact .followUp _ (.continueEntry (a := (_, _)) ((aimed.endStaging true).beginEntry.answer _ _))

theorem Runs.holdRing (r : Runs s₀ s) : Runs s₀ (holdRing s) := by
  unfold Machine.holdRing
  split
  · refine Runs.endStaging (Runs.other r ?_ (by simp [beside]) (by simp)) _
    refine Keeps.setRing_same (r.keeps.other (by simp [view])) _ ?_ ?_ ?_ ?_ ?_ <;> simp
  · exact r.ring _ (r.keeps.setRing_same _ rfl rfl rfl rfl rfl)
  · exact r

theorem Runs.resumeRing (r : Runs s₀ s) : Runs s₀ (resumeRing s) := by
  have cleared := r.ring { s.ring with pendingTrig := false } (r.keeps.setRing_same _ rfl rfl rfl rfl rfl)
  have dwelt := fun st units => cleared.other (cleared.keeps.beginDwell st units) rfl rfl
  unfold Machine.resumeRing
  split
  · unfold Machine.resumeHeld
    simp only []
    split
    · exact .ite (dwelt _ _).stageNext (dwelt _ _)
    · exact cleared.ring _ (cleared.keeps.setRing_same _ rfl rfl rfl rfl rfl)
  · exact r.ring _ (r.keeps.setRing_same _ rfl rfl rfl rfl rfl)
  · exact r

theorem Runs.stopRing (r : Runs s₀ s) : Runs s₀ (stopRing s) := by
  unfold Machine.stopRing
  split
  · exact r
  · exact r.ring _ (r.keeps.setRing_same _ rfl rfl rfl rfl rfl)
  · refine Runs.endStaging (r.ring _ ?_) _
    exact r.keeps.setRing_same _ rfl rfl rfl rfl rfl

/-- The engine after the ring's request to end staging (R110). -/
def endedStaging (empty : Bool) (g : Engine) : Engine :=
  let g := { g with holder := if empty then none else g.holder }
  if g.mode = .staging then
    if g.active = [] then { g with mode := .idle, staging := stagingReset }
    else { g with staging := { quitStaging g.staging with discard := g.staging.discard || empty } }
  else g

theorem endStaging_eq (empty : Bool) (s : State) : (endStaging empty s).engine = endedStaging empty s.engine := by
  unfold endStaging endedStaging
  by_cases staging : s.engine.mode = .staging
  · by_cases still : s.engine.active = []
    · cases empty <;> simp [staging, still, stagingOver, setMode]
    · cases empty <;> simp [staging, still, quitStaging]
  · cases empty <;> simp [staging]

theorem endStaging_setRing (empty : Bool) (v : Ring) (s : State) :
    (endStaging empty (s.setRing v)).engine = (endStaging empty s).engine := by
  rw [endStaging_eq, endStaging_eq]
  rfl

theorem Runs.editStep (r : Runs s₀ s) {i : Nat} {l : Table StepRec} (keeps : Keeps s₀ (afterStepEdit i (setSteps l s))) :
    Runs s₀ (afterStepEdit i (setSteps l s)) := by
  have ended : (afterStepEdit i (setSteps l s)).engine = s.engine
      ∨ (afterStepEdit i (setSteps l s)).engine = (Machine.endStaging true s).engine := by
    unfold afterStepEdit
    split
    · split
      · exact .inr (endStaging_setRing true _ s)
      · exact .inl rfl
    · split
      · exact .inr (endStaging_setRing true _ s)
      · exact .inl rfl
    · split <;> exact .inl rfl
    · split <;> exact .inl rfl
    · exact .inl rfl
  rcases ended with same | same
  · exact r.other keeps (by simp [beside]) same
  · exact (r.endStaging true).other keeps (by simp [beside]) same

/-! #### Every row -/

theorem Keeps.trans {u : State} (a : Keeps s t) (b : Keeps t u) : Keeps s u :=
  ⟨fun h => b.ring (a.ring h), fun h => b.link (a.link h), fun h => b.tables (a.tables h),
    fun h safe => b.budget (a.tables h) (a.budget h safe), fun f h => b.fault f (a.fault f h)⟩

/-- Every row but the resets and FCLEAR keeps what `Keeps` says. -/
theorem acts_keeps {i : Instr} {v : State} (h : Acts i s v) (noReset : resets i s = false) (noClear : ∀ plus, i ≠ .fclear plus) :
    Keeps s v :=
  acts_preserve (P := Keeps s) h (Keeps.refl s) (fun _ _ k p => p.trans k) (fun _ r => by rw [noReset] at r; contradiction)
    (fun is => by rw [is] at noReset; contradiction) fun plus is => absurd is (noClear plus)

/-- Every row but the resets and FCLEAR keeps the laws of drives, mute and the applied set. -/
theorem acts_runs {i : Instr} {v : State} (h : Acts i s v) (noReset : resets i s = false) (noClear : ∀ plus, i ≠ .fclear plus) :
    Runs s v := by
  have keeps := acts_keeps h noReset noClear
  have r := Runs.refl s
  induction h with
  | replies o h ih => exact (ih noReset noClear (acts_keeps h noReset noClear) r).placeReply o
  | beginReset c s h => rw [h] at noReset; contradiction
  | startUp s h => simp [resets] at noReset
  | clearFault plus s => exact absurd rfl (noClear plus)
  | defineElem plus e kind n card slot pulse settle guard life x s engaged busy => exact r.defineElem x engaged busy
  | deleteElem plus e s engaged busy => exact r.deleteElem engaged busy
  | setRefs plus e n slot x refs s at_e =>
    refine r.engine keeps ?_ (fun _ => pulsesAt_congr (by simp)) (by simp; exact .refl _ _)
    unfold parts
    congr 1
    funext f
    rw [elemAt_setElem]
    split
    · rename_i here; rw [here, at_e]; rfl
    · rfl
  | requestGo plus ids s => exact r.requestGo plus ids
  | muteSeen s m => exact .followUp _ (r.muteUp.startBreak (.inr ⟨m, rfl⟩))
  | muteUp s => exact r.muteUp
  | muteDown s => exact r.muteAckLost
  | muteTimeout s m => exact r.muteTimeout m
  | noAnswer s => exact r.noAnswer
  | pulseEnds e s => exact r.pulseEnds e
  | settleEnds e s => exact r.settleEnds e
  | senseReturns got s => exact r.senseReturns got
  | retryEnds e s => exact r.retryEnds e
  | halt plus s => exact r.haltEngine
  | survey plus s idle =>
    refine .ite r (r.setEngine _ (.land (by simp [Flying]) rfl rfl id (fun u held => ⟨u, held, .refl _, .refl _⟩)
      (fun _ l => .inr (l.none (.inl idle))) id))
  | defineStep plus n dwell rep freq flags ids x s free => exact r.editStep keeps
  | deleteStep plus n s free => exact r.editStep keeps
  | startRun plus n s range => exact r.startRun plus range
  | dwellEnds s => exact .followUp _ r.dwellEnds.continueEntry
  | trigger s => exact .followUp _ r.takeTrigger.continueEntry
  | trig plus s => exact r.trigTaken plus
  | hold plus s => exact r.holdRing
  | resume plus s => exact r.resumeRing
  | stop plus s => exact r.stopRing
  | polled good oc s => exact r.pollDone _
  | beginRestart plus n s => exact r.beginRestart n
  | restartAcked n s => exact (r.setTx none).setRestart n _
  | restartWaited n s => exact r.setRestart n _
  | restartPolled good oc n s => exact (r.setTx none).restartPolled n _
  | ackCard plus n s => exact r.setCard_same n _ rfl
  | ackCards plus s =>
    refine r.engine keeps rfl (fun tables => ?_) (.refl _ _)
    obtain ⟨-, -, -, -, wf, -⟩ := tables
    funext n
    rw [pulsesAt, cardAt, State.setCards_cards, bget_bmap cardReset ackCard rfl wf]
    rfl
  | foundAbsent n s => exact r.foundAbsent n
  | beginAdmission plus n s => exact r.beginAdmission n
  | identityRead n b0 b1 b2 b3 s => exact r.identityRead n b0 b1 b2 b3
  | supplyDown n s => exact Runs.watchSupply (r.other (r.keeps.setFixture n _) rfl rfl) n
  | toBench plus n s => exact r.toBench n
  | loopOpens n s => exact r.loopOpens n
  | clearElem plus e s =>
    have cleared := r.updElem e (fun x => if x.faulted then { x with faulted := false, pos := none } else x)
      fun x => by split <;> exact ⟨rfl, rfl⟩
    unfold clearElem
    simp only []
    split
    · exact .ite (cleared.aside _ rfl rfl rfl rfl rfl rfl rfl) cleared
    · exact cleared
  | _ => exact r.other keeps (by simp [beside]) (by simp)

/-! #### Every step -/

theorem Runs.taken {u : State} (r : Runs s₀ s) (h : Taken s u) : Runs s₀ u :=
  r.other (r.keeps.taken h) (by rw [h.1]; rfl) (by rw [h.1]; rfl)

theorem drivesSafe_of_reset (engine : s.engine = engineReset) (cards : s.cards = []) : DrivesSafe s := by
  have pulses : ∀ n, pulsesAt s n = 0 := fun n => by unfold pulsesAt cardAt; rw [cards]; rfl
  refine drivesSafe_iff.2 (driveLaw_still (by rw [engine]; rfl) pulses (by rw [engine]; exact List.nodup_nil) (fun u held => ?_)
    (by rw [engine]; rfl))
  rw [engine] at held
  contradiction

theorem muteSafe_of_reset (engine : s.engine = engineReset) : MuteSafe s := fun u held => by
  rw [engine] at held
  contradiction

theorem appliedSafe_of_reset (engine : s.engine = engineReset) : AppliedSafe s := by
  rw [AppliedSafe, engine]
  exact ⟨List.Pairwise.nil, fun u _ held => by contradiction⟩

/-- A state that a reset or FCLEAR leaves. -/
def Fresh (s u : State) : Prop :=
  (TablesSafe s → TablesSafe u) ∧ ((u.engine = engineReset ∧ u.cards = []) ∨ ∃ r, u = s.setRecords r)

/-- A row is lawful, from a fresh state when it resets the part or clears the fault record. -/
theorem acts_cases {i : Instr} {v : State} (h : Acts i s v) : Runs s v ∨ ∃ u, Fresh s u ∧ Runs u v := by
  by_cases plain : resets i s = false ∧ ∀ plus, i ≠ .fclear plus
  · exact .inl (acts_runs h plain.1 plain.2)
  have k := Keeps.refl s
  have r := Runs.refl s
  induction h with
  | replies o h ih =>
    rcases ih plain k r with runs | ⟨u, fresh, runs⟩
    · exact .inl (runs.placeReply o)
    · exact .inr ⟨u, fresh, runs.placeReply o⟩
  | beginReset c s =>
    exact .inr ⟨_, ⟨tablesSafe_beginReset c, .inl ⟨beginReset_engine c s, beginReset_cards c s⟩⟩, .refl _⟩
  | startUp s => exact .inr ⟨_, ⟨tablesSafe_startUp, .inl ⟨startUp_engine s, startUp_cards s⟩⟩, .refl _⟩
  | clearFault plus s => exact .inr ⟨s.setRecords { s.records with fault := none, more := 0 }, ⟨id, .inr ⟨_, rfl⟩⟩, .refl _⟩
  | nothing i s => exact .inl r
  | holds x s => exact .inl (r.other (k.setLink_same _ rfl rfl) rfl rfl)
  | noticeSent s n => exact .inl (r.other (k.setLink_same _ rfl rfl) rfl rfl)
  | replySent s => exact .inl (r.other (k.setLink_same _ rfl rfl) rfl rfl)
  | setSite x s => exact .inl (r.other (k.setSite x) rfl rfl)
  | setReleased l s => exact .inl (r.other (k.setNet _ id id) rfl rfl)
  | setLocked b s => exact .inl (r.other (k.setNet _ id id) rfl rfl)
  | defineRoute n src dst hops found s => exact .inl (r.other (k.setRoute n _) (by simp [beside]) (by simp))
  | _ => exact absurd ⟨rfl, fun _ is => by contradiction⟩ plain

/-- An invariant that follows `Runs`, that holds after a reset and that does not read the records survives every step. -/
theorem step_runs {P : State → Prop} (follows : ∀ s t, Runs s t → P s → P t)
    (fresh : ∀ s t, t.engine = engineReset → t.cards = [] → (TablesSafe s → TablesSafe t) → P s → P t)
    (clear : ∀ (s : State) (r : Records), (TablesSafe s → TablesSafe (s.setRecords r)) → P s → P (s.setRecords r))
    {s t : State} (safe : P s) (h : step s = .next t) : P t := by
  refine step_keeps (P := P) (fun s l => follows _ _ ((Runs.refl s).other ((Keeps.refl s).setPending l) rfl rfl))
    (fun s u taken => follows _ _ ((Runs.refl s).taken taken)) (fun i s v act safe => ?_)
    (fun s => follows _ _ (Runs.refl s).settle) safe h
  rcases acts_cases act with runs | ⟨u, ⟨tables, ⟨engine, cards⟩ | ⟨r, rfl⟩⟩, runs⟩
  · exact follows _ _ runs safe
  · exact follows _ _ runs (fresh s u engine cards tables safe)
  · exact follows _ _ runs (clear s r tables safe)

/-- Settles O54: the pulse budget by `step_budgetSafe`; and each operation moves the drives in progress with the counts of
their cards (`Runs`). -/
theorem stepsKeepTheDriveBudget : Obligations.StepsKeepTheDriveBudget :=
  ⟨fun _ _ => step_budgetSafe, fun _ _ tables safe h =>
    (step_runs (P := fun s => TablesSafe s ∧ DrivesSafe s) (fun _ _ r p => ⟨r.keeps.tables p.1, r.drives p.1 p.2⟩)
      (fun _ _ engine cards tables p => ⟨tables p.1, drivesSafe_of_reset engine cards⟩)
      (fun _ _ tables p => ⟨tables p.1, p.2⟩) ⟨tables, safe⟩ h).2⟩

/-- Settles O57: in BREAK and MAKE no operation adds an EM drive while MUTE_ACK is away, and its loss stops the transition. -/
theorem stepsKeepTheMuteLaw : Obligations.StepsKeepTheMuteLaw := fun _ _ safe h =>
  step_runs (P := MuteSafe) (fun _ _ r => r.mute) (fun _ _ engine _ _ _ => muteSafe_of_reset engine) (fun _ _ _ => id) safe h

theorem step_appliedSafe {s t : State} (safe : AppliedSafe s) (h : step s = .next t) : AppliedSafe t :=
  step_runs (P := AppliedSafe) (fun _ _ r => r.applied) (fun _ _ engine _ _ _ => appliedSafe_of_reset engine)
    (fun _ _ _ => id) safe h

/-! #### The state at reset -/

theorem appliedLaws_of_reset (engine : s.engine = engineReset) : AppliedLaws s := by
  unfold AppliedLaws Compatible
  rw [engine]
  exact ⟨List.Pairwise.nil, ⟨Nat.zero_le 8, fun r mem => absurd mem List.not_mem_nil⟩,
    fun _ r mem => absurd mem List.not_mem_nil⟩

theorem groupLaw_of_reset (ring : s.ring = ringReset) : GroupLaw s := by
  unfold GroupLaw
  rw [ring]
  exact ⟨fun m => by rcases m with m | m <;> contradiction, fun m => by contradiction⟩

/-- Settles O60, each invariant by its lemma about states with the engine and the ring as at reset. -/
theorem resetMeetsTheInvariants : Obligations.ResetMeetsTheInvariants := by
  refine ⟨⟨ringSafe_of_reset rfl, linkSafe_of_reset rfl, budgetSafe_of_reset rfl, drivesSafe_of_reset rfl rfl, ?_,
    appliedSafe_of_reset rfl, ⟨appliedLaws_of_reset rfl, groupLaw_of_reset rfl, ?_, ?_⟩, ?_, muteSafe_of_reset rfl⟩, ?_⟩
  · unfold TablesSafe; decide
  · unfold RequestsSafe
    refine ⟨fun q mem => absurd mem List.not_mem_nil, fun q mem => absurd mem List.not_mem_nil,
      fun q held => by contradiction, fun held => by contradiction, fun m => ?_, rfl, fun _ _ a held => by contradiction,
      fun n busy => ?_⟩
    · rcases m with m | m <;> contradiction
    · rcases busy with busy | busy | busy
      · exact absurd rfl busy
      · contradiction
      · contradiction
  · intro flight; exact absurd flight (by decide)
  · exact ⟨fun l mem => absurd mem List.not_mem_nil, List.Pairwise.nil⟩
  · exact ⟨by decide, by decide, by decide, by decide, by decide, fun n => rfl⟩

end Sys2Proof.StepLaws

/-! ### What follows at once after an event (O4), and the front of the queue (O1) -/

namespace Sys2Proof.StepLaws

open Sys2Proof.Machine Sys2Proof.Laws

variable {s t : State}

/-- Settles O1: `step` is `exec` of the front command on the state with the rest of the queue. -/
theorem stepTakesTheFrontCommand : Obligations.StepTakesTheFrontCommand := by
  intro c rest s
  constructor <;> intro h <;> simp [step, h]

/-! #### What handing on the bus changes -/

/-- Elements, cards, wear entries and the drives in progress, when a DRIVE is issued to the element `driven`, or none. -/
structure Moved (driven : Option Nat) (s t : State) : Prop where
  elems : ∀ e x, elemAt s e = some x → elemAt t e = some { x with pos := if driven = some e then none else x.pos }
  undefined : ∀ e, elemAt s e = none → elemAt t e = none
  cards : ∀ n, cardAt t n = { cardAt s n with pulses := (cardAt t n).pulses, restart := (cardAt t n).restart }
  pulse : ∀ e x, driven = some e → elemAt s e = some x → isEm x.kind = true →
    (cardAt t x.card).pulses = (cardAt s x.card).pulses + 1
  pulses : ∀ n, (∀ e x, driven = some e → elemAt s e = some x → isEm x.kind = true → x.card ≠ n) →
    (cardAt t n).pulses = (cardAt s n).pulses
  wear : ∀ e, driven ≠ some e → wearAt t e = wearAt s e
  active : t.engine.active.map (fun d => d.elem) = s.engine.active.map (fun d => d.elem) ++ driven.toList

/-- The engine's lists lose members and nothing else of it changes, but for the drives in progress. -/
structure Thinned (g h : Engine) : Prop where
  rest : h = { g with trans := h.trans, active := h.active, due := h.due, staging := h.staging, survey := h.survey }
  none : g.trans = none → h.trans = none
  trans : ∀ r, g.trans = some r → ∃ b m l,
    h.trans = some { r with brkTodo := b, makTodo := m, lastEm := l } ∧ b.Sublist r.brkTodo ∧ m.Sublist r.makTodo
  due : h.due.Sublist g.due
  staging : h.staging = { g.staging with todo := h.staging.todo }
  staged : h.staging.todo.Sublist g.staging.todo
  survey : h.survey = { g.survey with todo := h.survey.todo, current := h.survey.current }
  surveyed : h.survey.todo.Sublist g.survey.todo

theorem Moved.still (elems : t.net.elems = s.net.elems) (pulses : ∀ n, (cardAt t n).pulses = (cardAt s n).pulses)
    (cards : ∀ n, cardAt t n = { cardAt s n with restart := (cardAt t n).restart }) (wear : t.records.wear = s.records.wear)
    (active : t.engine.active.map (fun d => d.elem) = s.engine.active.map fun d => d.elem) : Moved none s t := by
  refine ⟨fun e x h => ?_, fun e h => ?_, fun n => ?_, fun e x is => by contradiction, fun n _ => pulses n, fun e _ => ?_,
    by rw [active]; simp⟩
  · rw [elemAt, elems]; exact h
  · rw [elemAt, elems]; exact h
  · rw [pulses n]; exact cards n
  · rw [wearAt, wear]; rfl

theorem Thinned.refl (g : Engine) : Thinned g g :=
  ⟨rfl, id, fun _ h => ⟨_, _, _, h, .refl _, .refl _⟩, .refl _, rfl, .refl _, rfl, .refl _⟩

/-- A card's record written with another pulse count or restart stage, which no unlisted card has. -/
theorem cardAt_setCard_busy (n m : Nat) (c : Card) (busy : c ≠ cardReset) :
    cardAt (setCard n c s) m = if m = n then c else cardAt s m := by
  unfold cardAt setCard
  rw [State.setCards_cards, bget, bput, if_neg busy, tget_tput]
  split <;> rfl

theorem wearAt_countDrive (e f : Nat) : wearAt (countDrive e s) f = if f = e then countedWear e s else wearAt s f := by
  have counted : countedWear e s ≠ wearZero := fun zero => by
    have : oneMore (wearAt s e).count = 0 := congrArg Wear.count zero
    unfold oneMore at this
    split at this <;> omega
  rw [wearAt, countDrive_records, countedRecords, bget, bput, if_neg counted, tget_tput]
  split <;> rfl

theorem pulseBegun_cards (e : Nat) (x : Elem) (s : State) (n : Nat) : cardAt (pulseBegun e x s) n =
    if isEm x.kind = true ∧ n = x.card then { cardAt s n with pulses := (cardAt s n).pulses + 1 } else cardAt s n := by
  have lastEm : cardAt (pulseBegun e x s) n =
      cardAt (if isEm x.kind then setPulses x.card (fun p => p + 1) s else s) n := by
    unfold pulseBegun cardAt
    simp only []
    split <;> split <;> simp
  rw [lastEm]
  by_cases em : isEm x.kind = true
  · rw [if_pos em, setPulses, cardAt_setCard_busy _ _ _ fun zero => by simpa [cardReset] using congrArg Card.pulses zero]
    by_cases here : n = x.card
    · simp [here, em]
    · simp [here]
  · simp [em]

theorem cardAt_issueDrive (e target : Nat) (x : Elem) (s : State) (n : Nat) : cardAt (issueDrive e target x s) n =
    if isEm x.kind = true ∧ n = x.card then { cardAt s n with pulses := (cardAt s n).pulses + 1 } else cardAt s n := by
  have counted : cardAt (issueDrive e target x s) n = cardAt (pulseBegun e x (driveBegun e target x s)) n := by
    rw [issueDrive_eq, cardAt, cardAt]; simp
  have begun : cardAt (driveBegun e target x s) n = cardAt s n := rfl
  rw [counted, pulseBegun_cards, begun]

theorem wearAt_issueDrive (e target : Nat) (x : Elem) (s : State) {f : Nat} (other : f ≠ e) :
    wearAt (issueDrive e target x s) f = wearAt s f := by
  rw [issueDrive_eq, wearAt_countDrive, if_neg other]
  simp [wearAt, driveBegun]

theorem moved_issueDrive {e target : Nat} {x : Elem} (at_e : elemAt s e = some x) : Moved (some e) s (issueDrive e target x s) := by
  refine ⟨fun f y at_f => ?_, fun f none => ?_, fun n => ?_, fun f y is at_f em => ?_, fun n other => ?_, fun f other => ?_, ?_⟩
  · rw [elemAt_issueDrive]
    by_cases here : f = e
    · subst here
      rw [at_e] at at_f
      cases at_f
      simp
    · simp [here, Ne.symm here, at_f]
  · rw [elemAt_issueDrive, if_neg fun here => by rw [here, at_e] at none; contradiction, none]
  · rw [cardAt_issueDrive]
    split <;> rfl
  · cases is
    rw [at_e] at at_f
    cases at_f
    rw [cardAt_issueDrive, if_pos ⟨em, rfl⟩]
  · rw [cardAt_issueDrive, if_neg fun here => other e x rfl at_e here.1 here.2.symm]
  · exact wearAt_issueDrive e target x s fun here => other (here ▸ rfl)
  · rw [issueDrive_active, List.map_append]
    rfl

theorem thinned_takeWaiting (e : Nat) (s : State) : Thinned s.engine (takeWaiting e s).engine := by
  have mapped (f : Trans → Trans) (less : ∀ t, ∃ b m, f t = { t with brkTodo := b, makTodo := m } ∧ b.Sublist t.brkTodo
      ∧ m.Sublist t.makTodo) : Thinned s.engine (updTrans f s).engine := by
    rw [updTrans_eq]
    refine ⟨rfl, fun none => by simp [none], fun r h => ?_, .refl _, rfl, .refl _, rfl, .refl _⟩
    obtain ⟨b, m, is, brk, mak⟩ := less r
    exact ⟨b, m, r.lastEm, by simp [h, is], brk, mak⟩
  unfold takeWaiting
  split
  · exact mapped _ fun t => ⟨_, _, rfl, List.erase_sublist, .refl _⟩
  · exact mapped _ fun t => ⟨_, _, rfl, .refl _, List.filter_sublist⟩
  · exact ⟨rfl, id, fun r h => ⟨_, _, _, h, .refl _, .refl _⟩, .refl _, rfl, List.filter_sublist, rfl, .refl _⟩
  · exact .refl _

theorem thinned_issueDrive (e target : Nat) (x : Elem) (s : State) : Thinned s.engine (issueDrive e target x s).engine := by
  rw [issueDrive_engine]
  refine ⟨rfl, fun none => by simp [lastEmTrans, none], fun r h => ?_, .refl _, rfl, .refl _, rfl, .refl _⟩
  unfold lastEmTrans
  rw [h]
  split
  · exact ⟨_, _, _, rfl, .refl _, .refl _⟩
  · exact ⟨r.brkTodo, r.makTodo, r.lastEm, rfl, .refl _, .refl _⟩

theorem Thinned.trans' {g h k : Engine} (a : Thinned g h) (b : Thinned h k) : Thinned g k := by
  refine ⟨?_, fun none => b.none (a.none none), fun r held => ?_, b.due.trans a.due, ?_, b.staged.trans a.staged, ?_,
    b.surveyed.trans a.surveyed⟩
  · rw [b.rest, a.rest]
  · obtain ⟨b₁, m₁, l₁, h₁, brk₁, mak₁⟩ := a.trans r held
    obtain ⟨b₂, m₂, l₂, h₂, brk₂, mak₂⟩ := b.trans _ h₁
    exact ⟨b₂, m₂, l₂, h₂, brk₂.trans brk₁, mak₂.trans mak₁⟩
  · rw [b.staging, a.staging]
  · rw [b.survey, a.survey]

theorem moved_restartIssues (n : Nat) (s : State) : Moved none s (restartIssues n s) := by
  have written (c : Card) (tx : Option BusTx) (pulses : c.pulses = (cardAt s n).pulses) (busy : c ≠ cardReset)
      (same : c = { cardAt s n with restart := c.restart }) : Moved none s (setTx tx (setCard n c s)) := by
    have at_m (m : Nat) : cardAt (setTx tx (setCard n c s)) m = if m = n then c else cardAt s m := cardAt_setCard_busy n m c busy
    refine .still rfl (fun m => ?_) (fun m => ?_) rfl rfl
    · rw [at_m]; split
      · rename_i here; rw [here, pulses]
      · rfl
    · rw [at_m]; split
      · rename_i here; rw [here]; exact same
      · rfl
  unfold restartIssues
  simp only []
  split
  · exact written _ _ rfl (fun zero => by simpa [cardReset] using congrArg Card.restart zero) rfl
  · exact written _ _ rfl (fun zero => by simpa [cardReset] using congrArg Card.restart zero) rfl

theorem issueSense_facts (e : Nat) (l : List Nat) (s : State) : (issueSense e l s).net = s.net ∧ (issueSense e l s).cards = s.cards
    ∧ (issueSense e l s).records = s.records ∧ (issueSense e l s).engine.active.map (fun d => d.elem) = s.engine.active.map (fun d => d.elem)
    ∧ (issueSense e l s).engine = { s.engine with due := l, active := (issueSense e l s).engine.active } := by
  refine ⟨by simp, by simp, by simp, ?_, ?_⟩
  all_goals
    unfold issueSense
    simp only []
    split
  · exact atStage_elems ..
  all_goals rfl

/-- Handing on the bus issues at most one DRIVE. -/
theorem grantBus_moved (s : State) : (∃ driven, Moved driven s (grantBus s)) ∧ Thinned s.engine (grantBus s).engine := by
  have plain {t : State} (elems : t.net = s.net) (cards : t.cards = s.cards) (records : t.records = s.records)
      (active : t.engine.active.map (fun d => d.elem) = s.engine.active.map fun d => d.elem) : ∃ driven, Moved driven s t :=
    have at_n (n : Nat) : cardAt t n = cardAt s n := by rw [cardAt, cards]; rfl
    ⟨none, .still (by rw [elems]) (fun n => by rw [at_n]) (fun n => by rw [at_n]) (by rw [records]) active⟩
  rcases grantBus_cases s with same | issued | ⟨n, same⟩ | ⟨n, same⟩ | ⟨n, same⟩
  · rw [same]; exact ⟨plain rfl rfl rfl rfl, .refl _⟩
  · rcases engineIssues_cases issued with ⟨e, l, due, eq⟩ | ⟨e, target, x, waits, may, at_e, -, eq⟩
      | ⟨e, l, x, -, -, todo, -, -, eq⟩ <;> rw [eq]
    · obtain ⟨net, cards, records, active, engine⟩ := issueSense_facts e l s
      refine ⟨plain net cards records active, ?_⟩
      rw [engine]
      exact ⟨rfl, id, fun r h => ⟨_, _, _, h, .refl _, .refl _⟩, due ▸ List.sublist_cons_self _ _, rfl, .refl _, rfl, .refl _⟩
    · have taken : elemAt (takeWaiting e s) e = some x := by simpa [elemAt] using at_e
      obtain ⟨elems, undefined, cards, pulse, pulses, wear, active⟩ := moved_issueDrive (target := target) taken
      have elemsSame (f : Nat) : elemAt (takeWaiting e s) f = elemAt s f := by simp [elemAt]
      have cardsSame (n : Nat) : cardAt (takeWaiting e s) n = cardAt s n := cardAt_takeWaiting e n s
      have wearSame (f : Nat) : wearAt (takeWaiting e s) f = wearAt s f := by simp [wearAt]
      have activeSame : (takeWaiting e s).engine.active = s.engine.active := by simp
      simp only [elemsSame, cardsSame, wearSame, activeSame] at elems undefined cards pulse pulses wear active
      exact ⟨⟨some e, elems, undefined, cards, pulse, pulses, wear, active⟩, (thinned_takeWaiting e s).trans' (thinned_issueDrive ..)⟩
    · refine ⟨plain rfl rfl rfl rfl, ?_⟩
      exact ⟨rfl, id, fun r h => ⟨_, _, _, h, .refl _, .refl _⟩, .refl _, rfl, .refl _, rfl, todo ▸ List.sublist_cons_self _ _⟩
  · rw [same]
    refine ⟨⟨none, moved_restartIssues n s⟩, ?_⟩
    rw [show (restartIssues n s).engine = s.engine from by simp]
    exact .refl _
  · rw [same]; exact ⟨plain rfl rfl rfl rfl, .refl _⟩
  · rw [same]
    refine ⟨plain (by simp) (by simp) (by simp) (by simp), ?_⟩
    rw [show (roundIssues n s).engine = s.engine from by simp]
    exact .refl _

/-! #### Which transaction a free bus is given -/

theorem grantBus_busy (h : ¬(s.bus.tx = none ∧ s.phase ≠ .inReset)) : grantBus s = s := by
  unfold grantBus
  rw [if_pos]
  cases held : s.bus.tx with
  | some x => rfl
  | none => simpa [held] using h

theorem grantBus_engine (free : s.bus.tx = none ∧ s.phase ≠ .inReset) (issued : engineIssues s = some t) : grantBus s = t := by
  simp [grantBus, free, issued]

theorem grantBus_restart {n : Nat} (free : s.bus.tx = none ∧ s.phase ≠ .inReset) (nothing : engineIssues s = none)
    (wants : restartWants s = some n) : grantBus s = restartIssues n s := by
  simp [grantBus, free, nothing, wants]

theorem grantBus_discovery {k : Nat} (free : s.bus.tx = none ∧ s.phase ≠ .inReset) (nothing : engineIssues s = none)
    (quiet : restartWants s = none) (discovery : s.bus.discovery = some k) :
    grantBus s = setTx (some (.pollDiscovery k)) s := by
  simp [grantBus, free, nothing, quiet, discovery]

theorem grantBus_round {k : Nat} (free : s.bus.tx = none ∧ s.phase ≠ .inReset) (nothing : engineIssues s = none)
    (quiet : restartWants s = none) (discovery : s.bus.discovery = none) (round : s.bus.round = some k) :
    grantBus s = roundIssues k s := by
  simp [grantBus, free, nothing, quiet, discovery, round]

theorem grantBus_nothing (free : s.bus.tx = none ∧ s.phase ≠ .inReset) (nothing : engineIssues s = none)
    (quiet : restartWants s = none) (discovery : s.bus.discovery = none) (round : s.bus.round = none) : grantBus s = s := by
  simp [grantBus, free, nothing, quiet, discovery, round]

theorem engineIssues_due {e : Nat} {l : List Nat} (due : s.engine.due = e :: l) : engineIssues s = some (issueSense e l s) := by
  simp [engineIssues, due]

theorem engineIssues_drive {p : Nat × Nat} {x : Elem} (due : s.engine.due = [])
    (first : FirstWith (fun p => mayIssue s p.1 = true) (waitingDrives s) p) (at_p : elemAt s p.1 = some x) :
    engineIssues s = some (issueDrive p.1 p.2 x (takeWaiting p.1 s)) := by
  obtain ⟨before, after, is, refused, may⟩ := first
  have found : (waitingDrives s).find? (fun p => mayIssue s p.1) = some p :=
    List.find?_eq_some_iff_append.2 ⟨may, before, after, is, fun q h => by simpa using refused q h⟩
  simp [engineIssues, due, found, at_p]

theorem waitingDrives_refused (drives : ∀ p ∈ waitingDrives s, mayIssue s p.1 = false) :
    (waitingDrives s).find? (fun p => mayIssue s p.1) = none :=
  List.find?_eq_none.2 fun p h => by simp [drives p h]

theorem engineIssues_survey {e : Nat} {l : List Nat} {x : Elem} (due : s.engine.due = [])
    (drives : ∀ p ∈ waitingDrives s, mayIssue s p.1 = false) (mode : s.engine.mode = .survey)
    (current : s.engine.survey.current = none) (todo : s.engine.survey.todo = e :: l) (at_e : elemAt s e = some x) :
    engineIssues s = some (issueSurveySense e l x s) := by
  simp [engineIssues, due, waitingDrives_refused drives, mode, current, todo, at_e]

theorem engineIssues_engineless (due : s.engine.due = []) (drives : ∀ p ∈ waitingDrives s, mayIssue s p.1 = false)
    (survey : ¬(s.engine.mode = .survey ∧ s.engine.survey.current = none ∧ s.engine.survey.todo ≠ [])) :
    engineIssues s = none := by
  cases issued : engineIssues s with
  | none => rfl
  | some u =>
    rcases engineIssues_cases issued with ⟨e, l, is, -⟩ | ⟨e, target, x, waits, may, -⟩ | ⟨e, l, x, mode, current, todo, -⟩
    · rw [due] at is; contradiction
    · rw [drives _ waits] at may; contradiction
    · exact absurd ⟨mode, current, by simp [todo]⟩ survey

theorem restartWants_first {n : Nat} (le : n ≤ 11)
    (asks : (cardAt s n).restart = some .wantRestart ∨ (cardAt s n).restart = some .wantPoll)
    (first : ∀ m, m < n → ¬((cardAt s m).restart = some .wantRestart ∨ (cardAt s m).restart = some .wantPoll)) :
    restartWants s = some n := by
  rw [restartWants, List.find?_range_eq_some]
  refine ⟨by simpa using asks, by simp [Config.cards]; omega, fun m lt => by simpa using first m lt⟩

theorem restartWants_none
    (h : ∀ n, n ≤ 11 → ¬((cardAt s n).restart = some .wantRestart ∨ (cardAt s n).restart = some .wantPoll)) :
    restartWants s = none :=
  List.find?_eq_none.2 fun n lt => by
    simpa using h n (by simp [Config.cards] at lt; omega)

theorem queueLost_link (s : State) : queueLost s = s.setLink (queueLost s).link := by
  unfold queueLost
  split <;> rfl

theorem startLine_link (s : State) : startLine s = s.setLink (startLine s).link := by
  unfold startLine
  simp only []
  (repeat' split) <;> rfl

theorem releaseSync_link (s : State) : releaseSync s = s.setLink (releaseSync s).link := by
  unfold releaseSync
  split
  · rw [(answer_spec _ _ _).1]; rfl
  · rfl

/-- Of all that follows at once, handing on the bus alone changes more than the link. -/
theorem settle_link (s : State) : ∃ l, settle s = (grantBus s).setLink l := by
  unfold settle
  rw [queueLost_link (startLine _), startLine_link (queueLost _), queueLost_link (releaseSync _), releaseSync_link]
  exact ⟨_, rfl⟩

/-- Settles O4, from what one grant of the bus changes and one lemma for each claimant of a free bus. -/
theorem settlingMovesBusAndLinkOnly : Obligations.SettlingMovesBusAndLinkOnly := by
  intro s
  obtain ⟨⟨driven, moved⟩, thinned⟩ := grantBus_moved s
  have elemsSame (e : Nat) : elemAt (settle s) e = elemAt (grantBus s) e := by simp [elemAt, settle]
  have cardsSame (n : Nat) : cardAt (settle s) n = cardAt (grantBus s) n := by simp [cardAt, settle]
  have wearSame (e : Nat) : wearAt (settle s) e = wearAt (grantBus s) e := by rw [wearAt, settle_records]; rfl
  refine ⟨by simp, by simp, ⟨driven, ?_⟩, ?_, by simp, by simp, fun quiet => ?_, ?_, ?_⟩
  · simp only [elemsSame, cardsSame, wearSame, settle_engine]
    exact ⟨moved.elems, moved.undefined, moved.cards, moved.pulse, moved.pulses, moved.wear, moved.active⟩
  · rw [settle_engine]
    exact ⟨thinned.rest, thinned.none, thinned.trans, thinned.due, thinned.staging, thinned.staged, thinned.survey,
      thinned.surveyed⟩
  · obtain ⟨l, is⟩ := settle_link s
    rw [is, quiet]
    rfl
  · refine ⟨grantBus_busy, fun e l free due => grantBus_engine free (engineIssues_due due),
      fun p x free due first at_p => grantBus_engine free (engineIssues_drive due first at_p),
      fun e l x free driveless mode current todo at_e => grantBus_engine free ?_, fun n free engineless le asks first => ?_,
      fun k free restartless discovery => ?_, fun k free restartless discovery round => ?_,
      fun free restartless discovery round => ?_⟩
    · exact engineIssues_survey driveless.1 driveless.2 mode current todo at_e
    · have wants := restartWants_first le asks first
      rw [grantBus_restart free (engineIssues_engineless engineless.1.1 engineless.1.2 engineless.2) wants]
      exact ⟨fun restart => by simp [restartIssues, restart], fun poll => by simp [restartIssues, poll]⟩
    all_goals
      obtain ⟨⟨⟨due, drives⟩, survey⟩, quiet⟩ := restartless
      have nothing := engineIssues_engineless due drives survey
      have quiet := restartWants_none quiet
    · exact grantBus_discovery free nothing quiet discovery
    · rw [grantBus_round free nothing quiet discovery round]
      exact ⟨fun j next => by simp [roundIssues, next], fun ended => by simp [roundIssues, ended]⟩
    · exact grantBus_nothing free nothing quiet discovery round
  · refine ⟨fun r mode held => ?_, fun r mode held => ?_, fun mode => ?_, fun _ _ _ => ?_⟩
    · exact ⟨by simp only [waitingDrives, mode, held] <;> rfl, fun e => by simp [takeWaiting, mode, updTrans, held]⟩
    · exact ⟨by simp [waitingDrives, mode, held], fun e => by simp [takeWaiting, mode, updTrans, held]⟩
    · exact ⟨by simp [waitingDrives, mode], fun e => by simp [takeWaiting, mode]⟩
    · unfold waitingDrives
      split <;> first | contradiction | rfl

end Sys2Proof.StepLaws

/-! ### The Net Table's commands (O13 to O18) -/

namespace Sys2Proof.StepLaws

open Sys2Proof.Machine Sys2Proof.Laws

variable {s t u : State}

/-! #### Commands that make checks in order -/

theorem checked_refused {checks : List (Bool × Reply)} {r : Reply} (plus : Bool) (effect : State → State)
    (h : firstRefusal checks = some r) : settle (checked plus checks effect u) = replied plus r u := by
  rw [checked, h]
  rfl

theorem checked_passes {checks : List (Bool × Reply)} (plus : Bool) (effect : State → State)
    (h : firstRefusal checks = none) : settle (checked plus checks effect u) = replied plus (ok []) (effect u) := by
  rw [checked, h]
  rfl

/-- A taken command whose checks find a refusal answers it. -/
theorem taken_refused {i : Instr} {plus : Bool} {checks : State → List (Bool × Reply)} {effect : State → State} {r : Reply}
    (taken : Takes i s u) (h : firstRefusal (checks u) = some r) :
    command i plus (fun s => checked plus (checks s) effect s) s = .next (replied plus r u) := by
  rw [command_of_takes taken, checked_refused plus effect h]

/-- A taken command that passes its checks has its effect and is answered OK. -/
theorem taken_passes {i : Instr} {plus : Bool} {checks : State → List (Bool × Reply)} {effect : State → State}
    (taken : Takes i s u) (h : firstRefusal (checks u) = none) :
    command i plus (fun s => checked plus (checks s) effect s) s = .next (replied plus (ok []) (effect u)) := by
  rw [command_of_takes taken, checked_passes plus effect h]

@[simp] theorem firstRefusal_nil : firstRefusal [] = none := rfl

@[simp] theorem firstRefusal_cons (fails : Bool) (r : Reply) (l : List (Bool × Reply)) :
    firstRefusal ((fails, r) :: l) = if fails then some r else firstRefusal l := rfl

/-- Settles O13: LOCKED and BUSY are the first checks of all six topology edits. -/
theorem topologyEditsAreGuarded : Obligations.TopologyEditsAreGuarded := by
  intro i plus s u edit taken
  have refused (checks : State → List (Bool × Reply)) (effect : State → State) (r : Reply)
      (is : exec i s = command i plus (fun s => checked plus (checks s) effect s) s) (h : firstRefusal (checks u) = some r) :
      exec i s = .next (replied plus r u) := is.trans (taken_refused taken h)
  cases i with
  | elem plus' e k n c sl pu st g li | elemdel plus' e =>
    obtain rfl : plus' = plus := by simpa [editPlus] using edit
    refine ⟨fun locked => ?_, fun unlocked engaged => ?_, fun f unlocked busy is => ?_⟩
    · exact refused _ _ _ rfl (by simp [elemOpen, locked])
    · exact refused _ _ _ rfl (by simp [elemOpen, unlocked, engaged])
    · have same : f = e := by rcases is with is | ⟨_, _, _, _, _, _, _, _, is⟩ <;> cases is <;> rfl
      exact refused _ _ _ rfl (by simp [elemOpen, unlocked, ← same, busy])
  | port plus' p cls fx | portdel plus' p | leg plus' a b | legCut plus' a =>
    obtain rfl : plus' = plus := by simpa [editPlus] using edit
    refine ⟨fun locked => ?_, fun unlocked engaged => ?_, fun f unlocked busy is => ?_⟩
    · exact refused _ _ _ rfl (by simp [editOpen, locked])
    · exact refused _ _ _ rfl (by simp [editOpen, unlocked, engaged])
    · rcases is with is | ⟨_, _, _, _, _, _, _, _, is⟩ <;> contradiction
  | _ => simp [editPlus] at edit

/-! #### Legs after a cut and a join -/

theorem partner_congr (h : t.net.legs = s.net.legs) (a : Terminal) : partner t a = partner s a := by
  unfold partner
  rw [h]

/-- A leg joined after the others is found where no other leg ends. -/
theorem partner_append {x y : Terminal} (h : t.net.legs = s.net.legs ++ [(x, y)]) (c : Terminal) :
    partner t c = match partner s c with
      | some d => some d
      | none => if x = c then some y else if y = c then some x else none := by
  unfold partner
  rw [h, List.find?_append]
  cases s.net.legs.find? fun l => l.1 == c || l.2 == c with
  | some l => rfl
  | none =>
    by_cases hx : x = c
    · simp [hx]
    · by_cases hy : y = c <;> simp [hx, hy]

/-- A leg between two other terminals is not cut. -/
theorem partner_cutLeg_other {a c : Terminal} (ne : c ≠ a) (far : partner s c ≠ some a) :
    partner (cutLeg a s) c = partner s c := by
  cases held : partner s c with
  | none =>
    rw [partner_eq_none] at held ⊢
    exact fun l mem => held l ((cutLeg_mem a s l).1 mem).1
  | some d =>
    rw [held] at far
    unfold partner at held ⊢
    rw [cutLeg, State.setNet_net]
    dsimp only
    rw [List.find?_filter]
    split at held
    · rename_i x y found
      obtain ⟨touches, before, after, is, rest⟩ := List.find?_eq_some_iff_append.1 found
      have kept : s.net.legs.find? (fun l => decide ((!(l.1 == a || l.2 == a)) = true ∧ (l.1 == c || l.2 == c) = true))
          = some (x, y) := by
        refine List.find?_eq_some_iff_append.2 ⟨?_, before, after, is, fun l mem => ?_⟩
        simp only [Bool.or_eq_true, beq_iff_eq] at touches
        have apart : x ≠ a ∧ y ≠ a := by
          by_cases hx : x = c
          · simp only [hx, if_pos] at held
            exact ⟨hx ▸ ne, fun hy => far (hy ▸ held.symm)⟩
          · simp only [hx, if_false] at held
            exact ⟨fun h => far (h ▸ held.symm), (touches.resolve_left hx) ▸ ne⟩
        · simp [apart, touches]
        · have misses := rest l mem
          simp only [Bool.not_eq_true', Bool.or_eq_false_iff] at misses
          simp [misses]
      rw [kept]
      exact held
    · contradiction

theorem partner_cutLeg_none {a c : Terminal} (alone : partner s c = none) : partner (cutLeg a s) c = none := by
  rw [partner_eq_none] at alone ⊢
  exact fun l mem => alone l ((cutLeg_mem a s l).1 mem).1

theorem leg_of_partner {a c : Terminal} (far : partner s a = some c) : (a, c) ∈ s.net.legs ∨ (c, a) ∈ s.net.legs := by
  unfold partner at far
  split at far
  · rename_i x y found
    have mem := List.mem_of_find?_eq_some found
    have touches := List.find?_some found
    simp only [Bool.or_eq_true, beq_iff_eq] at touches
    by_cases hx : x = a
    · rw [if_pos hx] at far
      cases far
      exact .inl (hx ▸ mem)
    · rw [if_neg hx] at far
      cases far
      exact .inr (touches.resolve_left hx ▸ mem)
  · contradiction

/-- With legs paired, two legs that share a terminal are one. -/
theorem legs_unique {l m : Terminal × Terminal} (safe : LegsSafe s) (hl : l ∈ s.net.legs) (hm : m ∈ s.net.legs)
    (shared : ¬Apart l m) : l = m := by
  have symm (l m : Terminal × Terminal) (h : Apart l m) : Apart m l := ⟨h.1.symm, h.2.2.1.symm, h.2.1.symm, h.2.2.2.symm⟩
  exact Classical.byContradiction fun ne => shared (pairwise_apart symm safe.2 hl hm ne)

/-- With legs paired, a leg has two ends that name each other. -/
theorem partner_symm {a c : Terminal} (safe : LegsSafe s) (far : partner s a = some c) : partner s c = some a := by
  have legs := leg_of_partner far
  cases held : partner s c with
  | none =>
    rw [partner_eq_none] at held
    rcases legs with mem | mem <;> simpa using held _ mem
  | some d =>
    rcases leg_of_partner held with there | there <;> rcases legs with mem | mem <;>
      have same := legs_unique safe there mem (by simp [Apart]) <;> simp_all

/-- With legs paired, a terminal whose leg is cut at its far end has none left. -/
theorem partner_cutLeg_far {a c : Terminal} (safe : LegsSafe s) (far : partner s c = some a) :
    partner (cutLeg a s) c = none := by
  rw [partner_eq_none]
  intro l cut
  obtain ⟨mem, a1, a2⟩ := (cutLeg_mem a s l).1 cut
  constructor <;> intro here <;> rcases leg_of_partner far with leg | leg <;>
    have same := legs_unique safe mem leg (by simp [Apart, here]) <;> simp_all

theorem legsSafe_cutLeg (a : Terminal) (safe : LegsSafe s) : LegsSafe (cutLeg a s) :=
  legsSafe_sublist List.filter_sublist safe

theorem joinLeg_partner {a b : Terminal} (apart : a ≠ b) (s : State) (c : Terminal) : partner (joinLeg a b s) c =
    if c = a then some b else if c = b then some a else partner (cutLeg b (cutLeg a s)) c := by
  rw [partner_append (s := cutLeg b (cutLeg a s)) (joinLeg_legs a b s)]
  have at_a : partner (cutLeg b (cutLeg a s)) a = none := partner_cutLeg_none (partner_cutLeg_self a s)
  have at_b : partner (cutLeg b (cutLeg a s)) b = none := partner_cutLeg_self b _
  by_cases ha : c = a
  · subst ha; simp [at_a]
  · by_cases hb : c = b
    · subst hb; simp [at_b, ha, apart]
    · rw [if_neg ha, if_neg hb, if_neg (Ne.symm ha), if_neg (Ne.symm hb)]
      cases partner (cutLeg b (cutLeg a s)) c <;> rfl

theorem removeLeg_some {a c : Terminal} (far : partner s a = some c) :
    removeLeg a s = noticeOfEdit { elems := [], ports := [], terms := [a, c] } (cutLeg a s) := by
  rw [removeLeg, far]

theorem removeLeg_none {a : Terminal} (far : partner s a = none) : removeLeg a s = s := by
  rw [removeLeg, far]

/-- Settles O16, from what a cut and a join leave at every terminal. -/
theorem legEditsJoinAndCut : Obligations.LegEditsJoinAndCut := by
  intro plus a b s u unlocked free
  refine ⟨fun taken => ⟨fun undef => ?_, fun known above => ?_, fun known low same => ?_, fun known low apart used => ?_,
    fun known low apart unused => ?_⟩, fun taken => ⟨fun undef => ?_, fun known above => ?_, fun known low used => ?_,
    fun known low unused => ⟨fun alone => ?_, fun c far => ?_⟩⟩⟩
  · exact taken_refused taken (by simp [editOpen, unlocked, free, undef])
  · exact taken_refused taken (by simp [editOpen, unlocked, free, known, above])
  · exact taken_refused taken (by simp [editOpen, unlocked, free, known, low, same])
  · exact taken_refused taken (by simp [editOpen, unlocked, free, known, low, apart, used])
  · have ne : a ≠ b := fun same => by simp [sameTerminal, same] at apart
    refine ⟨joinLeg a b u, taken_passes taken (by simp [editOpen, unlocked, free, known, low, apart, unused]), ?_, ?_,
      fun c ca cb fa fb => ?_, fun safe c ca cb far => ?_, rfl, rfl⟩
    · rw [joinLeg_partner ne, if_pos rfl]
    · rw [joinLeg_partner ne, if_neg ne.symm, if_pos rfl]
    · have cutA := partner_cutLeg_other ca fa
      rw [joinLeg_partner ne, if_neg ca, if_neg cb, partner_cutLeg_other cb (cutA ▸ fb), cutA]
    · rw [joinLeg_partner ne, if_neg ca, if_neg cb]
      by_cases fa : partner u c = some a
      · exact partner_cutLeg_none (partner_cutLeg_far safe fa)
      · have fb := far.resolve_left fa
        exact partner_cutLeg_far (legsSafe_cutLeg a safe) ((partner_cutLeg_other ca fa).trans fb)
  · exact taken_refused taken (by simp [editOpen, unlocked, free, undef])
  · exact taken_refused taken (by simp [editOpen, unlocked, free, known, above])
  · exact taken_refused taken (by simp [editOpen, unlocked, free, known, low, used])
  · have passes : exec (.legCut plus a) s = .next (replied plus (ok []) (removeLeg a u)) :=
      taken_passes taken (by simp [editOpen, unlocked, free, known, low, unused])
    rw [passes, removeLeg_none alone]
  · refine ⟨_, taken_passes taken (by simp [editOpen, unlocked, free, known, low, unused]), ?_⟩
    rw [removeLeg_some far]
    exact ⟨partner_cutLeg_self a u, fun safe => partner_cutLeg_far safe (partner_symm safe far), fun d da fd => partner_cutLeg_other da fd, rfl, rfl⟩

/-! #### The notice of edit -/

theorem editReaches_iff (n : Edit) (x : Route) : editReaches n x = true ↔
    (∃ h ∈ x.hops, h.elem ∈ n.elems) ∨ x.src ∈ n.ports ∨ x.dst ∈ n.ports
    ∨ ∃ a ∈ n.terms, a = .port x.src ∨ a = .port x.dst
        ∨ ∃ h ∈ x.hops, a = .common h.elem ∨ a = .throw h.elem h.pos := by
  have elems : n.elems.any (claimsElem x) = true ↔ ∃ h ∈ x.hops, h.elem ∈ n.elems := by
    simp only [claimsElem, List.any_eq_true, beq_iff_eq]
    exact ⟨fun ⟨e, mem, h, hop, is⟩ => ⟨h, hop, is ▸ mem⟩, fun ⟨h, hop, mem⟩ => ⟨_, mem, h, hop, rfl⟩⟩
  have ports : n.ports.any (endsAt x) = true ↔ x.src ∈ n.ports ∨ x.dst ∈ n.ports := by
    simp only [endsAt, List.any_eq_true, Bool.or_eq_true, beq_iff_eq]
    constructor
    · rintro ⟨p, mem, is | is⟩
      · exact .inl (is ▸ mem)
      · exact .inr (is ▸ mem)
    · rintro (mem | mem)
      · exact ⟨_, mem, .inl rfl⟩
      · exact ⟨_, mem, .inr rfl⟩
  have terms (a : Terminal) : (traversed x).contains a = true ↔ a = .port x.src ∨ a = .port x.dst
      ∨ ∃ h ∈ x.hops, a = .common h.elem ∨ a = .throw h.elem h.pos := by
    simp [traversed]
  simp only [editReaches, Bool.or_eq_true, elems, ports, List.any_eq_true, terms, or_assoc]

/-- Settles O17, route by route. -/
theorem editsMakeReadyRoutesStale : Obligations.EditsMakeReadyRoutesStale := by
  intro n s r
  refine ⟨rfl, fun absent => by simp [routeAt_noticeOfEdit, absent], fun x at_r => ⟨fun ready reached => ?_, fun unmet => ?_⟩⟩
  · have reached := (editReaches_iff n x).2 reached
    simp [routeAt_noticeOfEdit, at_r, ready, reached]
  · have unmet : ¬(x.state = .ready ∧ editReaches n x = true) := fun h => unmet ⟨h.1, (editReaches_iff n x).1 h.2⟩
    simp [routeAt_noticeOfEdit, at_r, unmet]

/-! #### Ports -/

theorem definePort_new {p : Nat} {cls : PortClass} {fx : Option Nat} (free : portAt s p = none) :
    definePort p cls fx s = s.setNet { s.net with ports := tput s.net.ports p { cls := cls, fixture := fx, cable := none } } := by
  rw [definePort, free]

theorem definePort_again {p : Nat} {cls : PortClass} {fx : Option Nat} {q : PortRec} (held : portAt s p = some q) :
    definePort p cls fx s = noticeOfEdit { elems := [], ports := [p], terms := [] }
      (s.setNet { s.net with ports := tput s.net.ports p { cls := cls, fixture := fx, cable := q.cable } }) := by
  rw [definePort, held]

/-- Settles O15. -/
theorem portEditsWriteOnePort : Obligations.PortEditsWriteOnePort := by
  intro plus p s u unlocked free
  refine ⟨fun cls fx taken => ⟨fun bound => ?_, fun unbound used => ?_, fun unbound unused => ?_⟩,
    fun taken => ⟨fun undef => ?_, fun known used => ?_, fun known unused wf safe => ?_⟩⟩
  · exact taken_refused taken (by simp [editOpen, unlocked, free, bound])
  · exact taken_refused taken (by simp [editOpen, unlocked, free, unbound, used])
  · refine ⟨definePort p cls fx u, taken_passes taken (by simp [editOpen, unlocked, free, unbound, unused]), ?_⟩
    cases held : portAt u p with
    | none =>
      rw [definePort_new held]
      exact ⟨tget_tput_same _ _ _, fun q ne => tget_tput_other _ _ _ _ ne, fun _ => rfl, fun h => absurd rfl h, rfl⟩
    | some q =>
      rw [definePort_again held]
      exact ⟨tget_tput_same _ _ _, fun q ne => tget_tput_other _ _ _ _ ne, fun h => by contradiction, fun _ => rfl, rfl⟩
  · exact taken_refused taken (by simp [editOpen, unlocked, free, undef])
  · exact taken_refused taken (by simp [editOpen, unlocked, free, known, used])
  · refine ⟨deletePort p u, taken_passes taken (by simp [editOpen, unlocked, free, known, unused]), ?_⟩
    have cut (c : Terminal) : partner (deletePort p u) c = partner (cutLeg (.port p) u) c := partner_congr rfl c
    refine ⟨tget_tdel_same _ wf, fun q ne => tget_tdel_other _ _ _ ne, ?_, fun b far => ?_, fun a ne far => ?_, rfl, rfl⟩
    · rw [cut, partner_cutLeg_self]
    · rw [cut, partner_cutLeg_far safe (partner_symm safe far)]
    · rw [cut, partner_cutLeg_other ne far]

/-! #### Curve references, the release set and the topology lock -/

/-- Settles O18, command by command. -/
theorem netCommandsChangeOneThing : Obligations.NetCommandsChangeOneThing := by
  intro plus e k slot s u
  refine ⟨fun taken => ?_, fun taken => ?_, fun taken => ?_, fun taken => ?_, fun taken => ?_, fun taken => ?_⟩
  · have done : exec (.ecal plus e k slot) s = _ := command_of_takes taken plus _
    rw [done]
    refine ⟨fun undef => by rw [undef]; rfl, fun x held => ⟨fun above => ?_, fun le => ?_⟩⟩
    · rw [held]
      dsimp only
      rw [if_neg (by omega)]
      rfl
    · rw [held]
      dsimp only
      rw [if_pos le]
      rfl
  · have done : exec (.pcal plus e slot) s = _ := command_of_takes taken plus _
    rw [done]
    exact ⟨fun undef => by rw [undef]; rfl, fun q held => by rw [held]; rfl⟩
  · have done : exec (.rel plus e) s = _ := command_of_takes taken plus _
    rw [done]
    refine ⟨fun undef => by rw [undef]; rfl, fun x held => ⟨fun plain => ?_, fun guarded => ?_⟩⟩
    · rw [held]
      dsimp only
      rw [plain]
      rfl
    · rw [held]
      dsimp only
      rw [guarded]
      rfl
  · refine ⟨fun undef => ?_, fun known used => ?_, fun known unused => ?_⟩
    · exact taken_refused taken (by simp [undef])
    · have used : appliedClaims u e = true ∨ targetClaims u e = true := by simpa using used
      exact taken_refused taken (by simp [known, used])
    · have unused : appliedClaims u e = false ∧ targetClaims u e = false := by simpa using unused
      exact taken_passes taken (by simp [known, unused])
  · exact command_of_takes taken plus _
  · have done : exec (.unlock plus) s = _ := command_of_takes taken plus _
    rw [done]
    refine ⟨fun locked oneway => ?_, fun may => ?_⟩
    · rw [if_pos (by simp [locked, oneway])]
      rfl
    · rw [if_neg (by rcases may with h | h <;> simp [h])]
      rfl

/-! #### Element edits -/

theorem setNet_legs_all {keep : Terminal × Terminal → Bool} (all : ∀ l, keep l = true) (s : State) :
    s.setNet { s.net with legs := s.net.legs.filter keep } = s := by
  rw [List.filter_eq_self.2 fun l _ => all l]
  rfl

theorem cutLegs_eq (l : List Terminal) (s : State) : cutLegs l s =
    s.setNet { s.net with legs := s.net.legs.filter fun x => !l.contains x.1 && !l.contains x.2 } := by
  induction l generalizing s with
  | nil => exact (setNet_legs_all (fun _ => rfl) s).symm
  | cons a l ih =>
    show cutLegs l (cutLeg a s) = _
    rw [ih]
    simp only [cutLeg, State.setNet_net, List.filter_filter]
    have same : (fun x : Terminal × Terminal => (!l.contains x.1 && !l.contains x.2) && !(x.1 == a || x.2 == a))
        = fun x => !(a :: l).contains x.1 && !(a :: l).contains x.2 := by
      funext x
      by_cases h1 : x.1 = a <;> by_cases h2 : x.2 = a <;> simp [h1, h2, Bool.and_comm]
    rw [same]
    rfl

theorem opEnded_link (o : Op) (h : s.link = t.link) : (opEnded o s).link = (opEnded o t).link := by
  unfold opEnded
  rw [h]
  split
  · rfl
  · exact h

theorem opEnded_eq (o : Op) (h : t.link = s.link) : opEnded o t = t.setLink (opEnded o s).link := by
  rw [← opEnded_link o h, opEnded_spec]
  rfl

theorem passOver_congr {l : List Nat} (elems : ∀ f ∈ l, elemAt t f = elemAt s f) (cards : t.cards = s.cards) :
    passOver t l = passOver s l := by
  induction l with
  | nil => rfl
  | cons f l ih =>
    have rest := ih fun g mem => elems g (List.mem_cons_of_mem _ mem)
    have enabled (n : Nat) : cardEnabled t n = cardEnabled s n := by rw [cardEnabled, cardAt, cards]; rfl
    simp only [passOver, elems f List.mem_cons_self, rest, enabled]

/-- What the engine looked at leaves, outside CHECK and a transition and with no DROP held: staging or a survey with
nothing left ends, and a survey passes over what cannot be sensed. -/
theorem advanceAll_unengaged {v : State} {sensible : List Nat} (free : engineEngaged s = false)
    (drop : s.engine.dropHeld = false) (link : s.link = v.link) (passed : passOver s s.engine.survey.todo = sensible) :
    let stagingEnds : Bool := s.engine.mode == .staging && s.engine.active.isEmpty && s.engine.staging.todo.isEmpty
    let surveyEnds : Bool := s.engine.mode == .survey && s.engine.survey.current.isNone && sensible.isEmpty
    advanceAll s = (s.setEngine { s.engine with
        mode := if stagingEnds || surveyEnds then .idle else s.engine.mode
        staging := if stagingEnds then stagingReset else s.engine.staging
        survey := if surveyEnds then surveyReset else { s.engine.survey with
          todo := if s.engine.mode = .survey ∧ s.engine.survey.current = none then sensible else s.engine.survey.todo } }).setLink
      (if stagingEnds then (opEnded .staging v).link else if surveyEnds then (opEnded .survey v).link else v.link) := by
  intro stagingEnds surveyEnds
  rw [← link]
  have ended (o : Op) (g : Engine) : opEnded o (s.setEngine g) = (s.setEngine g).setLink (opEnded o v).link :=
    opEnded_eq o link
  have nothing {v : State} (h : v.engine.dropHeld = false) : followUp rounds (v, .nothing) = v :=
    followUp_nothing fun held => by rw [h] at held; contradiction
  have engaged : s.engine.mode ≠ .check ∧ s.engine.mode ≠ .muting ∧ s.engine.mode ≠ .breaking ∧ s.engine.mode ≠ .making := by
    refine ⟨fun m => ?_, fun m => ?_, fun m => ?_, fun m => ?_⟩ <;> simp [engineEngaged, inFlight, m] at free
  have otherwise (m : s.engine.mode ≠ .survey) : ¬(s.engine.mode = .survey ∧ s.engine.survey.current = none) := fun h => m h.1
  cases mode : s.engine.mode with
  | idle =>
    have noStaging : stagingEnds = false := by simp [stagingEnds, mode]
    have noSurvey : surveyEnds = false := by simp [surveyEnds, mode]
    rw [noStaging, noSurvey, advanceAll, advance_still (.inl mode), nothing drop]
    simp only [← mode]
    rw [if_neg (otherwise (by simp [mode]))]
    rfl
  | staging =>
    have noSurvey : surveyEnds = false := by simp [surveyEnds, mode]
    rw [noSurvey]
    simp only [← mode]
    rw [if_neg (otherwise (by simp [mode]))]
    by_cases ends : (s.engine.active.isEmpty && s.engine.staging.todo.isEmpty) = true
    · have is : advance s = (setMode .idle (stagingOver s), .nothing) := by
        unfold advance
        rw [mode]
        exact if_pos ends
      have yes : stagingEnds = true := by simpa [stagingEnds, mode] using ends
      rw [yes, advanceAll, is, nothing (by simp [drop]), stagingOver, ended]
      rfl
    · have is : advance s = (s, .nothing) := by
        unfold advance
        rw [mode]
        exact if_neg ends
      have no : stagingEnds = false := by simpa [stagingEnds, mode] using ends
      rw [no, advanceAll, is, nothing drop]
      rfl
  | survey =>
    have noStaging : stagingEnds = false := by simp [stagingEnds, mode]
    have is : advance s = (surveyAdvance s, .nothing) := by simp [advance, mode]
    rw [noStaging, advanceAll, is, nothing (by simp [drop]), surveyAdvance]
    dsimp only
    rw [passed]
    by_cases ends : (s.engine.survey.current.isNone && sensible.isEmpty) = true
    · have yes : surveyEnds = true := by simpa [surveyEnds, mode] using ends
      rw [if_pos ends, yes, ended]
      rfl
    · have no : surveyEnds = false := by simpa [surveyEnds, mode] using ends
      rw [if_neg ends, no]
      cases current : s.engine.survey.current with
      | none => simp [mode]
      | some f => simp [mode]
  | check => exact absurd mode engaged.1
  | muting => exact absurd mode engaged.2.1
  | breaking => exact absurd mode engaged.2.2.1
  | making => exact absurd mode engaged.2.2.2

/-- The terminals an element has before it is edited (R27, R28). -/
def goneTerminals (e : Nat) (s : State) : List Terminal := match elemAt s e with | some x => elemTerminals e x.n | none => []

theorem dropElemUse_eq (e : Nat) (s : State) : dropElemUse e s = s.setNet { s.net with
    legs := s.net.legs.filter fun l => !(goneTerminals e s).contains l.1 && !(goneTerminals e s).contains l.2
    released := if elemAt s e = none then s.net.released else s.net.released.erase e } := by
  unfold dropElemUse goneTerminals
  cases elemAt s e with
  | none => exact (setNet_legs_all (fun _ => rfl) s).symm
  | some x => dsimp only; rw [cutLegs_eq]; rfl

theorem elemEdit_eq (e : Nat) (same : t.routes = s.routes) : elemEdit s e t = t.setRoutes (if elemAt s e = none then s.routes
    else (noticeOfEdit { elems := [e], ports := [], terms := legEnds s (goneTerminals e s) } s).routes) := by
  unfold elemEdit goneTerminals
  cases elemAt s e with
  | none => rw [if_pos rfl, ← same]; rfl
  | some x => simp only [noticeOfEdit, same]; rfl

/-- The state an edit of element `e` leaves, before the engine is looked at. -/
def elemEdited (e : Nat) (elems : Table Elem) (s : State) : State :=
  elemEdit s e (forgetElem e ((dropElemUse e s).setNet { (dropElemUse e s).net with elems := elems }))

theorem defineElem_eq (e : Nat) (x : Elem) (s : State) :
    defineElem e x s = advanceAll (elemEdited e (tput s.net.elems e x) s) := by
  have same : (dropElemUse e s).net.elems = s.net.elems := by rw [dropElemUse_eq]; rfl
  rw [elemEdited, ← same]
  rfl

theorem deleteElem_eq (e : Nat) (s : State) : deleteElem e s = advanceAll (elemEdited e (tdel s.net.elems e) s) := by
  have same : (dropElemUse e s).net.elems = s.net.elems := by rw [dropElemUse_eq]; rfl
  rw [elemEdited, ← same]
  rfl

theorem elemEdited_eq (e : Nat) (elems : Table Elem) (s : State) : elemEdited e elems s =
    ((s.setNet { s.net with
        elems := elems
        legs := s.net.legs.filter fun l => !(goneTerminals e s).contains l.1 && !(goneTerminals e s).contains l.2
        released := if elemAt s e = none then s.net.released else s.net.released.erase e }).setRoutes
      (if elemAt s e = none then s.routes
        else (noticeOfEdit { elems := [e], ports := [], terms := legEnds s (goneTerminals e s) } s).routes)).setEngine
      (forgetElem e s).engine := by
  rw [elemEdited, elemEdit_eq e (by rw [dropElemUse_eq]; rfl), dropElemUse_eq]
  rfl

/-- Settles O14: the edit's own effect, and then the engine looked at. -/
theorem elemEditsDefineAndRemove : Obligations.ElemEditsDefineAndRemove := by
  intro plus e s u unlocked free idle gone legs released routes g todo list sensible stagingEnds surveyEnds engine link edited
  have left (elems : Table Elem) (same : ∀ f, f ≠ e → tget elems f = elemAt u f) (drop : u.engine.dropHeld = false) :
      advanceAll (elemEdited e elems u) = edited elems := by
    have passed : passOver (elemEdited e elems u) list = sensible := by
      rw [elemEdited_eq]
      refine passOver_congr (fun f mem => same f fun is => ?_) rfl
      rw [is] at mem
      simp [list] at mem
    rw [elemEdited_eq] at passed ⊢
    exact advanceAll_unengaged (v := u) free drop rfl passed
  refine ⟨?_, fun taken => ⟨fun undef => ?_, fun known used => ?_, fun known unused drop => ?_⟩⟩
  · intro kind n card slot pulse st guard life i taken
    refine ⟨fun mismatch => ?_, fun fits held => ?_, fun fits unheld used => ?_, fun fits unheld unused drop => ?_⟩
    · exact taken_refused taken (by simp [elemOpen, unlocked, free, idle, mismatch])
    · exact taken_refused taken (by simp [elemOpen, unlocked, free, idle, fits, held])
    · exact taken_refused taken (by simp [elemOpen, unlocked, free, idle, fits, unheld, used])
    · refine (taken_passes taken (by simp [elemOpen, unlocked, free, idle, fits, unheld, unused])).trans ?_
      rw [defineElem_eq, left _ (fun f ne => tget_tput_other _ _ _ _ ne) drop]
      rfl
  · exact taken_refused taken (by simp [elemOpen, unlocked, free, idle, undef])
  · exact taken_refused taken (by simp [elemOpen, unlocked, free, idle, known, used])
  · refine (taken_passes taken (by simp [elemOpen, unlocked, free, idle, known, unused])).trans ?_
    rw [deleteElem_eq, left _ (fun f ne => tget_tdel_other _ _ _ ne) drop]

end Sys2Proof.StepLaws

/-! ### Losses, the walk and the Route Table's commands (O21 to O24, O26) -/

namespace Sys2Proof.StepLaws

open Sys2Proof.Machine Sys2Proof.Laws

variable {s t u : State}

/-! #### The sum of contributors -/

theorem foldl_add_value (l : List Contributor) (a : Int) :
    l.foldl (fun a c => a + c.value) a = a + (l.map fun c => c.value).sum := by
  induction l generalizing a with
  | nil => simp
  | cons c l ih => rw [List.foldl_cons, ih, List.map_cons, List.sum_cons, Int.add_assoc]

/-- Settles O21. -/
theorem lossIsTheHeldSum : Obligations.LossIsTheHeldSum := by
  intro l
  refine ⟨fun ⟨c, mem, isOpen⟩ => ?_, fun closed => ?_⟩
  · rw [combine, if_pos (List.any_eq_true.2 ⟨c, mem, isOpen⟩)]
  · intro sum
    have none : l.any (fun c => c.isOpen) = false := List.any_eq_false.2 fun c mem => by simp [closed c mem]
    have total : l.foldl (fun a c => a + c.value) 0 = sum := by rw [foldl_add_value, Int.zero_add]
    have held : (if sum > 12000 then (12000 : Int) else if sum < -2000 then -2000 else sum) = max (-2000) (min 12000 sum) := by
      split
      · omega
      · split <;> omega
    have outside : (max (-2000) (min 12000 sum) != sum) = decide (sum < -2000 ∨ 12000 < sum) := by
      rw [Bool.eq_iff_iff]
      simp only [bne_iff_ne, decide_eq_true_eq]
      omega
    simp [combine, none, total, held, outside]

theorem combine_cases (l : List Contributor) : combine l = .openPath
    ∨ ∃ v nocal edge sat, combine l = .value v nocal edge sat ∧ -2000 ≤ v ∧ v ≤ 12000 := by
  by_cases isOpen : ∃ c ∈ l, c.isOpen = true
  · exact .inl ((lossIsTheHeldSum l).1 isOpen)
  · have closed : ∀ c ∈ l, c.isOpen = false := fun c mem => by
      simpa using fun h => isOpen ⟨c, mem, h⟩
    exact .inr ⟨_, _, _, _, (lossIsTheHeldSum l).2 closed, by omega, by omega⟩

/-! #### The spread of a group -/

theorem mem_numericValues (l : List (Nat × Option LossResult)) (v : Int) :
    v ∈ numericValues l ↔ ∃ r nocal edge sat, (r, some (.value v nocal edge sat)) ∈ l := by
  induction l with
  | nil => simp [numericValues]
  | cons p l ih =>
    obtain ⟨r, result⟩ := p
    rcases result with _ | _ | ⟨w, nocal, edge, sat⟩
    · simp [numericValues, ih]
    · simp [numericValues, ih]
    · simp only [numericValues, List.mem_cons, ih]
      constructor
      · rintro (rfl | ⟨q, n, e, x, mem⟩)
        · exact ⟨r, nocal, edge, sat, .inl rfl⟩
        · exact ⟨q, n, e, x, .inr mem⟩
      · rintro ⟨q, n, e, x, is | mem⟩
        · cases is; exact .inl rfl
        · exact .inr ⟨q, n, e, x, mem⟩

theorem foldl_max_spec (v : Int) (l : List Int) : l.foldl max v ∈ v :: l ∧ ∀ x ∈ v :: l, x ≤ l.foldl max v := by
  induction l generalizing v with
  | nil => simp
  | cons w l ih =>
    obtain ⟨mem, above⟩ := ih (max v w)
    have first := above _ List.mem_cons_self
    refine ⟨?_, fun x hx => ?_⟩
    · rcases List.mem_cons.1 mem with is | later
      · rw [List.foldl_cons, is]
        rcases show max v w = v ∨ max v w = w from by omega with h | h <;> simp [h]
      · exact List.mem_cons_of_mem _ (List.mem_cons_of_mem _ later)
    · rw [List.foldl_cons]
      rcases List.mem_cons.1 hx with rfl | hx
      · omega
      · rcases List.mem_cons.1 hx with rfl | hx
        · omega
        · exact above x (List.mem_cons_of_mem _ hx)

theorem foldl_min_spec (v : Int) (l : List Int) : l.foldl min v ∈ v :: l ∧ ∀ x ∈ v :: l, l.foldl min v ≤ x := by
  induction l generalizing v with
  | nil => simp
  | cons w l ih =>
    obtain ⟨mem, below⟩ := ih (min v w)
    have first := below _ List.mem_cons_self
    refine ⟨?_, fun x hx => ?_⟩
    · rcases List.mem_cons.1 mem with is | later
      · rw [List.foldl_cons, is]
        rcases show min v w = v ∨ min v w = w from by omega with h | h <;> simp [h]
      · exact List.mem_cons_of_mem _ (List.mem_cons_of_mem _ later)
    · rw [List.foldl_cons]
      rcases List.mem_cons.1 hx with rfl | hx
      · omega
      · rcases List.mem_cons.1 hx with rfl | hx
        · omega
        · exact below x (List.mem_cons_of_mem _ hx)

theorem spreadOf_cons {l : List (Nat × Option LossResult)} {v : Int} {vs : List Int} (h : numericValues l = v :: vs) :
    spreadOf l = (vs.foldl max v - vs.foldl min v).toNat := by
  rw [spreadOf, h]

theorem spreadOf_nil {l : List (Nat × Option LossResult)} (h : numericValues l = []) : spreadOf l = 0 := by
  rw [spreadOf, h]

/-- The spread is attained, and no two values lie further apart. -/
theorem spreadOf_spec {l : List (Nat × Option LossResult)} (h : numericValues l ≠ []) :
    ∃ v ∈ numericValues l, ∃ w ∈ numericValues l,
      (spreadOf l : Int) = v - w ∧ ∀ x ∈ numericValues l, w ≤ x ∧ x ≤ v := by
  cases is : numericValues l with
  | nil => exact absurd is h
  | cons v vs =>
    obtain ⟨top, above⟩ := foldl_max_spec v vs
    obtain ⟨bottom, below⟩ := foldl_min_spec v vs
    refine ⟨_, top, _, bottom, ?_, fun x mem => ⟨below x mem, above x mem⟩⟩
    rw [spreadOf_cons is]
    have := below _ top
    omega

theorem groupResult_zero (s : State) (r : Nat) : groupResult s 0 r = (r, none) := rfl

theorem groupResult_nonzero {f : Nat} (h : f ≠ 0) (s : State) (r : Nat) :
    groupResult s f r = (r, (routeAt s r).map fun x => routeLoss s f x) := by
  rw [groupResult, if_neg h]
  cases routeAt s r <;> rfl

theorem groupResult_range {f r : Nat} {v : Int} {q : Nat} {nocal edge sat : Bool}
    (h : groupResult s f r = (q, some (.value v nocal edge sat))) : -2000 ≤ v ∧ v ≤ 12000 := by
  by_cases zero : f = 0
  · rw [zero, groupResult_zero] at h; cases h
  · rw [groupResult_nonzero zero] at h
    cases held : routeAt s r with
    | none => rw [held] at h; cases h
    | some x =>
      rw [held] at h
      have is : combine (contributors s f x) = .value v nocal edge sat := Option.some.inj (congrArg Prod.snd h)
      rcases combine_cases (contributors s f x) with o | ⟨w, _, _, _, eq, low, high⟩
      · rw [is] at o; cases o
      · rw [is] at eq; cases eq; exact ⟨low, high⟩

/-- Settles O22. -/
theorem spreadIsGreatestLessLeast : Obligations.SpreadIsGreatestLessLeast := by
  refine ⟨fun l => ⟨fun few => ?_, spreadOf_spec⟩, mem_numericValues, fun s st index pass number => ?_⟩
  · cases is : numericValues l with
    | nil => exact spreadOf_nil is
    | cons v vs =>
      rw [is] at few
      obtain rfl : vs = [] := List.length_eq_zero_iff.1 (by simp only [List.length_cons] at few; omega)
      rw [spreadOf_cons is]
      simp
  · intro p
    have results : p.results = st.group.map (groupResult s st.freq) := rfl
    have spread : p.spread = spreadOf p.results := rfl
    have range : ∀ v ∈ numericValues p.results, -2000 ≤ v ∧ v ≤ 12000 := fun v mem => by
      obtain ⟨q, n, e, x, mem⟩ := (mem_numericValues _ v).1 mem
      obtain ⟨r, -, is⟩ := List.mem_map.1 (results ▸ mem)
      exact groupResult_range is
    have bound : p.spread ≤ 14000 := by
      by_cases none : numericValues p.results = []
      · rw [spread, spreadOf_nil none]; omega
      · obtain ⟨v, hv, w, hw, is, -⟩ := spreadOf_spec none
        have := range v hv
        have := range w hw
        omega
    refine ⟨rfl, bound, ?_, ?_, fun zero => ?_, fun nonzero => ?_, rfl, rfl, rfl, rfl⟩
    · have : p.balance = (decide (s.site.balLimit > 0) && decide (s.site.balLimit < p.spread)) := rfl
      rw [this, Bool.and_eq_true, decide_eq_true_eq, decide_eq_true_eq]
    · have first : (fun x => x.1) ∘ groupResult s st.freq = id := by
        funext r
        unfold groupResult
        simp only [Function.comp, id]
        split
        · rfl
        · split <;> rfl
      rw [results, List.map_map, first, List.map_id]
    · have none : ∀ x ∈ p.results, x.2 = none := fun x mem => by
        obtain ⟨r, -, rfl⟩ := List.mem_map.1 (results ▸ mem)
        rw [zero, groupResult_zero]
      have empty : numericValues p.results = [] := List.eq_nil_iff_forall_not_mem.2 fun v mem => by
        obtain ⟨q, n, e, x, mem⟩ := (mem_numericValues _ v).1 mem
        exact absurd (none _ mem) (by simp)
      have flat : p.spread = 0 := by rw [spread, spreadOf_nil empty]
      refine ⟨flat, ?_, none⟩
      have : p.balance = (decide (s.site.balLimit > 0) && decide (s.site.balLimit < p.spread)) := rfl
      simp [this, flat]
    · rw [results]
      exact List.map_congr_left fun r _ => groupResult_nonzero nonzero s r

/-! #### LOSS, BAL and CURVE? -/

theorem couplerContributor_none {p : Nat} (h : portFixture s p = none) : couplerContributor s p = [] := by
  rw [couplerContributor, h]

theorem couplerContributor_admitted {p n k c : Nat} (h : portFixture s p = some n) (admitted : (fixtureAt s n).state = .admitted)
    (identity : (fixtureAt s n).identity = some (k, c)) : couplerContributor s p
      = [{ name := .fixt n, value := (c : Int), nocal := false, edge := false, isOpen := false }] := by
  simp [couplerContributor, h, admitted, identity]

theorem couplerContributor_open {p n : Nat} (h : portFixture s p = some n) (away : (fixtureAt s n).state ≠ .admitted) :
    couplerContributor s p = [{ name := .fixt n, value := 0, nocal := false, edge := false, isOpen := true }] := by
  unfold couplerContributor
  rw [h]
  dsimp only
  split
  · rename_i is _; exact absurd is away
  · rfl

theorem cableContributor_eq (s : State) (f p : Nat) :
    cableContributor s f p = curveContributor s f (.port p) ((portAt s p).bind fun q => q.cable) := by
  unfold cableContributor
  cases portAt s p <;> rfl

theorem hopContributor_eq (s : State) (f : Nat) (h : Hop) : hopContributor s f h = curveContributor s f (.hop h.elem h.pos)
    ((elemAt s h.elem).bind fun e => if h.pos ≤ e.n then tget e.refs h.pos else none) := by
  unfold hopContributor
  cases elemAt s h.elem <;> rfl

theorem lossRoute_some {r : Nat} {x : Route} (held : routeAt s r = some x) (kept : x.state ≠ .retiring) :
    lossRoute s r = some x := by
  simp [lossRoute, held, kept]

theorem lossRoute_none {r : Nat} (h : ∀ x, routeAt s r = some x → x.state = .retiring) : lossRoute s r = none := by
  unfold lossRoute
  split
  · rename_i x held; rw [if_pos (h x held)]
  · rfl

/-- Settles O23. -/
theorem lossCommandsAnswer : Obligations.LossCommandsAnswer := by
  refine ⟨fun s f x => ?_, fun plus r f s u => ⟨fun x held kept => ⟨fun taken => ?_, fun taken => ?_⟩,
    fun away => ⟨fun taken => ?_, fun taken => ?_⟩, fun taken => ?_, fun n taken => ?_, fun c taken => ?_⟩⟩
  · intro cable hop
    refine ⟨?_, rfl, fun p => ⟨couplerContributor_none, fun n fixture => ⟨fun k c admitted identity =>
      couplerContributor_admitted fixture admitted identity, couplerContributor_open fixture⟩⟩⟩
    have cables : cableContributor s f = cable := funext fun p => cableContributor_eq s f p
    have hops : hopContributor s f = hop := funext fun h => hopContributor_eq s f h
    rw [contributors, cables, hops]
  · refine (command_of_takes taken plus _).trans ?_
    rw [lossRoute_some held kept]
    rfl
  · refine (command_of_takes taken plus _).trans ?_
    rw [lossRoute_some held kept]
    rfl
  · refine (command_of_takes taken plus _).trans ?_
    rw [lossRoute_none away]
    rfl
  · refine (command_of_takes taken plus _).trans ?_
    rw [lossRoute_none away]
    rfl
  · exact command_of_takes taken plus _
  · refine (command_of_takes taken plus _).trans ?_
    have held : min n 6000 = if n ≤ 6000 then n else 6000 := rfl
    simp only [← held]
    rfl
  · refine ⟨fun undef => ?_, fun points held => ?_⟩
    · refine (command_of_takes taken plus _).trans ?_
      rw [undef]
      rfl
    · refine (command_of_takes taken plus _).trans ?_
      rw [held]
      rfl

/-! #### The walk -/

theorem enterHop_iff (b c : Terminal) (e k : Nat) (x : Hop) :
    enterHop b e k = some (x, c) ↔ b = entryOf x ∧ x.elem = e ∧ x.pos = k ∧ c = exitOf x := by
  obtain ⟨xe, xp, xc⟩ := x
  cases b with
  | port p => cases xc <;> simp [enterHop, entryOf]
  | common f =>
    cases xc
    · simp [enterHop, entryOf]
    · simp only [enterHop, entryOf, exitOf]
      constructor
      · intro h
        split at h
        · cases h; simp_all
        · contradiction
      · rintro ⟨h, rfl, rfl, rfl⟩
        simp_all
  | throw f j =>
    cases xc
    · simp only [enterHop, entryOf, exitOf]
      constructor
      · intro h
        split at h
        · cases h; simp_all
        · contradiction
      · rintro ⟨h, rfl, rfl, rfl⟩
        simp_all
    · simp [enterHop, entryOf]

/-- One hop of the walk: entered where the leg leads, or the walk fails there. -/
theorem walk_cons (s : State) (dst i : Nat) (a : Terminal) (h : Nat × Nat) (l : List (Nat × Nat)) :
    (∃ x : Hop, (x.elem, x.pos) = h ∧ partner s a = some (entryOf x) ∧ walk s dst i a (h :: l)
      = (walk s dst (i + 1) (exitOf x) l).map fun xs => x :: xs)
    ∨ (∀ x : Hop, (x.elem, x.pos) = h → partner s a ≠ some (entryOf x)) ∧ walk s dst i a (h :: l) = .error i := by
  cases entered : (partner s a).bind fun b => enterHop b h.1 h.2 with
  | none =>
    refine .inr ⟨fun x is far => ?_, by simp [walk, entered]⟩
    rw [far, Option.bind_some, (enterHop_iff _ (exitOf x) _ _ x).2 ⟨rfl, by rw [← is], by rw [← is], rfl⟩] at entered
    contradiction
  | some p =>
    obtain ⟨x, c⟩ := p
    obtain ⟨b, far, hop⟩ := Option.bind_eq_some_iff.1 entered
    obtain ⟨rfl, elem, pos, rfl⟩ := (enterHop_iff b c h.1 h.2 x).1 hop
    refine .inl ⟨x, by rw [elem, pos], far, ?_⟩
    rw [walk, entered]
    dsimp only
    cases walk s dst (i + 1) (exitOf x) l <;> rfl

theorem entryOf_inj {x y : Hop} (same : (x.elem, x.pos) = (y.elem, y.pos)) (h : entryOf x = entryOf y) : x = y := by
  obtain ⟨xe, xp, xc⟩ := x
  obtain ⟨ye, yp, yc⟩ := y
  cases same
  cases xc <;> cases yc <;> simp [entryOf] at h ⊢

theorem walk_ok_iff (s : State) (dst i : Nat) (a : Terminal) (hops : List (Nat × Nat)) (l : List Hop) :
    walk s dst i a hops = .ok l ↔ (l.map fun h => (h.elem, h.pos)) = hops ∧ Continuous s dst a l := by
  induction hops generalizing i a l with
  | nil =>
    simp only [walk, List.map_eq_nil_iff]
    constructor
    · intro h
      split at h
      · rename_i far; cases h; exact ⟨rfl, far⟩
      · contradiction
    · rintro ⟨rfl, far⟩
      exact if_pos far
  | cons h hops ih =>
    rcases walk_cons s dst i a h hops with ⟨x, is, far, eq⟩ | ⟨broken, eq⟩ <;> rw [eq]
    · constructor
      · intro done
        cases rest : walk s dst (i + 1) (exitOf x) hops with
        | error j => rw [rest] at done; contradiction
        | ok xs =>
          rw [rest] at done
          cases done
          obtain ⟨map, path⟩ := (ih (i + 1) (exitOf x) xs).1 rest
          exact ⟨by rw [List.map_cons, map, is], far, path⟩
      · rintro ⟨map, path⟩
        cases l with
        | nil => contradiction
        | cons y ys =>
          obtain ⟨there, rest⟩ := path
          obtain ⟨head, tail⟩ := List.cons.inj map
          obtain rfl : y = x := entryOf_inj (head.trans is.symm) (Option.some.inj (there.symm.trans far))
          rw [(ih (i + 1) (exitOf y) ys).2 ⟨tail, rest⟩]
          rfl
    · refine ⟨fun done => by contradiction, fun ⟨map, path⟩ => ?_⟩
      cases l with
      | nil => contradiction
      | cons y ys => exact absurd path.1 (broken y (List.cons.inj map).1)

theorem walk_error_iff (s : State) (dst i : Nat) (a : Terminal) (hops : List (Nat × Nat)) (j : Nat) :
    walk s dst i a hops = .error j ↔ i ≤ j ∧ j ≤ i + hops.length
      ∧ ∃ (l : List Hop) (b : Terminal), (l.map fun h => (h.elem, h.pos)) = hops.take (j - i) ∧ Connects s a l b
        ∧ (∀ h : Hop, hops[j - i]? = some (h.elem, h.pos) → partner s b ≠ some (entryOf h))
        ∧ (j = i + hops.length → partner s b ≠ some (.port dst)) := by
  induction hops generalizing i a with
  | nil =>
    simp only [walk, List.take_nil, List.map_eq_nil_iff, List.length_nil, Nat.add_zero]
    constructor
    · intro h
      split at h
      · contradiction
      · rename_i far
        cases h
        exact ⟨Nat.le_refl _, Nat.le_refl _, [], a, rfl, rfl, fun h is => by simp at is, fun _ => far⟩
    · rintro ⟨low, high, l, b, rfl, rfl, -, ends⟩
      obtain rfl : i = j := by omega
      rw [if_neg (ends rfl)]
  | cons h hops ih =>
    have next (x : Hop) (is : (x.elem, x.pos) = h) (far : partner s a = some (entryOf x)) : (∃ (l : List Hop) (b : Terminal),
          i < j ∧ (l.map fun h => (h.elem, h.pos)) = (h :: hops).take (j - i) ∧ Connects s a l b
          ∧ (∀ h' : Hop, (h :: hops)[j - i]? = some (h'.elem, h'.pos) → partner s b ≠ some (entryOf h'))
          ∧ (j = i + (h :: hops).length → partner s b ≠ some (.port dst)))
        ↔ i + 1 ≤ j ∧ ∃ (l : List Hop) (b : Terminal), (l.map fun h => (h.elem, h.pos)) = hops.take (j - (i + 1))
          ∧ Connects s (exitOf x) l b
          ∧ (∀ h : Hop, hops[j - (i + 1)]? = some (h.elem, h.pos) → partner s b ≠ some (entryOf h))
          ∧ (j = i + 1 + hops.length → partner s b ≠ some (.port dst)) := by
      constructor
      · rintro ⟨l, b, lt, map, path, stops, ends⟩
        obtain ⟨m, rfl⟩ : ∃ m, j = i + 1 + m := ⟨j - (i + 1), by omega⟩
        have less : i + 1 + m - i = m + 1 := by omega
        rw [less] at map stops
        cases l with
        | nil => contradiction
        | cons y ys =>
          obtain ⟨head, tail⟩ := List.cons.inj map
          obtain rfl : y = x := entryOf_inj (head.trans is.symm) (Option.some.inj (path.1.symm.trans far))
          refine ⟨by omega, ys, b, by rw [Nat.add_sub_cancel_left]; exact tail, path.2, fun h' at_m => ?_, fun last => ?_⟩
          · exact stops h' (by rw [Nat.add_sub_cancel_left] at at_m; exact at_m)
          · exact ends (by simp only [List.length_cons]; omega)
      · rintro ⟨le, l, b, map, path, stops, ends⟩
        obtain ⟨m, rfl⟩ : ∃ m, j = i + 1 + m := ⟨j - (i + 1), by omega⟩
        have less : i + 1 + m - i = m + 1 := by omega
        rw [Nat.add_sub_cancel_left] at map stops
        refine ⟨x :: l, b, by omega, ?_, ⟨far, path⟩, fun h' at_m => ?_, fun last => ?_⟩
        · rw [less, List.map_cons, map, is]; rfl
        · exact stops h' (by rw [less] at at_m; exact at_m)
        · exact ends (by simp only [List.length_cons] at last; omega)
    rcases walk_cons s dst i a h hops with ⟨x, is, far, eq⟩ | ⟨broken, eq⟩ <;> rw [eq]
    · have tail : (walk s dst (i + 1) (exitOf x) hops).map (fun xs => x :: xs) = .error j
          ↔ walk s dst (i + 1) (exitOf x) hops = .error j := by
        cases walk s dst (i + 1) (exitOf x) hops <;> simp [Except.map]
      rw [tail, ih]
      constructor
      · rintro ⟨low, high, rest⟩
        obtain ⟨l, b, -, rest⟩ := (next x is far).2 ⟨low, rest⟩
        exact ⟨by omega, by simp only [List.length_cons]; omega, l, b, rest⟩
      · rintro ⟨low, high, l, b, map, path, stops, ends⟩
        have lt : i < j := by
          rcases Nat.lt_or_eq_of_le low with lt | rfl
          · exact lt
          · rw [Nat.sub_self, List.take_zero, List.map_eq_nil_iff] at map
            subst map
            exact absurd (path ▸ far) (stops x (by simp [is]))
        obtain ⟨le, rest⟩ := (next x is far).1 ⟨l, b, lt, map, path, stops, ends⟩
        exact ⟨le, by simp only [List.length_cons] at high; omega, rest⟩
    · constructor
      · intro same
        cases same
        refine ⟨Nat.le_refl _, by omega, [], a, by simp, rfl, fun h' at_i => ?_, fun last => ?_⟩
        · exact broken h' (by simpa using at_i.symm)
        · simp at last
      · rintro ⟨low, high, l, b, map, path, stops, ends⟩
        rcases Nat.lt_or_eq_of_le low with lt | rfl
        · obtain ⟨m, rfl⟩ : ∃ m, j = i + 1 + m := ⟨j - (i + 1), by omega⟩
          have less : i + 1 + m - i = m + 1 := by omega
          rw [less] at map
          cases l with
          | nil => contradiction
          | cons y ys => exact absurd path.1 (broken y (List.cons.inj map).1)
        · rfl

/-- Settles O24. -/
theorem theWalkIsContinuity : Obligations.TheWalkIsContinuity := fun s dst i a hops =>
  ⟨walk_ok_iff s dst i a hops, walk_error_iff s dst i a hops⟩

/-! #### ROUTE, FIND and ROUTEDEL -/

theorem routeHeld_iff (s : State) (r : Nat) :
    routeHeld s r = true ↔ ∃ x, routeAt s r = some x ∧ (x.state = .applied ∨ x.state = .retiring) := by
  unfold routeHeld routeState
  cases routeAt s r <;> simp

theorem routePending_iff (s : State) (r : Nat) : routePending s r = true ↔ ∃ x, routeAt s r = some x ∧ x.pending = true := by
  unfold routePending
  cases routeAt s r <;> simp

theorem undefPort_src {src dst : Nat} (h : portAt s src = none) : undefPort s src dst = some (.port src) := by
  simp [undefPort, h]

theorem undefPort_dst {src dst : Nat} (h : portAt s src ≠ none) (k : portAt s dst = none) :
    undefPort s src dst = some (.port dst) := by
  simp [undefPort, h, k]

theorem undefPort_none {src dst : Nat} (h : portAt s src ≠ none) (k : portAt s dst ≠ none) : undefPort s src dst = none := by
  simp [undefPort, h, k]

/-- The first value of `f` over a list is that at the first member where it has one. -/
theorem firstSome_first {α β : Type} {f : α → Option β} {l : List α} {a : α} {b : β}
    (h : FirstWith (fun x => f x ≠ none) l a) (is : f a = some b) : firstSome f l = some b := by
  obtain ⟨before, after, rfl, refused, -⟩ := h
  induction before with
  | nil => simp [firstSome, is]
  | cons x before ih =>
    have : f x = none := by simpa using refused x List.mem_cons_self
    rw [List.cons_append, firstSome, this]
    exact ih fun y mem => refused y (List.mem_cons_of_mem _ mem)

theorem firstSome_none {α β : Type} {f : α → Option β} {l : List α} (h : ∀ x ∈ l, f x = none) : firstSome f l = none := by
  induction l with
  | nil => rfl
  | cons x l ih => rw [firstSome, h x List.mem_cons_self]; exact ih fun y mem => h y (List.mem_cons_of_mem _ mem)

theorem undefItem_none {src dst : Nat} {hops : List (Nat × Nat)} (ports : undefPort s src dst = none)
    (known : ∀ h ∈ hops, elemAt s h.1 ≠ none) : undefItem s src dst hops = none := by
  rw [undefItem, ports]
  exact firstSome_none fun h mem => by
    cases is : elemAt s h.1 with
    | none => exact absurd is (known h mem)
    | some x => rfl

/-- Hop `h` stands above its element's n. -/
def hopAbove (s : State) (h : Nat × Nat) : Prop := ∃ y, elemAt s h.1 = some y ∧ y.n < h.2

theorem highHop_cons_below {i : Nat} {h : Nat × Nat} {l : List (Nat × Nat)} (below : ¬hopAbove s h) :
    highHop s i (h :: l) = highHop s (i + 1) l := by
  rw [highHop]
  cases held : elemAt s h.1 with
  | none => rfl
  | some y => exact if_neg fun lt => below ⟨y, held, lt⟩

theorem highHop_first {i : Nat} {before after : List (Nat × Nat)} {h : Nat × Nat} (below : ∀ b ∈ before, ¬hopAbove s b)
    (above : hopAbove s h) : highHop s i (before ++ h :: after) = some (i + before.length) := by
  induction before generalizing i with
  | nil =>
    obtain ⟨y, held, lt⟩ := above
    simp [highHop, held, lt]
  | cons b before ih =>
    rw [List.cons_append, highHop_cons_below (below b List.mem_cons_self),
      ih fun b mem => below b (List.mem_cons_of_mem _ mem), List.length_cons, Nat.add_assoc, Nat.add_comm 1]

theorem highHop_none {i : Nat} {l : List (Nat × Nat)} (below : ∀ b ∈ l, ¬hopAbove s b) : highHop s i l = none := by
  induction l generalizing i with
  | nil => rfl
  | cons b l ih =>
    rw [highHop_cons_below (below b List.mem_cons_self), ih fun b mem => below b (List.mem_cons_of_mem _ mem)]

theorem firstRepeat_append {seen before l : List Nat} (distinct : before.Nodup) (new : ∀ b ∈ before, b ∉ seen) :
    firstRepeat seen (before ++ l) = firstRepeat (before.reverse ++ seen) l := by
  induction before generalizing seen with
  | nil => rfl
  | cons b before ih =>
    obtain ⟨apart, distinct⟩ := List.nodup_cons.1 distinct
    rw [List.cons_append, firstRepeat, if_neg (new b List.mem_cons_self), ih distinct, List.reverse_cons, List.append_assoc]
    · rfl
    · intro c mem is
      rcases List.mem_cons.1 is with rfl | is
      · exact apart mem
      · exact new c (List.mem_cons_of_mem _ mem) is

theorem firstRepeat_nodup {l : List Nat} (distinct : l.Nodup) : firstRepeat [] l = none := by
  have := firstRepeat_append (seen := []) (l := []) distinct (by simp)
  rw [List.append_nil] at this
  exact this

/-- The first number named again is the first that stands among those before it. -/
theorem firstRepeat_first {before after : List Nat} {n : Nat} (distinct : before.Nodup) (again : n ∈ before) :
    firstRepeat [] (before ++ n :: after) = some n := by
  rw [firstRepeat_append distinct (by simp), firstRepeat, if_pos (by simpa using again)]

theorem newRoute_transmits (s : State) (p : Nat) :
    classCarries (portClass s p) = true ↔ ∃ q, portAt s p = some q ∧ (q.cls = .source ∨ q.cls = .duplex) := by
  unfold classCarries portClass
  cases portAt s p <;> simp

theorem newRoute_probe (s : State) (p : Nat) :
    (portClass s p == some .probe) = true ↔ ∃ q, portAt s p = some q ∧ q.cls = .probe := by
  unfold portClass
  cases portAt s p <;> simp

theorem newRoute_carries (s : State) (src dst : Nat) (hops : List Hop) (found : Bool) :
    (newRoute s src dst hops found).carries = (classCarries (portClass s src) || classCarries (portClass s dst)) := rfl

theorem newRoute_radiates (s : State) (src dst : Nat) (hops : List Hop) (found : Bool) :
    (newRoute s src dst hops found).radiates = ((portClass s src == some .probe && classCarries (portClass s dst))
      || (portClass s dst == some .probe && classCarries (portClass s src))) := rfl

theorem newRoute_needsGuard (s : State) (src dst : Nat) (hops : List Hop) (found : Bool) :
    (newRoute s src dst hops found).needsGuard = true ↔ ∃ h ∈ hops, ∃ e, elemAt s h.elem = some e ∧ e.guarded = true := by
  have guarded (h : Hop) : (match elemAt s h.elem with | some x => x.guarded | none => false) = true
      ↔ ∃ e, elemAt s h.elem = some e ∧ e.guarded = true := by
    cases elemAt s h.elem <;> simp
  show hops.any _ = true ↔ _
  simp only [List.any_eq_true]
  exact exists_congr fun h => and_congr_right fun _ => guarded h

theorem routeRefusal_next {r src dst : Nat} {hops : List (Nat × Nat)} (held : routeHeld s r = false)
    (pending : routePending s r = false) (known : undefItem s src dst hops = none) (low : highHop s 1 hops = none) :
    routeRefusal s r src dst hops = if src = dst then some (erWith .conflict (.word "SAME"))
      else (firstRepeat [] (hops.map fun h => h.1)).map fun e => erWith .conflict (.elem e) := by
  simp [routeRefusal, held, pending, known, low]

/-- Settles O26. -/
theorem routeCommandsWriteOneRecord : Obligations.RouteCommandsWriteOneRecord := by
  refine ⟨fun plus r src dst hops g s u => ?_, fun s src dst hops found => ?_⟩
  · intro held pending idFree portsKnown
    have free (h : idFree) : routeHeld u r = false ∧ routePending u r = false :=
      ⟨by simpa using mt (routeHeld_iff u r).1 h.1, by simpa using mt (routePending_iff u r).1 h.2⟩
    refine ⟨fun taken => ?_, fun taken => ?_, fun taken => ?_⟩
    · intro refused high itemsKnown inRange
      have refuse {x : Reply} (h : routeRefusal u r src dst hops = some x) : refused x := by
        refine (command_of_takes taken plus _).trans ?_
        rw [h]
        rfl
      have items (h : itemsKnown) : undefItem u src dst hops = none :=
        undefItem_none (undefPort_none h.1.2.1 h.1.2.2) h.2
      refine ⟨fun h => refuse ?_, fun h p => refuse ?_, fun h p => refuse ?_, fun h p q => refuse ?_, fun h known first => refuse ?_,
        fun before h after known is below above => refuse ?_, fun h same => refuse ?_,
        fun before h after within apart is distinct again => refuse ?_, fun h apart distinct => ?_⟩
      · simp [routeRefusal, (routeHeld_iff u r).2 h]
      · have no : routeHeld u r = false := by simpa using mt (routeHeld_iff u r).1 h
        simp [routeRefusal, no, (routePending_iff u r).2 p]
      · simp [routeRefusal, free h, undefItem, undefPort_src p]
      · simp [routeRefusal, free h, undefItem, undefPort_dst p q]
      · have item : undefItem u src dst hops = some (.elem h.1) := by
          rw [undefItem, undefPort_none known.2.1 known.2.2]
          obtain ⟨before, after, is, refused, undef⟩ := first
          refine firstSome_first ⟨before, after, is, fun b mem => ?_, ?_⟩ ?_
          · simpa using refused b mem
          · simp [undef]
          · simp [undef]
        simp [routeRefusal, free known.1, item]
      · have at_h : highHop u 1 hops = some (before.length + 1) := by
          rw [is, highHop_first below above, Nat.add_comm]
        simp [routeRefusal, free known.1.1, items known, at_h]
      · rw [routeRefusal_next (free h.1.1.1).1 (free h.1.1.1).2 (items h.1) (highHop_none h.2), if_pos same]
      · rw [routeRefusal_next (free within.1.1.1).1 (free within.1.1.1).2 (items within.1) (highHop_none within.2),
          if_neg apart, is, List.map_append, List.map_cons, firstRepeat_first distinct again]
        rfl
      · have passes : routeRefusal u r src dst hops = none := by
          rw [routeRefusal_next (free h.1.1.1).1 (free h.1.1.1).2 (items h.1) (highHop_none h.2), if_neg apart,
            firstRepeat_nodup distinct]
          rfl
        refine ⟨fun i broken => ?_, fun l path => ?_⟩
        · refine (command_of_takes taken plus _).trans ?_
          rw [passes]
          dsimp only
          rw [broken]
          rfl
        · refine (command_of_takes taken plus _).trans ?_
          rw [passes]
          dsimp only
          rw [path]
          rfl
    · intro refused
      have refuse {x : Reply} (h : findRefusal u r src dst = some x) : refused x := by
        refine (command_of_takes taken plus _).trans ?_
        rw [h]
        rfl
      refine ⟨fun h => refuse ?_, fun h p => refuse ?_, fun h p => refuse ?_, fun h p q => refuse ?_, fun h same => refuse ?_,
        fun h apart => ?_⟩
      · simp [findRefusal, (routeHeld_iff u r).2 h]
      · have no : routeHeld u r = false := by simpa using mt (routeHeld_iff u r).1 h
        simp [findRefusal, no, (routePending_iff u r).2 p]
      · simp [findRefusal, free h, undefPort_src p]
      · simp [findRefusal, free h, undefPort_dst p q]
      · simp [findRefusal, free h.1, same, undefPort_none (same ▸ h.2.1) h.2.2]
      · have passes : findRefusal u r src dst = none := by
          simp [findRefusal, free h.1, undefPort_none h.2.1 h.2.2, apart]
        refine ⟨fun missing => ?_, fun l path => ?_⟩
        · refine (command_of_takes taken plus _).trans ?_
          rw [passes]
          dsimp only
          rw [missing]
          rfl
        · refine (command_of_takes taken plus _).trans ?_
          rw [passes]
          dsimp only
          rw [path]
          rfl
    · have done : exec (.routedel plus r) s
          = .next (settle (answer plus (deleteRoute r u).1 (deleteRoute r u).2)) := command_of_takes taken plus _
      rw [done]
      refine ⟨fun undef => ?_, fun x at_r => ⟨fun ready p => ?_, fun idle => ?_, fun applied => ?_, fun retiring => ?_⟩⟩
      · simp [deleteRoute, undef, replied]
      · simp [deleteRoute, at_r, ready, p, replied]
      · rcases idle with ⟨ready, p⟩ | stale
        · simp [deleteRoute, at_r, ready, p, replied]
        · simp [deleteRoute, at_r, stale, replied]
      · simp [deleteRoute, at_r, applied, replied, setRoute]
      · simp [deleteRoute, at_r, retiring, replied]
  · intro x transmits probe
    refine ⟨⟨rfl, rfl, rfl, rfl, rfl, rfl, rfl, rfl⟩, ?_, ?_, newRoute_needsGuard s src dst hops found, ?_⟩
    · rw [newRoute_carries, Bool.or_eq_true, newRoute_transmits, newRoute_transmits]
    · rw [newRoute_radiates, Bool.or_eq_true, Bool.and_eq_true, Bool.and_eq_true, newRoute_transmits, newRoute_transmits,
        newRoute_probe, newRoute_probe]
    · rw [newRoute_radiates, newRoute_carries]
      cases classCarries (portClass s src) <;> cases classCarries (portClass s dst) <;> simp

end Sys2Proof.StepLaws

/-! ### The search of FIND (O25) -/

namespace Sys2Proof.StepLaws

open Sys2Proof.Machine Sys2Proof.Laws

variable {s : State} {guarded : Bool} {src dst : Nat}

/-! #### The search without a destination -/

/-- A level expanded entry by entry to its end. -/
def exploreLevel (s : State) (guarded last : Bool) (l : List Entry) (q : Search) : Search :=
  l.foldl (fun q t => (expansions s guarded last t).foldl (fun q x => followExit s t.2 x q) q) q

/-- The entries of the levels from `entries` on, in the order in which the search takes them. -/
def explored (s : State) (guarded : Bool) : Nat → List Entry → List Terminal → List Entry
  | 0, entries, _ => entries
  | m + 1, entries, marks =>
    let q := exploreLevel s guarded false entries { marks := marks, next := [] }
    entries ++ explored s guarded m q.next q.marks

theorem expandLevel_found {last : Bool} {l : List Entry} {q : Search} {t : Entry}
    (h : l.find? (arrives dst) = some t) : expandLevel s dst guarded last l q = .error t.2 := by
  induction l generalizing q with
  | nil => contradiction
  | cons x l ih =>
    rw [expandLevel]
    cases arrived : arrives dst x with
    | true =>
      rw [List.find?_cons_of_pos arrived] at h
      cases h
      rfl
    | false =>
      rw [List.find?_cons_of_neg (by simp [arrived])] at h
      exact ih h

theorem expandLevel_missed {last : Bool} {l : List Entry} {q : Search} (h : l.find? (arrives dst) = none) :
    expandLevel s dst guarded last l q = .ok (exploreLevel s guarded last l q) := by
  induction l generalizing q with
  | nil => rfl
  | cons x l ih =>
    have apart := List.find?_eq_none.1 h
    rw [expandLevel, if_neg (apart x List.mem_cons_self),
      ih (List.find?_eq_none.2 fun y mem => apart y (List.mem_cons_of_mem _ mem))]
    rfl

theorem explored_nil (m : Nat) (marks : List Terminal) : explored s guarded m [] marks = [] := by
  induction m generalizing marks with
  | zero => rfl
  | succ m ih => exact ih _

theorem searchLevels_eq (m : Nat) (entries : List Entry) (marks : List Terminal) :
    searchLevels s dst guarded m entries marks
      = ((explored s guarded m entries marks).find? (arrives dst)).map fun t => t.2 := by
  induction m generalizing entries marks with
  | zero =>
    rw [searchLevels, explored]
    cases found : entries.find? (arrives dst) with
    | some t => rw [expandLevel_found found]; rfl
    | none => rw [expandLevel_missed found]; rfl
  | succ m ih =>
    rw [searchLevels, explored, List.find?_append]
    cases found : entries.find? (arrives dst) with
    | some t => rw [expandLevel_found found]; rfl
    | none =>
      rw [expandLevel_missed found]
      dsimp only
      rw [show ((m + 1 == 0) : Bool) = false from rfl]
      split
      · rename_i empty
        rw [List.isEmpty_iff.1 empty, explored_nil]
        rfl
      · rw [ih]
        rfl

/-! #### The hops that extend an entry -/

/-- Hop `h` may extend entry `t` (R70). -/
def HopOk (s : State) (guarded : Bool) (t : Entry) (h : Hop) : Prop :=
  ∃ e, entryOf h = t.1 ∧ elemAt s h.elem = some e ∧ (h.entersCommon = true → 1 ≤ h.pos ∧ h.pos ≤ e.n)
    ∧ (∀ k ∈ t.2, k.elem ≠ h.elem) ∧ (e.guarded = true → guarded = true) ∧ t.2.length < 12

theorem extends_iff (t x : Entry) : Extends s guarded t x
    ↔ ∃ h, HopOk s guarded t h ∧ partner s (exitOf h) = some x.1 ∧ x.2 = t.2 ++ [h] := by
  constructor
  · rintro ⟨h, e, entry, held, range, new, allowed, short, far, is⟩
    exact ⟨h, ⟨e, entry, held, range, new, allowed, short⟩, far, is⟩
  · rintro ⟨h, ⟨e, entry, held, range, new, allowed, short⟩, far, is⟩
    exact ⟨h, e, entry, held, range, new, allowed, short, far, is⟩

theorem lastThrow_append (a : Terminal) (l : List Hop) (h : Hop) : lastThrow (a, l ++ [h]) = h.pos := by
  simp [lastThrow]

theorem lastThrow_extended {t x : Entry} {h : Hop} (is : x.2 = t.2 ++ [h]) : lastThrow x = h.pos := by
  rw [← lastThrow_append x.1 t.2 h, ← is]

/-- One hop of a position extends an entry at most. -/
theorem HopOk.unique {t : Entry} {h k : Hop} (a : HopOk s guarded t h) (b : HopOk s guarded t k) (same : h.pos = k.pos) :
    h = k := by
  obtain ⟨-, entryA, -⟩ := a
  obtain ⟨-, entryB, -⟩ := b
  have entry := entryA.trans entryB.symm
  clear entryA entryB
  obtain ⟨he, hp, hc⟩ := h
  obtain ⟨ke, kp, kc⟩ := k
  cases hc <;> cases kc <;> simp_all [entryOf]

/-- The expansions of an entry are the hops that may extend it, each with its exit. -/
theorem mem_expansions {last : Bool} {t : Entry} (isLast : last = decide (12 ≤ t.2.length)) (h : Hop) (c : Terminal) :
    (h, c) ∈ expansions s guarded last t ↔ HopOk s guarded t h ∧ c = exitOf h := by
  obtain ⟨a, hops⟩ := t
  unfold expansions HopOk
  dsimp only at isLast ⊢
  cases arrived : terminalElem a with
  | none =>
    cases a with
    | port p =>
      simp only [List.not_mem_nil, false_iff, not_and, entryOf]
      rintro ⟨e, entry, -⟩
      split at entry <;> contradiction
    | common e => contradiction
    | throw e k => contradiction
  | some e =>
    have elem : ∀ {h : Hop}, entryOf h = a → h.elem = e := fun {h} entry => by
      unfold entryOf at entry
      split at entry <;> subst entry <;> simpa [terminalElem] using arrived
    dsimp only
    cases held : elemAt s e with
    | none =>
      simp only [List.not_mem_nil, false_iff, not_and]
      rintro ⟨x, entry, at_e, -⟩
      rw [elem entry, held] at at_e
      contradiction
    | some x =>
      dsimp only
      split
      · rename_i blocked
        simp only [List.not_mem_nil, false_iff, not_and]
        rintro ⟨y, entry, at_e, -, new, allowed, short⟩
        rw [elem entry, held] at at_e
        cases at_e
        simp only [Bool.or_eq_true, Bool.and_eq_true, List.any_eq_true, beq_iff_eq, isLast, decide_eq_true_eq] at blocked
        rcases blocked with (⟨k, mem, used⟩ | ⟨isGuarded, not⟩) | long
        · exact absurd (used.trans (elem entry).symm) (new k mem)
        · simp [allowed isGuarded] at not
        · omega
      · rename_i may
        simp only [Bool.or_eq_true, Bool.and_eq_true, List.any_eq_true, beq_iff_eq, isLast, decide_eq_true_eq, not_or] at may
        obtain ⟨⟨new, allowed⟩, short⟩ := may
        have rest : ∀ {h : Hop}, h.elem = e → (∀ k ∈ hops, k.elem ≠ h.elem) ∧ (x.guarded = true → guarded = true)
            ∧ hops.length < 12 := fun {h} is =>
          ⟨fun k mem same => new ⟨k, mem, same.trans is⟩, fun g => by simpa [g] using allowed, by omega⟩
        cases a with
        | port p => contradiction
        | common f =>
          obtain rfl : f = e := by simpa [terminalElem] using arrived
          simp only [extensions, List.mem_map, List.mem_range]
          constructor
          · rintro ⟨k, lt, is⟩
            cases is
            exact ⟨⟨x, rfl, held, fun _ => ⟨by simp, lt⟩, rest rfl⟩, rfl⟩
          · rintro ⟨⟨y, entry, at_e, range, -⟩, rfl⟩
            obtain ⟨he, hp, hc⟩ := h
            cases hc with
            | false => simp [entryOf] at entry
            | true =>
              obtain rfl : he = f := by simpa [entryOf] using entry
              rw [held] at at_e
              cases at_e
              obtain ⟨pos, le⟩ := range rfl
              dsimp only at pos le
              exact ⟨hp - 1, by omega, by simp [exitOf, Nat.sub_add_cancel pos]⟩
        | throw f j =>
          obtain rfl : f = e := by simpa [terminalElem] using arrived
          simp only [extensions, List.mem_singleton, Prod.mk.injEq]
          constructor
          · rintro ⟨rfl, rfl⟩
            exact ⟨⟨x, rfl, held, fun c => by simp at c, rest rfl⟩, rfl⟩
          · rintro ⟨⟨y, entry, -⟩, rfl⟩
            obtain ⟨he, hp, hc⟩ := h
            cases hc with
            | true => simp [entryOf] at entry
            | false =>
              obtain ⟨rfl, rfl⟩ : he = f ∧ hp = j := by simpa [entryOf] using entry
              exact ⟨rfl, rfl⟩

/-- The expansions of an entry stand in ascending throw. -/
theorem expansions_ascend (last : Bool) (t : Entry) :
    (expansions s guarded last t).Pairwise fun x y => x.1.pos < y.1.pos := by
  unfold expansions
  split
  · exact List.Pairwise.nil
  split
  · exact List.Pairwise.nil
  split
  · exact List.Pairwise.nil
  · rename_i e _ x _ _
    unfold extensions
    split
    · exact List.Pairwise.nil
    · exact List.pairwise_singleton _ _
    · rw [List.pairwise_map]
      exact List.pairwise_lt_range.imp fun lt => by simpa using lt

/-! #### The entries found so far, each with the index of the entry it extends -/

/-- The entries `R` are those found when entry `i` has been expanded by its extensions of throws below `k`, and the entries
before it wholly. -/
structure Found (s : State) (guarded : Bool) (src : Nat) (b : Terminal) (R : List (Entry × Nat)) (i k : Nat) : Prop where
  first : R[0]? = some ((b, []), 0)
  distinct : (R.map fun r => r.1.1).Nodup
  away : ∀ j r, 0 < j → R[j]? = some r → r.1.1 ≠ .port src
  parents : ∀ j x p, 0 < j → R[j]? = some (x, p) →
    p < j ∧ (p < i ∨ p = i ∧ lastThrow x < k) ∧ ∃ t q, R[p]? = some (t, q) ∧ Extends s guarded t x
  order : ∀ a c x p y q, 0 < a → a < c → R[a]? = some (x, p) → R[c]? = some (y, q) →
    p < q ∨ p = q ∧ lastThrow x < lastThrow y
  complete : ∀ a t q x, R[a]? = some (t, q) → Extends s guarded t x → (a < i ∨ a = i ∧ lastThrow x < k) →
    x.1 = .port src ∨ ∃ j y p, R[j]? = some (y, p) ∧ y.1 = x.1 ∧ (j = 0 ∨ p < a ∨ p = a ∧ lastThrow y ≤ lastThrow x)

variable {b : Terminal} {R : List (Entry × Nat)} {i k : Nat}

/-- An extension that leads nowhere new adds no entry. -/
theorem Found.pass {t : Entry} {q : Nat} {h : Hop} (f : Found s guarded src b R i k) (at_i : R[i]? = some (t, q))
    (ok : HopOk s guarded t h) (low : k ≤ h.pos) (least : ∀ h', HopOk s guarded t h' → k ≤ h'.pos → h.pos ≤ h'.pos)
    (known : ∀ c, partner s (exitOf h) = some c → c = .port src ∨ c ∈ R.map fun r => r.1.1) :
    Found s guarded src b R i (h.pos + 1) := by
  refine ⟨f.first, f.distinct, f.away, fun j x p pos at_j => ?_, f.order, fun a t' q' x at_a ext before => ?_⟩
  · obtain ⟨lt, key, rest⟩ := f.parents j x p pos at_j
    exact ⟨lt, key.imp id fun ⟨is, below⟩ => ⟨is, by omega⟩, rest⟩
  · by_cases old : a < i ∨ a = i ∧ lastThrow x < k
    · exact f.complete a t' q' x at_a ext old
    · obtain ⟨rfl, below⟩ := before.resolve_left fun lt => old (.inl lt)
      obtain ⟨rfl, rfl⟩ : t = t' ∧ q = q' := by simpa using at_i.symm.trans at_a
      obtain ⟨h', ok', far, is⟩ := (extends_iff t x).1 ext
      have throw : lastThrow x = h'.pos := lastThrow_extended is
      have above : k ≤ h'.pos := by
        refine Classical.byContradiction fun no => ?_
        exact old (.inr ⟨rfl, by omega⟩)
      have same : h = h' := ok.unique ok' (by have := least h' ok' above; omega)
      subst same
      rcases known _ far with here | mem
      · exact .inl here
      · obtain ⟨⟨y, p⟩, mem, is⟩ := List.mem_map.1 mem
        obtain ⟨j, at_j⟩ := List.mem_iff_getElem?.1 mem
        refine .inr ⟨j, y, p, at_j, is, ?_⟩
        by_cases zero : j = 0
        · exact .inl zero
        · obtain ⟨-, key, -⟩ := f.parents j y p (Nat.pos_of_ne_zero zero) at_j
          rcases key with lt | ⟨same, below⟩
          · exact .inr (.inl lt)
          · exact .inr (.inr ⟨same, by omega⟩)

/-- An extension that leads to a new terminal adds its entry at the end. -/
theorem Found.add {t : Entry} {q : Nat} {h : Hop} {c : Terminal} (f : Found s guarded src b R i k)
    (at_i : R[i]? = some (t, q)) (ok : HopOk s guarded t h) (low : k ≤ h.pos)
    (least : ∀ h', HopOk s guarded t h' → k ≤ h'.pos → h.pos ≤ h'.pos) (far : partner s (exitOf h) = some c)
    (away : c ≠ .port src) (new : c ∉ R.map fun r => r.1.1) :
    Found s guarded src b (R ++ [((c, t.2 ++ [h]), i)]) i (h.pos + 1) := by
  have lt : i < R.length := (List.getElem?_eq_some_iff.1 at_i).1
  have old {j : Nat} {r : Entry × Nat} (at_j : R[j]? = some r) : (R ++ [((c, t.2 ++ [h]), i)])[j]? = some r := by
    rw [List.getElem?_append_left (List.getElem?_eq_some_iff.1 at_j).1, at_j]
  have split {j : Nat} {r : Entry × Nat} (at_j : (R ++ [((c, t.2 ++ [h]), i)])[j]? = some r) :
      R[j]? = some r ∨ j = R.length ∧ r = ((c, t.2 ++ [h]), i) := by
    by_cases inside : j < R.length
    · rw [List.getElem?_append_left inside] at at_j
      exact .inl at_j
    · rw [List.getElem?_append_right (by omega)] at at_j
      obtain ⟨is, eq⟩ := List.getElem?_eq_some_iff.1 at_j
      simp only [List.length_singleton] at is
      refine .inr ⟨by omega, ?_⟩
      simpa [show j - R.length = 0 by omega] using eq.symm
  have extended : Extends s guarded t (c, t.2 ++ [h]) := (extends_iff _ _).2 ⟨h, ok, far, rfl⟩
  refine ⟨old f.first, ?_, fun j r pos at_j => ?_, fun j x p pos at_j => ?_, fun a d x p y q' pos less at_a at_d => ?_,
    fun a t' q' x at_a ext before => ?_⟩
  · rw [List.map_append, List.nodup_append]
    refine ⟨f.distinct, by simp, fun x hx y hy is => ?_⟩
    simp only [List.map_cons, List.map_nil, List.mem_singleton] at hy
    exact new (hy ▸ is ▸ hx)
  · rcases split at_j with at_j | ⟨-, rfl⟩
    · exact f.away j r pos at_j
    · exact away
  · rcases split at_j with at_j | ⟨rfl, is⟩
    · obtain ⟨lt, key, t', q', at_p, ext⟩ := f.parents j x p pos at_j
      exact ⟨lt, key.imp id fun ⟨is, below⟩ => ⟨is, by omega⟩, t', q', old at_p, ext⟩
    · cases is
      exact ⟨lt, .inr ⟨rfl, by rw [lastThrow_append]; omega⟩, t, q, old at_i, extended⟩
  · have lastOne := (List.getElem?_eq_some_iff.1 at_d).1
    rw [List.length_append, List.length_singleton] at lastOne
    rcases split at_a with at_a | ⟨is, -⟩
    · rcases split at_d with at_d | ⟨-, is⟩
      · exact f.order a d x p y q' pos less at_a at_d
      · cases is
        obtain ⟨-, key, -⟩ := f.parents a x p pos at_a
        rw [lastThrow_append]
        exact key.imp id fun ⟨is, below⟩ => ⟨is, by omega⟩
    · omega
  · rcases split at_a with at_a | ⟨is, -⟩
    · by_cases done : a < i ∨ a = i ∧ lastThrow x < k
      · rcases f.complete a t' q' x at_a ext done with here | ⟨j, y, p, at_j, rest⟩
        · exact .inl here
        · exact .inr ⟨j, y, p, old at_j, rest⟩
      · obtain ⟨rfl, below⟩ := before.resolve_left fun lt => done (.inl lt)
        obtain ⟨rfl, rfl⟩ : t = t' ∧ q = q' := by simpa using (old at_i).symm.trans at_a
        obtain ⟨h', ok', far', is⟩ := (extends_iff t x).1 ext
        have throw : lastThrow x = h'.pos := lastThrow_extended is
        have above : k ≤ h'.pos := by
          refine Classical.byContradiction fun no => ?_
          exact done (.inr ⟨rfl, by omega⟩)
        have same : h = h' := ok.unique ok' (by have := least h' ok' above; omega)
        subst same
        refine .inr ⟨R.length, (c, t.2 ++ [h]), a, by simp, Option.some.inj (far.symm.trans far'), .inr (.inr ⟨rfl, Nat.le_of_eq ?_⟩)⟩
        rw [lastThrow_append, throw]
    · omega

/-- An entry with no further extension is expanded wholly. -/
theorem Found.done {t : Entry} {q : Nat} (f : Found s guarded src b R i k) (at_i : R[i]? = some (t, q))
    (none : ∀ h, HopOk s guarded t h → h.pos < k) : Found s guarded src b R (i + 1) 0 := by
  refine ⟨f.first, f.distinct, f.away, fun j x p pos at_j => ?_, f.order, fun a t' q' x at_a ext before => ?_⟩
  · obtain ⟨lt, key, rest⟩ := f.parents j x p pos at_j
    exact ⟨lt, .inl (by omega), rest⟩
  · refine f.complete a t' q' x at_a ext ?_
    by_cases less : a < i
    · exact .inl less
    · obtain rfl : a = i := by omega
      obtain ⟨rfl, rfl⟩ : t = t' ∧ q = q' := by simpa using at_i.symm.trans at_a
      obtain ⟨h, ok, -, is⟩ := (extends_iff t x).1 ext
      exact .inr ⟨rfl, by rw [lastThrow_extended is]; exact none h ok⟩

/-! #### The model's search finds them -/

/-- The search stands where `R` says: the entries of the levels up to `B`, then those of the next level, of `n` hops. -/
structure Tied (src : Nat) (R : List (Entry × Nat)) (B : List Entry) (n : Nat) (q : Search) : Prop where
  list : R.map (fun r => r.1) = B ++ q.next
  marks : ∀ a, a ∈ q.marks ↔ a = .port src ∨ a ∈ R.map fun r => r.1.1
  hops : ∀ t ∈ q.next, t.2.length = n

variable {B : List Entry} {n : Nat} {q : Search}

theorem Found.follow {t : Entry} {p : Nat} {h : Hop} (f : Found s guarded src b R i k) (tied : Tied src R B n q)
    (at_i : R[i]? = some (t, p)) (length : t.2.length + 1 = n) (ok : HopOk s guarded t h) (low : k ≤ h.pos)
    (least : ∀ h', HopOk s guarded t h' → k ≤ h'.pos → h.pos ≤ h'.pos) :
    ∃ R', Found s guarded src b R' i (h.pos + 1) ∧ Tied src R' B n (followExit s t.2 (h, exitOf h) q)
      ∧ R'[i]? = some (t, p) := by
  unfold followExit
  dsimp only
  cases far : partner s (exitOf h) with
  | none => exact ⟨R, f.pass at_i ok low least (by simp [far]), tied, at_i⟩
  | some c =>
    dsimp only
    split
    · rename_i marked
      refine ⟨R, f.pass at_i ok low least fun d is => ?_, tied, at_i⟩
      rw [far] at is
      cases is
      exact (tied.marks c).1 (by simpa using marked)
    · rename_i unmarked
      have unmarked := mt (tied.marks c).2 (by simpa using unmarked)
      rw [not_or] at unmarked
      refine ⟨_, f.add at_i ok low least far unmarked.1 unmarked.2, ⟨?_, fun a => ?_, fun x mem => ?_⟩, ?_⟩
      · simp [tied.list]
      · simp only [List.mem_cons, List.map_append, List.map_cons, List.map_nil, List.mem_append, List.not_mem_nil, or_false,
          tied.marks a]
        rw [or_comm, or_assoc]
      · rcases List.mem_append.1 mem with mem | mem
        · exact tied.hops x mem
        · rw [List.mem_singleton.1 mem, List.length_append, List.length_singleton]
          exact length
      · rw [List.getElem?_append_left (List.getElem?_eq_some_iff.1 at_i).1, at_i]

theorem Found.followAll {t : Entry} {p : Nat} {xs : List (Hop × Terminal)} (f : Found s guarded src b R i k)
    (tied : Tied src R B n q) (at_i : R[i]? = some (t, p)) (length : t.2.length + 1 = n)
    (ascend : xs.Pairwise fun x y => x.1.pos < y.1.pos) (ok : ∀ x ∈ xs, HopOk s guarded t x.1 ∧ x.2 = exitOf x.1)
    (low : ∀ x ∈ xs, k ≤ x.1.pos) (all : ∀ h, HopOk s guarded t h → k ≤ h.pos → (h, exitOf h) ∈ xs) :
    ∃ R', Found s guarded src b R' (i + 1) 0 ∧ Tied src R' B n (xs.foldl (fun q x => followExit s t.2 x q) q) := by
  induction xs generalizing R k q with
  | nil =>
    refine ⟨R, f.done at_i fun h ok => ?_, tied⟩
    refine Classical.byContradiction fun no => ?_
    exact List.not_mem_nil (all h ok (by omega))
  | cons x xs ih =>
    obtain ⟨above, ascend⟩ := List.pairwise_cons.1 ascend
    obtain ⟨ok_x, exit⟩ := ok x List.mem_cons_self
    have least : ∀ h', HopOk s guarded t h' → k ≤ h'.pos → x.1.pos ≤ h'.pos := fun h' ok' le => by
      rcases List.mem_cons.1 (all h' ok' le) with is | mem
      · exact Nat.le_of_eq (by rw [← is])
      · exact Nat.le_of_lt (above _ mem)
    obtain ⟨R', f', tied', at_i'⟩ := f.follow tied at_i length ok_x (low x List.mem_cons_self) least
    rw [List.foldl_cons, show x = (x.1, exitOf x.1) from Prod.ext rfl exit]
    refine ih f' tied' at_i' ascend (fun y mem => ok y (List.mem_cons_of_mem _ mem)) (fun y mem => above y mem)
      fun h ok' le => ?_
    rcases List.mem_cons.1 (all h ok' (by have := low x List.mem_cons_self; omega)) with is | mem
    · rw [← is] at le
      dsimp only at le
      omega
    · exact mem

theorem Found.expand {last : Bool} {t : Entry} {p : Nat} (f : Found s guarded src b R i 0) (tied : Tied src R B n q)
    (at_i : R[i]? = some (t, p)) (length : t.2.length + 1 = n) (isLast : last = decide (12 ≤ t.2.length)) :
    ∃ R', Found s guarded src b R' (i + 1) 0
      ∧ Tied src R' B n ((expansions s guarded last t).foldl (fun q x => followExit s t.2 x q) q) :=
  f.followAll tied at_i length (expansions_ascend last t)
    (fun x mem => (mem_expansions isLast x.1 x.2).1 mem) (fun _ _ => Nat.zero_le _)
    fun h ok _ => (mem_expansions isLast h (exitOf h)).2 ⟨ok, rfl⟩

theorem Found.level {last : Bool} {pre l : List Entry} (f : Found s guarded src b R pre.length 0)
    (tied : Tied src R (pre ++ l) n q) (length : ∀ t ∈ l, t.2.length + 1 = n) (isLast : last = decide (12 < n)) :
    ∃ R', Found s guarded src b R' (pre ++ l).length 0
      ∧ Tied src R' (pre ++ l) n (exploreLevel s guarded last l q) := by
  induction l generalizing pre R q with
  | nil => exact ⟨R, by simpa using f, tied⟩
  | cons t l ih =>
    have here := length t List.mem_cons_self
    obtain ⟨p, at_i⟩ : ∃ p, R[pre.length]? = some (t, p) := by
      have := congrArg (fun l => l[pre.length]?) tied.list
      simp only [List.getElem?_map, List.append_assoc, List.getElem?_append_right (Nat.le_refl _), Nat.sub_self] at this
      obtain ⟨⟨x, p⟩, at_i, is⟩ := Option.map_eq_some_iff.1 (this.trans rfl)
      exact ⟨p, by rw [at_i, ← is]⟩
    obtain ⟨R', f', tied'⟩ := f.expand (last := last) tied at_i here (by rw [isLast, ← here, decide_eq_decide]; omega)
    have shift : pre ++ t :: l = (pre ++ [t]) ++ l := by simp
    rw [shift] at tied' ⊢
    exact ih (by simpa using f') tied' fun x mem => length x (List.mem_cons_of_mem _ mem)

theorem expansions_last (t : Entry) : expansions s guarded true t = [] := by
  unfold expansions
  split
  · rfl
  split
  · rfl
  · simp

theorem exploreLevel_last (l : List Entry) (q : Search) : exploreLevel s guarded true l q = q := by
  induction l generalizing q with
  | nil => rfl
  | cons t l ih =>
    rw [exploreLevel, List.foldl_cons, expansions_last]
    exact ih q

/-- The levels from one on, when all before it are expanded. -/
theorem Found.levels {m : Nat} {pre l : List Entry} {marks : List Terminal} (f : Found s guarded src b R pre.length 0)
    (tied : Tied src R (pre ++ l) n { marks := marks, next := [] }) (length : ∀ t ∈ l, t.2.length + 1 = n)
    (count : n + m = 13) :
    ∃ R', Found s guarded src b R' R'.length 0 ∧ R'.map (fun r => r.1) = pre ++ explored s guarded m l marks := by
  induction m generalizing pre l R n marks with
  | zero =>
    obtain ⟨R', f', tied'⟩ := f.level (last := true) tied length (by simp; omega)
    rw [exploreLevel_last] at tied'
    have list : R'.map (fun r => r.1) = pre ++ l := by simpa using tied'.list
    refine ⟨R', ?_, list⟩
    rw [show R'.length = (pre ++ l).length by rw [← list, List.length_map]]
    exact f'
  | succ m ih =>
    obtain ⟨R', f', tied'⟩ := f.level (last := false) tied length (by simp; omega)
    rw [explored, ← List.append_assoc]
    refine ih (n := n + 1) f' ⟨?_, tied'.marks, by simp⟩ (fun t mem => by rw [tied'.hops t mem]) (by omega)
    simpa using tied'.list

/-- All that the search from a source with a leg finds, before it looks for a destination. -/
theorem found_all (b : Terminal) : ∃ R, Found s guarded src b R R.length 0
    ∧ R.map (fun r => r.1) = explored s guarded 12 [(b, [])] [b, .port src] := by
  have start : Found s guarded src b [((b, []), 0)] 0 0 := by
    have one {j : Nat} {r : Entry × Nat} (h : [((b, []), 0)][j]? = some r) : j = 0 := by
      have := (List.getElem?_eq_some_iff.1 h).1
      simpa using this
    refine ⟨rfl, by simp, fun j r pos h => ?_, fun j x p pos h => ?_, fun a c x p y q pos lt h k => ?_,
      fun a t q x h ext before => ?_⟩
    · have := one h; omega
    · have := one h; omega
    · have := one k; omega
    · omega
  obtain ⟨R, found, list⟩ := start.levels (pre := []) (l := [(b, [])]) (n := 1) (m := 12) (marks := [b, .port src])
    ⟨rfl, fun a => by simp [or_comm], by simp⟩ (by simp) rfl
  exact ⟨R, found, list⟩

/-! #### What the entries are -/

/-- The hops of an entry connect its source to the terminal before its own, use each element once, and use guarded elements
only when the search may. -/
def Reached (s : State) (guarded : Bool) (src : Nat) (t : Entry) : Prop :=
  ∃ c, Connects s (.port src) t.2 c ∧ partner s c = some t.1 ∧ (t.2.map fun h => h.elem).Nodup
    ∧ (∀ h ∈ t.2, ∃ x, elemAt s h.elem = some x ∧ (x.guarded = true → guarded = true)) ∧ t.2.length ≤ 12

theorem connects_append {a c : Terminal} {l : List Hop} {h : Hop} (path : Connects s a l c)
    (far : partner s c = some (entryOf h)) : Connects s a (l ++ [h]) (exitOf h) := by
  induction l generalizing a with
  | nil => cases path; exact ⟨far, rfl⟩
  | cons x l ih => exact ⟨path.1, ih path.2⟩

theorem continuous_of_connects {a c : Terminal} {l : List Hop} (path : Connects s a l c) (far : partner s c = some (.port dst)) :
    Continuous s dst a l := by
  induction l generalizing a with
  | nil => cases path; exact far
  | cons x l ih => exact ⟨path.1, ih path.2⟩

theorem Reached.extend {t x : Entry} (r : Reached s guarded src t) (ext : Extends s guarded t x) :
    Reached s guarded src x := by
  obtain ⟨c, path, far, distinct, allowed, -⟩ := r
  obtain ⟨h, e, entry, held, -, new, guard, short, leads, is⟩ := ext
  refine ⟨exitOf h, ?_, leads, ?_, fun k mem => ?_, ?_⟩
  · rw [is]
    exact connects_append path (by rw [far, entry])
  · rw [is, List.map_append, List.map_singleton, List.nodup_append]
    refine ⟨distinct, by simp, fun a ha b hb => ?_⟩
    obtain ⟨k, mem, rfl⟩ := List.mem_map.1 ha
    rw [List.mem_singleton.1 hb]
    exact new k mem
  · rw [is] at mem
    rcases List.mem_append.1 mem with mem | mem
    · exact allowed k mem
    · rw [List.mem_singleton.1 mem]
      exact ⟨e, held, guard⟩
  · rw [is, List.length_append, List.length_singleton]
    omega

theorem Found.reached (f : Found s guarded src b R i k) (leg : partner s (.port src) = some b) {j : Nat} {x : Entry} {p : Nat}
    (at_j : R[j]? = some (x, p)) : Reached s guarded src x := by
  induction j using Nat.strongRecOn generalizing x p with
  | ind j ih =>
    by_cases zero : j = 0
    · rw [zero, f.first] at at_j
      cases at_j
      exact ⟨.port src, rfl, leg, by simp, by simp, by simp⟩
    · obtain ⟨lt, -, t, q, at_p, ext⟩ := f.parents j x p (Nat.pos_of_ne_zero zero) at_j
      exact (ih p lt at_p).extend ext

/-- The number of hops never falls along the entries. -/
theorem Found.hops_le (f : Found s guarded src b R i k) {a c : Nat} {x y : Entry} {p q : Nat} (lt : a < c)
    (at_a : R[a]? = some (x, p)) (at_c : R[c]? = some (y, q)) : x.2.length ≤ y.2.length := by
  induction c using Nat.strongRecOn generalizing a x y p q with
  | ind c ih =>
    by_cases zero : a = 0
    · rw [zero, f.first] at at_a
      cases at_a
      exact Nat.zero_le _
    · obtain ⟨-, -, t, t', at_p, extA⟩ := f.parents a x p (Nat.pos_of_ne_zero zero) at_a
      obtain ⟨less, -, u, u', at_q, extC⟩ := f.parents c y q (by omega) at_c
      have shorter : t.2.length ≤ u.2.length := by
        rcases f.order a c x p y q (Nat.pos_of_ne_zero zero) lt at_a at_c with below | ⟨rfl, -⟩
        · exact ih q less below at_p at_q
        · rw [at_p] at at_q
          cases at_q
          exact Nat.le_refl _
      obtain ⟨h, -, -, isA⟩ := (extends_iff t x).1 extA
      obtain ⟨h', -, -, isC⟩ := (extends_iff u y).1 extC
      rw [isA, isC, List.length_append, List.length_append]
      simpa using shorter

theorem search_eq {b : Terminal} (leg : partner s (.port src) = some b) (dst : Nat) (guarded : Bool) :
    search s src dst guarded = ((explored s guarded 12 [(b, [])] [b, .port src]).find? (arrives dst)).map fun t => t.2 := by
  rw [search, leg]
  exact searchLevels_eq _ _ _

/-- A route the search finds is an entry at its destination. -/
theorem search_reached {l : List Hop} (h : search s src dst guarded = some l) :
    Reached s guarded src (.port dst, l) ∧ l ≠ [] := by
  cases leg : partner s (.port src) with
  | none => rw [search, leg] at h; contradiction
  | some b =>
    rw [search_eq leg] at h
    obtain ⟨t, found, rfl⟩ := Option.map_eq_some_iff.1 h
    obtain ⟨R, all, list⟩ := found_all (s := s) (guarded := guarded) (src := src) b
    have arrived := List.find?_some found
    rw [← list] at found
    obtain ⟨⟨x, p⟩, mem, rfl⟩ := List.mem_map.1 (List.mem_of_find?_eq_some found)
    obtain ⟨j, at_j⟩ := List.mem_iff_getElem?.1 mem
    simp only [arrives, Bool.and_eq_true, beq_iff_eq, Bool.not_eq_true', List.isEmpty_eq_false_iff] at arrived
    have reached := all.reached leg at_j
    rw [show x = (.port dst, x.2) from Prod.ext arrived.1 rfl] at reached
    exact ⟨reached, arrived.2⟩

/-- Settles O25, from the entries the search finds. -/
theorem findFindsAContinuousPath : Obligations.FindFindsAContinuousPath := by
  refine ⟨fun s src dst guarded l found => ?_, fun s src guarded safe => ?_⟩
  · obtain ⟨⟨c, path, far, distinct, allowed, short⟩, some⟩ := search_reached found
    have continuous : Continuous s dst (.port src) l := continuous_of_connects path far
    exact ⟨⟨List.length_pos_iff.2 some, short⟩, continuous, distinct, allowed, (walk_ok_iff s dst 1 _ _ l).2 ⟨rfl, continuous⟩⟩
  · cases leg : partner s (.port src) with
    | none =>
      refine ⟨[], fun _ => 0, rfl, by simp, by simp, by simp, by simp, by simp, by simp, fun dst => ?_⟩
      rw [search, leg]
      rfl
    | some b =>
      obtain ⟨R, found, list⟩ := found_all (s := s) (guarded := guarded) (src := src) b
      have look {j : Nat} {x : Entry} (h : (R.map fun r => r.1)[j]? = some x) : ∃ p, R[j]? = some (x, p) := by
        rw [List.getElem?_map] at h
        obtain ⟨⟨y, p⟩, at_j, rfl⟩ := Option.map_eq_some_iff.1 h
        exact ⟨p, at_j⟩
      have shown {j : Nat} {x : Entry} {p : Nat} (h : R[j]? = some (x, p)) : (R.map fun r => r.1)[j]? = some x := by
        rw [List.getElem?_map, h]
        rfl
      have parent {j : Nat} {x : Entry} {p : Nat} (h : R[j]? = some (x, p)) : ((R[j]?).map fun r => r.2).getD 0 = p := by
        rw [h]
        rfl
      refine ⟨R.map fun r => r.1, fun j => ((R[j]?).map fun r => r.2).getD 0, ?_, ?_, fun t mem => ?_, ?_,
        fun j x pos at_j => ?_, fun i j x y pos lt at_i at_j => ?_, fun i t x at_i ext => ?_, fun dst => ?_⟩
      · rw [List.head?_eq_getElem?, shown found.first]
        rfl
      · rw [List.map_map]
        exact found.distinct
      · obtain ⟨j, at_j⟩ := List.mem_iff_getElem?.1 mem
        obtain ⟨p, at_j⟩ := look at_j
        by_cases zero : j = 0
        · rw [zero, found.first] at at_j
          cases at_j
          intro same
          rcases leg_of_partner leg with edge | edge
          · exact safe.1 _ edge same.symm
          · exact safe.1 _ edge same
        · exact found.away j _ (Nat.pos_of_ne_zero zero) at_j
      · rw [List.pairwise_iff_getElem]
        intro i j hi hj lt
        obtain ⟨p, at_i⟩ := look (List.getElem?_eq_getElem hi)
        obtain ⟨q, at_j⟩ := look (List.getElem?_eq_getElem hj)
        exact found.hops_le lt at_i at_j
      · obtain ⟨p, at_j⟩ := look at_j
        obtain ⟨lt, -, t, q, at_p, ext⟩ := found.parents j x p pos at_j
        dsimp only
        rw [parent at_j]
        exact ⟨lt, t, shown at_p, ext⟩
      · obtain ⟨p, at_i⟩ := look at_i
        obtain ⟨q, at_j⟩ := look at_j
        dsimp only
        rw [parent at_i, parent at_j]
        exact found.order i j x p y q pos lt at_i at_j
      · obtain ⟨p, at_i⟩ := look at_i
        refine (found.complete i t p x at_i ext (.inl (List.getElem?_eq_some_iff.1 at_i).1)).imp id
          fun ⟨j, y, q, at_j, same, before⟩ => ⟨j, y, shown at_j, same, ?_⟩
        dsimp only
        rw [parent at_j]
        exact before
      · rw [search_eq leg, list]
        rfl

end Sys2Proof.StepLaws

/-! ### CHECK (O28) -/

namespace Sys2Proof.StepLaws

open Sys2Proof.Machine Sys2Proof.Laws

variable {s : State}

/-! #### The first of a list -/

theorem firstWith_congr {α : Type} {p q : α → Prop} (same : ∀ x, p x ↔ q x) {l : List α} {a : α} (h : FirstWith p l a) :
    FirstWith q l a := by
  obtain ⟨before, after, is, refused, holds⟩ := h
  exact ⟨before, after, is, fun b mem => mt (same b).2 (refused b mem), (same a).1 holds⟩

theorem firstSome_eq_none {α β : Type} {f : α → Option β} {l : List α} : firstSome f l = none ↔ ∀ x ∈ l, f x = none := by
  induction l with
  | nil => simp [firstSome]
  | cons x l ih =>
    rw [firstSome, List.forall_mem_cons]
    cases f x <;> simp [ih]

/-- A check that fails exactly where `bad` holds finds the first such place. -/
theorem firstSome_of_firstWith {α β : Type} {f : α → Option β} {bad : α → Prop} (judges : ∀ x, f x = none ↔ ¬bad x)
    {l : List α} {a : α} {b : β} (h : FirstWith bad l a) (is : f a = some b) : firstSome f l = some b :=
  firstSome_first (firstWith_congr (fun x => by rw [Ne, judges, Classical.not_not]) h) is

theorem firstSome_passes {α β : Type} {f : α → Option β} {bad : α → Prop} (judges : ∀ x, f x = none ↔ ¬bad x) (l : List α) :
    firstSome f l = none ↔ ∀ x ∈ l, ¬bad x := by
  rw [firstSome_eq_none]
  exact forall_congr' fun x => imp_congr_right fun _ => judges x

/-! #### The seven conditions -/

/-- Route `r` is undefined, or RETIRING and not one a DROP takes over (R88). -/
def RouteUndef (s : State) (o : Origin) (r : Nat) : Prop :=
  routeAt s r = none ∨ ∃ x, routeAt s r = some x ∧ x.state = .retiring ∧ ¬(o = .drop ∧ r ∈ s.engine.applied)

/-- Routes `a` and `b` conflict (R80). -/
def Conflict (s : State) (a b : Nat) : Prop := ∃ x y, routeAt s a = some x ∧ routeAt s b = some y
  ∧ ((∃ h ∈ x.hops, ∃ k ∈ y.hops, h.elem = k.elem) ∨ x.src = y.src ∨ x.src = y.dst ∨ x.dst = y.src ∨ x.dst = y.dst)

/-- Some hop of route `r` is such a one. -/
def SomeHop (s : State) (p : Hop → Prop) (r : Nat) : Prop := ∃ x, routeAt s r = some x ∧ ∃ h ∈ x.hops, p h

/-- Route `r` ends on such a port. -/
def SomeEnd (s : State) (p : Nat → Prop) (r : Nat) : Prop := ∃ x, routeAt s r = some x ∧ (p x.src ∨ p x.dst)

/-- The hop's element cannot be used (R88). -/
def HopUnusable (s : State) (h : Hop) : Prop :=
  ¬∃ e, elemAt s h.elem = some e ∧ cardEnabled s e.card = true ∧ e.faulted = false

/-- The hop's element is guarded and not released (R88). -/
def HopGuarded (s : State) (h : Hop) : Prop :=
  ∃ e, elemAt s h.elem = some e ∧ e.guarded = true ∧ h.elem ∉ s.net.released

/-- The port's fixture is not one a route may end on (R88). -/
def PortBarred (s : State) (p : Nat) : Prop := ∃ n, portFixture s p = some n
  ∧ ¬((fixtureAt s n).state = .admitted ∧ (fixtureAt s n).owner = .localOwner)

/-- Route `r` radiates while the permit is absent (R88). -/
def RouteExposed (s : State) (o : Origin) (r : Nat) : Prop :=
  o ≠ .drop ∧ permit s = false ∧ ∃ x, routeAt s r = some x ∧ x.radiates = true

theorem checkUndef_passes (o : Origin) (r : Nat) : checkUndef s o r = none ↔ ¬RouteUndef s o r := by
  unfold checkUndef RouteUndef routeState
  cases held : routeAt s r with
  | none => simp
  | some x => cases state : x.state <;> simp [state]

theorem checkUndef_fails {o : Origin} {r : Nat} (h : RouteUndef s o r) : checkUndef s o r = some (.undef, vnum r) := by
  unfold RouteUndef at h
  unfold checkUndef routeState
  rcases h with held | ⟨x, held, state, kept⟩
  · simp [held]
  · simp only [held, Option.map_some, state]
    rw [if_neg (by simpa using kept)]

theorem checkStale_passes (r : Nat) : checkStale s r = none ↔ ¬∃ x, routeAt s r = some x ∧ x.state = .stale := by
  unfold checkStale routeState
  cases routeAt s r <;> simp

theorem checkStale_fails {r : Nat} (h : ∃ x, routeAt s r = some x ∧ x.state = .stale) :
    checkStale s r = some (.stale, vnum r) := by
  obtain ⟨x, held, stale⟩ := h
  simp [checkStale, routeState, held, stale]

theorem routesConflict_iff (x y : Route) : routesConflict x y = true ↔ (∃ h ∈ x.hops, ∃ k ∈ y.hops, h.elem = k.elem)
    ∨ x.src = y.src ∨ x.src = y.dst ∨ x.dst = y.src ∨ x.dst = y.dst := by
  simp only [routesConflict, endsAt, claimsElem, Bool.or_eq_true, List.any_eq_true, beq_iff_eq, or_assoc]
  have swap : (∃ h ∈ x.hops, ∃ k ∈ y.hops, k.elem = h.elem) ↔ ∃ h ∈ x.hops, ∃ k ∈ y.hops, h.elem = k.elem := by
    simp only [eq_comm]
  rw [swap, eq_comm (a := y.src), eq_comm (a := y.dst) (b := x.src), eq_comm (a := y.src) (b := x.dst),
    eq_comm (a := y.dst) (b := x.dst)]

theorem Conflict.symm {a b : Nat} (h : Conflict s a b) : Conflict s b a := by
  obtain ⟨x, y, hx, hy, shared⟩ := h
  refine ⟨y, x, hy, hx, ?_⟩
  rcases shared with ⟨h, hm, k, km, same⟩ | same | same | same | same
  · exact .inl ⟨k, km, h, hm, same.symm⟩
  · exact .inr (.inl same.symm)
  · exact .inr (.inr (.inr (.inl same.symm)))
  · exact .inr (.inr (.inl same.symm))
  · exact .inr (.inr (.inr (.inr same.symm)))

theorem mem_routesWhere (l : List Nat) (q : Route → Bool) (r : Nat) :
    r ∈ routesWhere s l q ↔ r ∈ l ∧ ∃ x, routeAt s r = some x ∧ q x = true := by
  unfold routesWhere
  rw [List.mem_filter]
  cases routeAt s r <;> simp

theorem checkConflict_cons_free {seen l : List Nat} {r : Nat} (free : ∀ b ∈ seen, ¬Conflict s b r) :
    checkConflict s seen (r :: l) = checkConflict s (r :: seen) l := by
  rw [checkConflict]
  cases held : routeAt s r with
  | none => rfl
  | some x =>
    refine if_pos (List.isEmpty_iff.2 (List.eq_nil_iff_forall_not_mem.2 fun b mem => ?_))
    obtain ⟨mem, y, held', conflict⟩ := (mem_routesWhere _ _ _).1 mem
    have : Conflict s r b := ⟨x, y, held, held', (routesConflict_iff x y).1 conflict⟩
    exact free b mem this.symm

theorem checkConflict_cons_found {seen l : List Nat} {r b : Nat} (mem : b ∈ seen) (conflict : Conflict s b r) :
    checkConflict s seen (r :: l) = some (.conflict, vnum r) := by
  obtain ⟨x, y, held, held', shared⟩ := conflict.symm
  rw [checkConflict, held]
  refine if_neg fun empty => ?_
  have : b ∈ routesWhere s seen (routesConflict x) :=
    (mem_routesWhere _ _ _).2 ⟨mem, y, held', (routesConflict_iff x y).2 shared⟩
  rw [List.isEmpty_iff.1 empty] at this
  exact List.not_mem_nil this

theorem checkConflict_append {seen before l : List Nat} (apart : before.Pairwise fun a b => ¬Conflict s a b)
    (free : ∀ b ∈ seen, ∀ r ∈ before, ¬Conflict s b r) :
    checkConflict s seen (before ++ l) = checkConflict s (before.reverse ++ seen) l := by
  induction before generalizing seen with
  | nil => rfl
  | cons r before ih =>
    obtain ⟨here, apart⟩ := List.pairwise_cons.1 apart
    rw [List.cons_append, checkConflict_cons_free fun b mem => free b mem r List.mem_cons_self, ih apart,
      List.reverse_cons, List.append_assoc]
    · rfl
    · intro b mem c later
      rcases List.mem_cons.1 mem with rfl | mem
      · exact here c later
      · exact free b mem c (List.mem_cons_of_mem _ later)

theorem checkConflict_passes {seen l : List Nat} : checkConflict s seen l = none
    ↔ (∀ b ∈ seen, ∀ r ∈ l, ¬Conflict s b r) ∧ l.Pairwise fun a b => ¬Conflict s a b := by
  induction l generalizing seen with
  | nil => simp [checkConflict]
  | cons r l ih =>
    by_cases free : ∀ b ∈ seen, ¬Conflict s b r
    · rw [checkConflict_cons_free free, ih]
      simp only [List.forall_mem_cons, List.pairwise_cons]
      constructor
      · rintro ⟨⟨here, rest⟩, apart⟩
        exact ⟨fun b mem => ⟨free b mem, rest b mem⟩, here, apart⟩
      · rintro ⟨rest, here, apart⟩
        exact ⟨⟨here, fun b mem => (rest b mem).2⟩, apart⟩
    · simp only [Classical.not_forall, Classical.not_not] at free
      obtain ⟨b, mem, conflict⟩ := free
      rw [checkConflict_cons_found mem conflict]
      simp only [reduceCtorEq, false_iff, not_and]
      exact fun rest => absurd conflict (rest b mem r List.mem_cons_self)

/-- One hop's judgement on use. -/
def judgeUse (s : State) (h : Hop) : Option CheckFail :=
  match elemAt s h.elem with
  | some e => if elemUsable s e then none else some (.unavail, .elem h.elem)
  | none => some (.unavail, .elem h.elem)

/-- One hop's judgement on guard. -/
def judgeGuard (s : State) (h : Hop) : Option CheckFail :=
  match elemAt s h.elem with
  | some e => if e.guarded && !s.net.released.contains h.elem then some (.guard, .elem h.elem) else none
  | none => none

/-- One port's judgement on its fixture. -/
def judgePort (s : State) (p : Nat) : Option CheckFail :=
  match portFixture s p with
  | some n =>
    let f := fixtureAt s n
    if f.state == .admitted && f.owner == .localOwner then none else some (.unavail, .fixt n)
  | none => none

theorem checkHops_some {r : Nat} {x : Route} (held : routeAt s r = some x) :
    checkHops s .unavail (elemUsable s) r = firstSome (judgeUse s) x.hops := by
  unfold checkHops
  rw [held]
  rfl

theorem checkGuard_some {r : Nat} {x : Route} (held : routeAt s r = some x) :
    checkGuard s r = firstSome (judgeGuard s) x.hops := by
  unfold checkGuard
  rw [held]
  rfl

theorem checkFixture_some {r : Nat} {x : Route} (held : routeAt s r = some x) :
    checkFixture s r = firstSome (judgePort s) [x.src, x.dst] := by
  unfold checkFixture
  rw [held]
  rfl

theorem judgeUse_passes (h : Hop) : judgeUse s h = none ↔ ¬HopUnusable s h := by
  unfold judgeUse HopUnusable elemUsable
  cases elemAt s h.elem <;> simp

theorem judgeUse_fails {h : Hop} (bad : HopUnusable s h) : judgeUse s h = some (.unavail, .elem h.elem) := by
  have := mt (judgeUse_passes h).1 (Classical.not_not.2 bad)
  unfold judgeUse at this ⊢
  (repeat' split) <;> simp_all

theorem judgeGuard_passes (h : Hop) : judgeGuard s h = none ↔ ¬HopGuarded s h := by
  unfold judgeGuard HopGuarded
  cases elemAt s h.elem <;> simp

theorem judgeGuard_fails {h : Hop} (bad : HopGuarded s h) : judgeGuard s h = some (.guard, .elem h.elem) := by
  obtain ⟨e, held, guarded, unreleased⟩ := bad
  simp [judgeGuard, held, guarded, unreleased]

theorem judgePort_passes (p : Nat) : judgePort s p = none ↔ ¬PortBarred s p := by
  unfold judgePort PortBarred
  cases portFixture s p <;> simp

theorem judgePort_fails {p n : Nat} (at_p : portFixture s p = some n) (bad : PortBarred s p) :
    judgePort s p = some (.unavail, .fixt n) := by
  obtain ⟨m, at_p', barred⟩ := bad
  rw [at_p] at at_p'
  cases at_p'
  simp [judgePort, at_p, barred]

theorem checkHops_passes (r : Nat) : checkHops s .unavail (elemUsable s) r = none ↔ ¬SomeHop s (HopUnusable s) r := by
  cases held : routeAt s r with
  | none => simp [checkHops, SomeHop, held]
  | some x => rw [checkHops_some held, firstSome_passes judgeUse_passes]; simp [SomeHop, held]

theorem checkGuard_passes (r : Nat) : checkGuard s r = none ↔ ¬SomeHop s (HopGuarded s) r := by
  cases held : routeAt s r with
  | none => simp [checkGuard, SomeHop, held]
  | some x => rw [checkGuard_some held, firstSome_passes judgeGuard_passes]; simp [SomeHop, held]

theorem checkFixture_passes (r : Nat) : checkFixture s r = none ↔ ¬SomeEnd s (PortBarred s) r := by
  cases held : routeAt s r with
  | none => simp [checkFixture, SomeEnd, held]
  | some x => rw [checkFixture_some held, firstSome_passes judgePort_passes]; simp [SomeEnd, held]

theorem checkPermit_passes (o : Origin) (r : Nat) : checkPermit s o r = none ↔ ¬RouteExposed s o r := by
  unfold checkPermit RouteExposed
  cases held : routeAt s r with
  | none => simp
  | some x => cases o <;> cases permit s <;> simp

theorem checkPermit_fails {o : Origin} {r : Nat} (h : RouteExposed s o r) : checkPermit s o r = some (.permit, vnum r) := by
  obtain ⟨asked, absent, x, held, radiates⟩ := h
  simp [checkPermit, held, radiates, absent, asked]

theorem orElse_eq_none {α : Type} (a b : Option α) : (a.orElse fun _ => b) = none ↔ a = none ∧ b = none := by
  cases a <;> simp

theorem checkSet_eq_none {q : Request} : checkSet s q = none ↔ firstSome (checkUndef s q.origin) q.target = none
    ∧ firstSome (checkStale s) q.target = none ∧ checkConflict s [] q.target = none
    ∧ firstSome (checkHops s .unavail (elemUsable s)) q.target = none ∧ firstSome (checkGuard s) q.target = none
    ∧ firstSome (checkFixture s) q.target = none ∧ firstSome (checkPermit s q.origin) q.target = none := by
  simp only [checkSet, orElse_eq_none]

/-- Settles O28. -/
theorem checkAdmitsUsableRoutes : Obligations.CheckAdmitsUsableRoutes := by
  intro s q undef stale conflict unusable guarded barred exposed someHop someEnd pass1 pass2 pass3 pass4 pass5 pass6
  have ok1 (h : pass1) : firstSome (checkUndef s q.origin) q.target = none := (firstSome_passes (checkUndef_passes _) _).2 h
  have ok2 (h : pass2) : firstSome (checkStale s) q.target = none := (firstSome_passes checkStale_passes _).2 h.2
  have ok3 (h : pass3) : checkConflict s [] q.target = none := checkConflict_passes.2 ⟨by simp, h.2⟩
  have ok4 (h : pass4) : firstSome (checkHops s .unavail (elemUsable s)) q.target = none :=
    (firstSome_passes checkHops_passes _).2 h.2
  have ok5 (h : pass5) : firstSome (checkGuard s) q.target = none := (firstSome_passes checkGuard_passes _).2 h.2
  have ok6 (h : pass6) : firstSome (checkFixture s) q.target = none := (firstSome_passes checkFixture_passes _).2 h.2
  refine ⟨fun r first => ?_, fun r pass first => ?_, fun before r after pass is apart found => ?_,
    fun r x h pass first held hop => ?_, fun r x h pass first held hop => ?_, fun r x p n pass first held ends at_p => ?_,
    fun r pass first => ?_, ⟨fun none => ?_, fun ⟨pass, permitted⟩ => ?_⟩⟩
  · have fails := firstSome_of_firstWith (checkUndef_passes q.origin) first (checkUndef_fails first.choose_spec.choose_spec.2.2)
    simp [checkSet, fails]
  · have fails := firstSome_of_firstWith checkStale_passes first (checkStale_fails first.choose_spec.choose_spec.2.2)
    simp [checkSet, ok1 pass, fails]
  · obtain ⟨b, mem, shared⟩ := found
    have fails : checkConflict s [] q.target = some (.conflict, vnum r) := by
      rw [is, checkConflict_append apart (by simp), checkConflict_cons_found (b := b) (by simpa using mem) shared]
    simp [checkSet, ok1 pass.1, ok2 pass, fails]
  · have at_h := firstSome_of_firstWith judgeUse_passes hop (judgeUse_fails hop.choose_spec.choose_spec.2.2)
    have fails := firstSome_of_firstWith checkHops_passes first ((checkHops_some held).trans at_h)
    simp [checkSet, ok1 pass.1.1, ok2 pass.1, ok3 pass, fails]
  · have at_h := firstSome_of_firstWith judgeGuard_passes hop (judgeGuard_fails hop.choose_spec.choose_spec.2.2)
    have fails := firstSome_of_firstWith checkGuard_passes first ((checkGuard_some held).trans at_h)
    simp [checkSet, ok1 pass.1.1.1, ok2 pass.1.1, ok3 pass.1, ok4 pass, fails]
  · have at_end := firstSome_of_firstWith judgePort_passes ends (judgePort_fails at_p ends.choose_spec.choose_spec.2.2)
    have fails := firstSome_of_firstWith checkFixture_passes first ((checkFixture_some held).trans at_end)
    simp [checkSet, ok1 pass.1.1.1.1, ok2 pass.1.1.1, ok3 pass.1.1, ok4 pass.1, ok5 pass, fails]
  · have fails := firstSome_of_firstWith (checkPermit_passes q.origin) first (checkPermit_fails first.choose_spec.choose_spec.2.2)
    simp [checkSet, ok1 pass.1.1.1.1.1, ok2 pass.1.1.1.1, ok3 pass.1.1.1, ok4 pass.1.1, ok5 pass.1, ok6 pass, fails]
  · obtain ⟨c1, c2, c3, c4, c5, c6, c7⟩ := checkSet_eq_none.1 none
    exact ⟨⟨⟨⟨⟨⟨(firstSome_passes (checkUndef_passes _) _).1 c1, (firstSome_passes checkStale_passes _).1 c2⟩,
      (checkConflict_passes.1 c3).2⟩, (firstSome_passes checkHops_passes _).1 c4⟩, (firstSome_passes checkGuard_passes _).1 c5⟩,
      (firstSome_passes checkFixture_passes _).1 c6⟩, (firstSome_passes (checkPermit_passes _) _).1 c7⟩
  · exact checkSet_eq_none.2 ⟨ok1 pass.1.1.1.1.1, ok2 pass.1.1.1.1, ok3 pass.1.1.1, ok4 pass.1.1, ok5 pass.1, ok6 pass,
      (firstSome_passes (checkPermit_passes _) _).2 permitted⟩

end Sys2Proof.StepLaws

/-! ### What an accepted request records (O29), and a card that leaves ENABLED (O33) -/

namespace Sys2Proof.StepLaws

open Sys2Proof.Machine Sys2Proof.Laws

variable {s t u : State}

/-! #### What the record keeps of the routes -/

theorem mem_claimedBy (l : List Nat) (e : Nat) :
    e ∈ claimedBy s l ↔ ∃ r ∈ l, ∃ y, routeAt s r = some y ∧ ∃ h ∈ y.hops, h.elem = e := by
  simp only [claimedBy, List.mem_flatMap]
  refine exists_congr fun r => and_congr_right fun _ => ?_
  cases routeAt s r <;> simp

theorem mem_fixturesOf (l : List Nat) (n : Nat) : n ∈ fixturesOf s l
    ↔ ∃ r ∈ l, ∃ y, routeAt s r = some y ∧ (portFixture s y.src = some n ∨ portFixture s y.dst = some n) := by
  simp only [fixturesOf, List.mem_flatMap]
  refine exists_congr fun r => and_congr_right fun _ => ?_
  cases routeAt s r <;> simp

theorem routesWhere_nonempty (l : List Nat) (q : Route → Bool) :
    (!(routesWhere s l q).isEmpty) = true ↔ ∃ r ∈ l, ∃ y, routeAt s r = some y ∧ q y = true := by
  rw [Bool.not_eq_true', List.isEmpty_eq_false_iff_exists_mem]
  constructor
  · rintro ⟨r, mem⟩
    obtain ⟨mem, found⟩ := (mem_routesWhere l q r).1 mem
    exact ⟨r, mem, found⟩
  · rintro ⟨r, mem, found⟩
    exact ⟨r, (mem_routesWhere l q r).2 ⟨mem, found⟩⟩

theorem anyRadiates_iff (l : List Nat) : anyRadiates s l = true ↔ ∃ r ∈ l, ∃ y, routeAt s r = some y ∧ y.radiates = true :=
  routesWhere_nonempty l _

theorem anyCarries_iff (l : List Nat) : anyCarries s l = true ↔ ∃ r ∈ l, ∃ y, routeAt s r = some y ∧ y.carries = true :=
  routesWhere_nonempty l _

theorem claimsElem_iff (x : Route) (e : Nat) : claimsElem x e = true ↔ ∃ h ∈ x.hops, h.elem = e := by
  simp [claimsElem]

theorem routeAt_accept (q : Request) (s : State) (r : Nat) : routeAt (accept q s) r
    = (routeAt s r).map fun x => { x with pending := x.pending || (q.target.contains r && x.state == .ready) } := by
  show routeAt (markPending q.target s) r = _
  rw [markPending, routeAt, State.setRoutes_routes, tget_tmap]
  rfl

/-! #### The plan -/

/-- The position a plan gives an element that it drives (R89). -/
def wantedPos (s : State) (target : List Nat) (e : Nat) (x : Elem) : Nat := (requiredPos s target e).getD (restOf x.kind)

/-- A plan drives an element that a route of B requires, or that may be driven to rest, unless it stands there (R89). -/
def PlanDrives (s : State) (target : List Nat) (e : Nat) (x : Elem) : Prop :=
  (requiredPos s target e ≠ none ∨ cardEnabled s x.card = true ∧ x.faulted = false) ∧ x.pos ≠ some (wantedPos s target e x)

theorem planElem_iff (target : List Nat) (e : Nat) (x : Elem) (k : Nat) :
    planElem s target e x = some k ↔ PlanDrives s target e x ∧ k = wantedPos s target e x := by
  unfold planElem PlanDrives
  rw [show (requiredPos s target e).getD (restOf x.kind) = wantedPos s target e x from rfl]
  dsimp only
  by_cases required : (requiredPos s target e).isNone && !elemUsable s x
  · rw [if_pos required]
    simp only [elemUsable, Bool.and_eq_true, Option.isNone_iff_eq_none, Bool.not_eq_true', Bool.and_eq_false_iff,
      Bool.not_eq_false'] at required
    obtain ⟨free, unusable⟩ := required
    simp only [reduceCtorEq, false_iff, free, ne_eq, not_true_eq_false, false_or]
    rcases unusable with off | faulted
    · simp [off]
    · simp [faulted]
  · rw [if_neg required]
    have may : requiredPos s target e ≠ none ∨ cardEnabled s x.card = true ∧ x.faulted = false := by
      refine Classical.byContradiction fun no => ?_
      rw [not_or, Classical.not_not] at no
      refine required ?_
      cases on : cardEnabled s x.card <;> cases faulted : x.faulted <;> simp_all [elemUsable]
    by_cases there : x.pos = some (wantedPos s target e x)
    · rw [if_pos there]
      simp [there]
    · rw [if_neg there]
      simp only [Option.some.injEq, may, true_and, ne_eq, there, not_false_eq_true]
      exact eq_comm

theorem mem_planDrives (wf : tableWf s.net.elems = true) (target : List Nat) (e k : Nat) (x : Elem) :
    ((e, x, k) : Nat × Elem × Nat) ∈ planDrives s target ↔ elemAt s e = some x ∧ PlanDrives s target e x ∧ k = wantedPos s target e x := by
  unfold planDrives
  rw [List.mem_filterMap]
  constructor
  · rintro ⟨⟨f, y⟩, mem, is⟩
    obtain ⟨j, planned, same⟩ := Option.map_eq_some_iff.1 is
    cases same
    exact ⟨tget_of_mem wf mem, (planElem_iff target _ _ _).1 planned⟩
  · rintro ⟨at_e, planned⟩
    exact ⟨(e, x), mem_of_tget at_e, Option.map_eq_some_iff.2 ⟨k, (planElem_iff target e x k).2 planned, rfl⟩⟩

theorem mem_breakList (wf : tableWf s.net.elems = true) (target : List Nat) (e : Nat) :
    e ∈ breakList (planDrives s target)
      ↔ ∃ x, elemAt s e = some x ∧ PlanDrives s target e x ∧ x.pos ≠ some (restOf x.kind) := by
  unfold breakList
  simp only [List.mem_map, List.mem_filter, bne_iff_ne]
  constructor
  · rintro ⟨⟨f, x, k⟩, ⟨mem, off⟩, rfl⟩
    obtain ⟨at_e, drives, -⟩ := (mem_planDrives wf target f k x).1 mem
    exact ⟨x, at_e, drives, off⟩
  · rintro ⟨x, at_e, drives, off⟩
    exact ⟨(e, x, _), ⟨(mem_planDrives wf target e _ x).2 ⟨at_e, drives, rfl⟩, off⟩, rfl⟩

theorem mem_makeList (wf : tableWf s.net.elems = true) (target : List Nat) (e k : Nat) :
    ((e, k) : Nat × Nat) ∈ makeList (planDrives s target) ↔ ∃ x, elemAt s e = some x ∧ PlanDrives s target e x
      ∧ k = wantedPos s target e x ∧ wantedPos s target e x ≠ restOf x.kind := by
  unfold makeList
  simp only [List.mem_map, List.mem_filter, bne_iff_ne]
  constructor
  · rintro ⟨⟨f, x, j⟩, ⟨mem, off⟩, is⟩
    cases is
    obtain ⟨at_e, drives, same⟩ := (mem_planDrives wf target _ _ x).1 mem
    exact ⟨x, at_e, drives, same, same ▸ off⟩
  · rintro ⟨x, at_e, drives, rfl, off⟩
    exact ⟨(e, x, _), ⟨(mem_planDrives wf target e _ x).2 ⟨at_e, drives, rfl⟩, off⟩, rfl⟩

theorem keys_filterMap_ascend {α β : Type} (l : Table α) (f : Nat × α → Option (Nat × β))
    (key : ∀ q r, f q = some r → r.1 = q.1) (wf : tableWf l = true) : (l.filterMap f).Pairwise fun a b => a.1 < b.1 := by
  rw [List.pairwise_filterMap]
  refine ((tableWf_iff l).1 wf).imp fun {p q} lt a is_p b is_q => ?_
  rw [key p a is_p, key q b is_q]
  exact lt

theorem planDrives_ascend (target : List Nat) (wf : tableWf s.net.elems = true) :
    (planDrives s target).Pairwise fun a b => a.1 < b.1 :=
  keys_filterMap_ascend _ _ (fun q r is => by obtain ⟨_, _, rfl⟩ := Option.map_eq_some_iff.1 is; rfl) wf

theorem planNeedsMute_iff (old target : List Nat) (l : List (Nat × Elem × Nat)) : planNeedsMute s old target l = true
    ↔ ∃ e x k, (e, x, k) ∈ l ∧ isEm x.kind = true ∧ (e ∈ breakList l ∨ ∃ j, (e, j) ∈ makeList l)
      ∧ ∃ r ∈ old ++ target, ∃ y, routeAt s r = some y ∧ y.carries = true ∧ ∃ h ∈ y.hops, h.elem = e := by
  have listed (e : Nat) : ((breakList l).contains e || (makeList l).any fun q => q.1 == e) = true
      ↔ e ∈ breakList l ∨ ∃ j, (e, j) ∈ makeList l := by
    simp only [Bool.or_eq_true, List.contains_iff_mem, List.any_eq_true, beq_iff_eq]
    exact or_congr_right ⟨fun ⟨q, mem, is⟩ => ⟨q.2, by rw [← is]; exact mem⟩, fun ⟨j, mem⟩ => ⟨_, mem, rfl⟩⟩
  unfold planNeedsMute
  rw [List.any_eq_true]
  constructor
  · rintro ⟨⟨e, x, k⟩, mem, holds⟩
    rw [Bool.and_eq_true, Bool.and_eq_true, listed, routesWhere_nonempty] at holds
    obtain ⟨⟨em, on⟩, r, old, y, held, both⟩ := holds
    rw [Bool.and_eq_true, claimsElem_iff] at both
    exact ⟨e, x, k, mem, em, on, r, old, y, held, both.1, both.2⟩
  · rintro ⟨e, x, k, mem, em, on, r, old, y, held, carries, claims⟩
    refine ⟨(e, x, k), mem, ?_⟩
    rw [Bool.and_eq_true, Bool.and_eq_true, listed e, routesWhere_nonempty]
    exact ⟨⟨em, on⟩, r, old, y, held, by rw [Bool.and_eq_true, claimsElem_iff]; exact ⟨carries, claims⟩⟩

/-- Settles O29. -/
theorem acceptedRequestsArePlanned : Obligations.AcceptedRequestsArePlanned := by
  refine ⟨fun s q => ?_, fun s q wf => ?_⟩
  · intro t v
    refine ⟨rfl, ⟨rfl, rfl, rfl, rfl, rfl, rfl, rfl, rfl, rfl, rfl, rfl⟩,
      ⟨mem_claimedBy _, mem_fixturesOf _, anyRadiates_iff _⟩, rfl, fun r x held => ?_, rfl⟩
    rw [routeAt_accept, held]
    rfl
  · intro t
    have brk (e : Nat) : e ∈ t.brk ↔ _ := mem_breakList wf q.target e
    have mak (e k : Nat) : (e, k) ∈ t.mak ↔ _ := mem_makeList wf q.target e k
    refine ⟨fun e x at_e => ?_, fun e undef => ?_, ⟨?_, ?_⟩, ?_⟩
    · intro claimed want driven
      refine ⟨(brk e).trans ⟨fun ⟨y, at_y, rest⟩ => ?_, fun rest => ⟨x, at_e, rest⟩⟩,
        fun k => (mak e k).trans ⟨fun ⟨y, at_y, rest⟩ => ?_, fun rest => ⟨x, at_e, rest⟩⟩⟩
      · rw [at_e] at at_y
        cases at_y
        exact rest
      · rw [at_e] at at_y
        cases at_y
        exact rest
    · refine ⟨fun mem => ?_, fun k mem => ?_⟩
      · obtain ⟨x, at_e, -⟩ := (brk e).1 mem
        rw [undef] at at_e
        contradiction
      · obtain ⟨x, at_e, -⟩ := (mak e k).1 mem
        rw [undef] at at_e
        contradiction
    · exact List.pairwise_map.2 ((planDrives_ascend q.target wf).sublist List.filter_sublist)
    · exact List.pairwise_map.2 ((planDrives_ascend q.target wf).sublist List.filter_sublist)
    · refine (planNeedsMute_iff s.engine.applied q.target (planDrives s q.target)).trans ⟨?_, ?_⟩
      · rintro ⟨e, x, k, mem, em, rest⟩
        exact ⟨e, x, ((mem_planDrives wf q.target e k x).1 mem).1, em, rest⟩
      · rintro ⟨e, x, at_e, em, on, rest⟩
        have drives : PlanDrives s q.target e x := by
          rcases on with mem | ⟨k, mem⟩
          · obtain ⟨y, at_y, drives, -⟩ := (brk e).1 mem
            rw [at_e] at at_y
            cases at_y
            exact drives
          · obtain ⟨y, at_y, drives, -⟩ := (mak e k).1 mem
            rw [at_e] at at_y
            cases at_y
            exact drives
        exact ⟨e, x, _, (mem_planDrives wf q.target e _ x).2 ⟨at_e, drives, rfl⟩, em, on, rest⟩

/-! #### A card that leaves ENABLED -/

theorem positionOff_failsafe {x : Elem} (h : x.kind = .failsafe) (m : Bool) : positionOff m x = some 1 := by simp [positionOff, h]
theorem positionOff_solid {x : Elem} (h : x.kind = .solid) (m : Bool) : positionOff m x = some 0 := by simp [positionOff, h]
theorem positionOff_latch {x : Elem} (h : x.kind = .latch) (m : Bool) : positionOff m x = if m then none else x.pos := by
  simp [positionOff, h]

theorem claimsAny_eq (x : Route) (l : List Nat) : claimsAny x l = x.hops.any fun h => l.contains h.elem := by
  rw [Bool.eq_iff_iff]
  simp only [claimsAny, claimsElem, List.any_eq_true, beq_iff_eq, List.contains_iff_mem]
  exact ⟨fun ⟨e, mem, h, hop, is⟩ => ⟨h, hop, is ▸ mem⟩, fun ⟨h, hop, mem⟩ => ⟨_, mem, h, hop, rfl⟩⟩

theorem routesWhere_claims (l on : List Nat) (s : State) : routesWhere s l (fun r => claimsAny r on)
    = l.filter fun r => (routeAt s r).any fun x => x.hops.any fun h => on.contains h.elem := by
  refine List.filter_congr fun r _ => ?_
  cases routeAt s r with
  | none => rfl
  | some x => exact claimsAny_eq x on

theorem dropCardDrives_whole (n : Nat) (s : State) :
    dropCardDrives n s = (s.setNet (dropCardDrives n s).net).setEngine (dropCardDrives n s).engine := by
  rw [dropCardDrives_eq]
  rfl

/-- A card's record in another state, with the flags that a change of state sets outside discovery (R146, R152). -/
def changedCard (new : CardState) (discovery : Bool) (c : Card) : Card :=
  if c.state = new then c
  else if discovery then { c with state := new }
  else
    let presence := c.state == .absent || new == .absent
    { c with state := new, presenceChg := c.presenceChg || presence, stateChg := c.stateChg || !presence }

theorem changeCard_cards (n : Nat) (new : CardState) (s : State) : (changeCard n new s).cards
    = if (cardAt s n).state = new then s.cards
      else bput cardReset s.cards n (changedCard new (s.phase == .discovery) (cardAt s n)) := by
  unfold changeCard changedCard
  dsimp only
  by_cases same : (cardAt s n).state = new
  · rw [if_pos same, if_pos same]
  · rw [if_neg same, if_neg same, if_neg same]
    cases s.phase == .discovery with
    | true => rfl
    | false => simp [setCard]

theorem tableWf_changeCard (n : Nat) (new : CardState) (wf : tableWf s.cards = true) :
    tableWf (changeCard n new s).cards = true := by
  rw [changeCard_cards]
  split
  · exact wf
  · exact tableWf_bput _ _ _ wf

theorem cardAt_changeCard (wf : tableWf s.cards = true) (n m : Nat) (new : CardState) : cardAt (changeCard n new s) m
    = if m = n then changedCard new (s.phase == .discovery) (cardAt s n) else cardAt s m := by
  rw [cardAt, changeCard_cards]
  by_cases same : (cardAt s n).state = new
  · rw [if_pos same, changedCard, if_pos same]
    by_cases here : m = n
    · rw [if_pos here, here]; rfl
    · rw [if_neg here]; rfl
  · rw [if_neg same]
    exact cardAt_setCard wf n m _

theorem changedCard_state (new : CardState) (discovery : Bool) (c : Card) : (changedCard new discovery c).state = new := by
  unfold changedCard
  split
  · assumption
  · split <;> rfl

theorem cardAt_endRestart (wf : tableWf s.cards = true) (n m : Nat) (new : CardState) : cardAt (endRestart n new s) m
    = if m = n then { changedCard new (s.phase == .discovery) (cardAt s n) with restart := none } else cardAt s m := by
  have same : cardAt (endRestart n new s) m
      = cardAt (setCard n { cardAt (changeCard n new s) n with restart := none } (changeCard n new s)) m := by
    rw [endRestart, cardAt, opEnded_spec]
    rfl
  rw [same, cardAt_setCard (tableWf_changeCard n new wf), cardAt_changeCard wf, cardAt_changeCard wf, if_pos rfl]
  by_cases here : m = n
  · rw [if_pos here, if_pos here]
  · rw [if_neg here, if_neg here, if_neg here]

theorem card_endRestart_absent (wf : tableWf s.cards = true) (n : Nat) : (cardAt (endRestart n .absent s) n).state = .absent
    ∧ (cardAt (endRestart n .absent s) n).restart = none
    ∧ (s.phase ≠ .discovery → (cardAt s n).state ≠ .absent → (cardAt (endRestart n .absent s) n).presenceChg = true) := by
  rw [cardAt_endRestart wf, if_pos rfl]
  refine ⟨changedCard_state _ _ _, rfl, fun phase away => ?_⟩
  simp [changedCard, away, phase]

theorem leaveEnabled_still (n : Nat) (still : inFlight s = false) : leaveEnabled n s
    = advanceAll (tearAll .card (s.engine.applied.filter fun r => (routeAt s r).any fun x =>
        x.hops.any fun h => (elemsOnCard s n).contains h.elem) (dropCardDrives n (setPulses n (fun _ => 0) s))) := by
  have flight : inFlight (dropCardDrives n (setPulses n (fun _ => 0) s)) = false := by
    rw [dropCardDrives_eq]
    exact still
  rw [← routesWhere_claims]
  unfold leaveEnabled cardLeft
  dsimp only
  rw [if_neg (by simp [flight])]
  have routes : (dropCardDrives n (setPulses n (fun _ => 0) s)).routes = s.routes := by rw [dropCardDrives_eq]; rfl
  have applied : (dropCardDrives n (setPulses n (fun _ => 0) s)).engine.applied = s.engine.applied := by
    rw [dropCardDrives_eq]; rfl
  have same (l : List Nat) (q : Route → Bool) :
      routesWhere (dropCardDrives n (setPulses n (fun _ => 0) s)) l q = routesWhere s l q := by
    unfold routesWhere routeAt
    rw [routes]
  rw [same, applied]
  rfl

theorem leaveEnabled_inFlight {n : Nat} {t' : Trans} (flight : inFlight s = true)
    (held : (dropCardDrives n (setPulses n (fun _ => 0) s)).engine.trans = some t') :
    leaveEnabled n s = advanceAll ((dropCardDrives n (setPulses n (fun _ => 0) s)).setEngine
      { (dropCardDrives n (setPulses n (fun _ => 0) s)).engine with trans := some (noteCard (elemsOnCard s n) t') }) := by
  have moving : inFlight (dropCardDrives n (setPulses n (fun _ => 0) s)) = true := by
    rw [dropCardDrives_eq]
    exact flight
  unfold leaveEnabled cardLeft
  dsimp only
  rw [if_pos moving, updTrans, held]
  rfl

theorem noteCard_concerned_iff (on : List Nat) (t : Trans) :
    (on.any fun e => t.brk.contains e || (t.mak.any fun p => p.1 == e) || t.claimed.contains e) = true
      ↔ ∃ e ∈ on, e ∈ t.brk ∨ (∃ k, (e, k) ∈ t.mak) ∨ e ∈ t.claimed := by
  simp only [List.any_eq_true, Bool.or_eq_true, List.contains_iff_mem, beq_iff_eq, or_assoc]
  refine exists_congr fun e => and_congr_right fun _ => or_congr_right (or_congr_left ?_)
  exact ⟨fun ⟨q, mem, is⟩ => ⟨q.2, by rw [← is]; exact mem⟩, fun ⟨k, mem⟩ => ⟨_, mem, rfl⟩⟩

/-- Settles O33. -/
theorem lostCardsParkTheirElements : Obligations.LostCardsParkTheirElements := by
  refine ⟨fun s n => ?_, fun s n => ?_, fun s => ?_⟩
  · intro v on moving
    have engine : v.engine = _ := dropCardDrives_engine n s
    have off (e : Nat) : (!(elemsOnCard s n).contains e) = true ↔ ¬on e := by simp [on]
    have moves (e : Nat) : (s.engine.active.map fun d => d.elem).contains e = true ↔ moving e := by simp [moving]
    refine ⟨fun e x at_e => ⟨fun other => ?_, fun here => ?_⟩, fun e undef => ?_, ?_, fun d => ?_, fun e => ?_, fun p => ?_,
      fun e => ?_, fun still => ?_, fun t flight held => ?_, ⟨?_, ?_, ?_⟩, ?_, dropCardDrives_whole n s⟩
    · simp [v, elemAt_dropCardDrives, at_e, other]
    · refine ⟨{ x with pos := positionOff ((s.engine.active.map fun d => d.elem).contains e) x }, ?_, rfl,
        fun kind => positionOff_failsafe kind _, fun kind => positionOff_solid kind _, fun kind m => ?_, fun kind m => ?_⟩
      · simp [v, elemAt_dropCardDrives, at_e, here]
      · dsimp only
        rw [positionOff_latch kind, if_pos ((moves e).2 m)]
      · dsimp only
        rw [positionOff_latch kind, if_neg (mt (moves e).1 m)]
    · simp [v, elemAt_dropCardDrives, undef]
    · simp only [v]
      rw [dropCardDrives_eq]
      rfl
    · rw [engine]
      exact List.mem_filter.trans (and_congr_right fun _ => off _)
    · rw [engine]
      exact List.mem_filter.trans (and_congr_right fun _ => off _)
    · rw [engine]
      exact List.mem_filter.trans (and_congr_right fun _ => off _)
    · rw [engine]
      dsimp only [engineWithout]
      cases s.engine.survey.current with
      | none => simp
      | some f =>
        dsimp only
        split
        · rename_i isOn
          have isOn : on f := by simpa [on] using isOn
          refine ⟨fun h => by contradiction, fun ⟨is, no⟩ => ?_⟩
          cases is
          exact absurd isOn no
        · rename_i notOn
          have notOn : ¬on f := by simpa [on] using notOn
          exact ⟨fun is => ⟨is, by cases is; exact notOn⟩, fun h => h.1⟩
    · rw [engine]
      rcases still with still | none
      · simp [still]
      · simp [none]
    · refine ⟨transWithout (elemsOnCard s n) t, by rw [engine]; simp [flight, held], rfl, List.filter_sublist,
        fun e => ?_, List.filter_sublist, fun p => ?_⟩
      · exact List.mem_filter.trans (and_congr_right fun _ => off _)
      · exact List.mem_filter.trans (and_congr_right fun _ => off _)
    · rw [engine]; exact List.filter_sublist
    · rw [engine]; exact List.filter_sublist
    · rw [engine]; exact List.filter_sublist
    · rw [engine]; rfl
  · intro on w claiming
    refine ⟨fun wf e => ?_, leaveEnabled_still n, fun t t' flight held held' => ?_⟩
    · exact (mem_tkeys wf).trans (exists_congr fun x => and_congr_right fun _ => beq_iff_eq)
    · intro noted concerned
      have left := leaveEnabled_inFlight flight held'
      have is : t' = transWithout on t := by
        rw [show w.engine = _ from dropCardDrives_engine n _] at held'
        dsimp only at held'
        rw [if_pos (show inFlight (setPulses n (fun _ => 0) s) = true from flight),
          show (setPulses n (fun _ => 0) s).engine.trans = some t from held] at held'
        exact (Option.some.inj held').symm
      have listed := noteCard_concerned_iff on (transWithout on t)
      refine ⟨fun clear concern => ?_, fun either => ?_⟩
      · have note : noteCard on t' = { t' with notedElems := t.notedElems ++ on, firstFault := some .card } := by
          rw [is, noteCard, if_pos (listed.2 concern)]
          simp [noteFirst, transWithout, clear]
        rw [left, note]
      · have note : noteCard on t' = { t' with notedElems := t.notedElems ++ on, firstFault := t.firstFault } := by
          rw [is, noteCard]
          by_cases concern : concerned
          · rw [if_pos (listed.2 concern)]
            cases fault : t.firstFault with
            | none => exact absurd fault (either.resolve_right (Classical.not_not.2 concern))
            | some f => simp [noteFirst, transWithout, fault]
          · rw [if_neg (mt listed.1 concern)]
            rfl
        rw [left, note]
  · have judged (f : State) (is : noAnswer s = f) : exec .cardNoAnswer s = .next (settle f) := by
      rw [← is]
      rfl
    refine ⟨fun idle => judged _ (by simp [noAnswer, idle]), fun n c e either => ⟨fun away => judged _ ?_, fun enabled => judged _ ?_⟩,
      fun n either => ?_, fun n round => judged _ (by simp [noAnswer, pollDone, round]),
      fun n discovery => judged _ (by simp [noAnswer, pollDone, discovery])⟩
    · have away : cardEnabled (setTx none s) n = false := away
      rcases either with ⟨p, w, tx⟩ | ⟨survey, tx⟩ <;> simp [noAnswer, tx, away]
    · have enabled : cardEnabled (setTx none s) n = true := enabled
      rcases either with ⟨p, w, tx⟩ | ⟨survey, tx⟩ <;> simp [noAnswer, tx, enabled, loseCard]
    · refine ⟨noAnswer s, judged _ rfl, ?_⟩
      rcases either with tx | tx
      · have is : noAnswer s = endRestart n .absent (setTx none s) := by simp [noAnswer, tx]
        rw [is]
        exact ⟨by simp [setTx], fun wf => card_endRestart_absent (s := setTx none s) wf n⟩
      · have is : noAnswer s = endRestart n .absent (setLast n .silent (setTx none s)) := by simp [noAnswer, tx, restartPolled]
        rw [is]
        refine ⟨by simp [setTx], fun wf => ?_⟩
        obtain ⟨state, restart, flag⟩ := card_endRestart_absent (s := setLast n .silent (setTx none s)) (tableWf_bput _ _ _ wf) n
        have same : (cardAt (setLast n .silent (setTx none s)) n).state = (cardAt s n).state := by
          rw [setLast, cardAt_setCard (s := setTx none s) wf, if_pos rfl]
          rfl
        exact ⟨state, restart, fun phase away => flag phase (same ▸ away)⟩

end Sys2Proof.StepLaws

/-! ### Routes torn at once (O37) -/

namespace Sys2Proof.StepLaws

open Sys2Proof.Machine Sys2Proof.Laws

variable {s t u : State}

/-! #### The ring told of a tear -/

theorem currentGroup_congr (h : t.ring = s.ring) : currentGroup t = currentGroup s := by
  unfold currentGroup stepAt
  rw [h]

/-- A tear of route `r` halts the ring (R134). -/
def Halting (s : State) (r : Nat) : Prop := (s.ring.state = .dwelling ∨ s.ring.state = .held) ∧ r ∈ currentGroup s

theorem halting_congr (h : t.ring = s.ring) (r : Nat) : Halting t r ↔ Halting s r := by
  unfold Halting
  rw [currentGroup_congr h, h]

theorem ringTorn_halts {r : Nat} (c : TearCause) (h : Halting s r) : ringTorn c r s = haltRing (haltOfTear c) (vnum r) s := by
  obtain ⟨state, mem⟩ := h
  exact if_pos (by simpa [mem] using state)

theorem ringTorn_same {r : Nat} (c : TearCause) (h : ¬Halting s r) : ringTorn c r s = s :=
  if_neg fun c => h (by simpa [Halting] using c)

theorem haltRing_ring (c : HaltCause) (d : Val) (s : State) : (haltRing c d s).ring = ringHalted c d s.ring := by
  simp [haltRing]

theorem haltRing_engine (c : HaltCause) (d : Val) (s : State) : (haltRing c d s).engine = endedStaging false s.engine := by
  have same : (haltRing c d s).engine = (endStaging false (s.setRing (ringHalted c d s.ring))).engine := by simp [haltRing]
  rw [same, endStaging_eq]
  rfl

theorem not_halting_haltRing (c : HaltCause) (d : Val) (s : State) (r : Nat) : ¬Halting (haltRing c d s) r := by
  intro h
  have state := h.1
  rw [haltRing_ring] at state
  rcases state with h | h <;> contradiction

/-! #### One route torn -/

/-- A request that waits, without the routes `l` of a DROP's target set (R103). -/
def withoutRoutes (l : List Nat) (q : Request) : Request :=
  if q.origin = .drop then { q with target := q.target.filter fun r => !l.contains r } else q

/-- The engine when the routes `l` have left at once, before the ring is told (R106). -/
def engineLeft (l : List Nat) (g : Engine) : Engine :=
  { g with applied := l.foldl List.erase g.applied, waiting := g.waiting.map (withoutRoutes l) }

theorem withoutRoutes_nil (q : Request) : withoutRoutes [] q = q := by
  unfold withoutRoutes
  split
  · rw [List.filter_eq_self.2 fun _ _ => by rfl]
  · rfl

theorem withoutRoutes_append (k l : List Nat) (q : Request) : withoutRoutes l (withoutRoutes k q) = withoutRoutes (k ++ l) q := by
  unfold withoutRoutes
  by_cases drop : q.origin = .drop
  · simp [drop, List.filter_filter, Bool.and_comm]
  · simp [drop]

theorem engineLeft_nil (g : Engine) : engineLeft [] g = g := by
  have same : withoutRoutes [] = id := funext withoutRoutes_nil
  simp [engineLeft, same]

theorem engineLeft_append (k l : List Nat) (g : Engine) : engineLeft l (engineLeft k g) = engineLeft (k ++ l) g := by
  simp only [engineLeft, List.foldl_append, Option.map_map]
  congr 2
  funext q
  exact withoutRoutes_append k l q

/-- Ending staging and taking routes out of the applied set do not meet. -/
theorem endedStaging_engineLeft (empty : Bool) (l : List Nat) (g : Engine) :
    endedStaging empty (engineLeft l g) = engineLeft l (endedStaging empty g) := by
  unfold endedStaging engineLeft
  cases empty <;> dsimp only <;> (repeat' split) <;> rfl

theorem tearApplied_engine (c : TearCause) (r : Nat) (s : State) :
    (tearApplied c r s).engine = { s.engine with applied := s.engine.applied.erase r } := by
  have engine (s : State) : (routeLeave r s).engine = { s.engine with applied := s.engine.applied.erase r } := by
    rw [routeLeave_eq]
    cases routeAt s r with
    | none => rfl
    | some x => cases h : x.state <;> simp [h, withApplied]
  rw [show tearApplied c r s = routeLeave r (tornCause c r s) from rfl, engine]
  simp

/-- One route has left at once, before the ring is told. -/
def leftAtOnce (c : TearCause) (r : Nat) (s : State) : State := (tearApplied c r s).setEngine (engineLeft [r] s.engine)

theorem tearAtOnce_eq (c : TearCause) (r : Nat) (s : State) : tearAtOnce c r s = ringTorn c r (leftAtOnce c r s) := by
  have engine := tearApplied_engine c r s
  have waits : (tearApplied c r s).engine.waiting = s.engine.waiting := by rw [engine]
  unfold tearAtOnce leftAtOnce
  dsimp only
  rw [waits]
  cases held : s.engine.waiting with
  | none =>
    dsimp only
    rw [show engineLeft [r] s.engine = (tearApplied c r s).engine by rw [engine]; simp [engineLeft, held]]
    rfl
  | some q =>
    dsimp only
    by_cases drop : q.origin = .drop
    · have same : (fun x => x != r) = fun x => !([r] : List Nat).contains x := by
        funext x
        by_cases h : x = r <;> simp [h]
      rw [if_pos drop, engine, same]
      simp [engineLeft, held, withoutRoutes, drop]
    · rw [if_neg drop, show engineLeft [r] s.engine = (tearApplied c r s).engine by
        rw [engine]; simp [engineLeft, held, withoutRoutes, drop]]
      rfl

theorem leftAtOnce_ring (c : TearCause) (r : Nat) (s : State) : (leftAtOnce c r s).ring = s.ring := by simp [leftAtOnce]

/-- A tear of a route outside the ring's current group, or with the ring at rest. -/
theorem tearAtOnce_quiet {r : Nat} (c : TearCause) (h : ¬Halting s r) :
    (tearAtOnce c r s).ring = s.ring ∧ (tearAtOnce c r s).engine = engineLeft [r] s.engine := by
  rw [tearAtOnce_eq, ringTorn_same c (by rwa [halting_congr (leftAtOnce_ring c r s)])]
  exact ⟨leftAtOnce_ring c r s, rfl⟩

theorem tearAtOnce_halts {r : Nat} (c : TearCause) (h : Halting s r) :
    (tearAtOnce c r s).ring = ringHalted (haltOfTear c) (vnum r) s.ring
    ∧ (tearAtOnce c r s).engine = endedStaging false (engineLeft [r] s.engine) := by
  rw [tearAtOnce_eq, ringTorn_halts c (by rwa [halting_congr (leftAtOnce_ring c r s)])]
  exact ⟨by rw [haltRing_ring, leftAtOnce_ring], haltRing_engine _ _ _⟩

theorem tearAtOnce_routes (c : TearCause) (r : Nat) (s : State) : (tearAtOnce c r s).routes = (tearApplied c r s).routes := by
  rw [tearAtOnce_eq, leftAtOnce]
  simp

/-- The record a torn route leaves: READY or FREE when it was applied, with the cause (R75, R76). -/
def tornRecord (c : TearCause) (x : Route) : Option Route :=
  match x.state with
  | .applied => some { x with state := .ready, torn := some c }
  | .retiring => none
  | _ => some { x with torn := some c }

theorem tornRecord_applied {x : Route} (h : x.state = .applied) (c : TearCause) :
    tornRecord c x = some { x with state := .ready, torn := some c } := by
  simp [tornRecord, h]

theorem tornRecord_retiring {x : Route} (h : x.state = .retiring) (c : TearCause) : tornRecord c x = none := by
  simp [tornRecord, h]

theorem routeAt_tearApplied {s : State} (wf : tableWf s.routes = true) (c : TearCause) (r q : Nat) :
    routeAt (tearApplied c r s) q = if q = r then (routeAt s r).bind (tornRecord c)
      else routeAt s q := by
  have wf' : tableWf (tornCause c r s).routes = true := by
    unfold tornCause
    split
    · exact tableWf_tput _ _ wf
    · exact wf
  rw [show tearApplied c r s = routeLeave r (tornCause c r s) from rfl, routeAt_routeLeave wf', routeAt_tornCause,
    routeAt_tornCause, if_pos rfl]
  by_cases here : q = r
  · rw [if_pos here, if_pos here]
    cases routeAt s r with
    | none => rfl
    | some x => cases h : x.state <;> simp [h, tornRecord]
  · rw [if_neg here, if_neg here, if_neg here]

theorem tableWf_tearApplied (wf : tableWf s.routes = true) (c : TearCause) (r : Nat) :
    tableWf (tearApplied c r s).routes = true := by
  have wf' : tableWf (tornCause c r s).routes = true := by
    unfold tornCause
    split
    · exact tableWf_tput _ _ wf
    · exact wf
  rw [show tearApplied c r s = routeLeave r (tornCause c r s) from rfl, routeLeave_eq]
  dsimp only
  split
  · split
    · exact tableWf_tput _ _ wf'
    · rw [(notify_spec _ _).1]; exact tableWf_tdel _ wf'
    · exact wf'
  · exact wf'

/-! #### Routes torn one after the other -/

/-- The routes `l` torn at once in turn, before the latch. -/
def tearEach (c : TearCause) (l : List Nat) (s : State) : State := l.foldl (fun s r => tearAtOnce c r s) s

theorem tearEach_append (c : TearCause) (k l : List Nat) (s : State) :
    tearEach c (k ++ l) s = tearEach c l (tearEach c k s) := List.foldl_append

theorem tearEach_quiet {l : List Nat} (c : TearCause) (h : ∀ r ∈ l, ¬Halting s r) :
    (tearEach c l s).ring = s.ring ∧ (tearEach c l s).engine = engineLeft l s.engine := by
  induction l generalizing s with
  | nil => exact ⟨rfl, (engineLeft_nil _).symm⟩
  | cons r l ih =>
    obtain ⟨ring, engine⟩ := tearAtOnce_quiet c (h r List.mem_cons_self)
    obtain ⟨ring', engine'⟩ := ih (s := tearAtOnce c r s) fun q mem => by
      rw [halting_congr ring]
      exact h q (List.mem_cons_of_mem _ mem)
    refine ⟨ring'.trans ring, ?_⟩
    rw [show tearEach c (r :: l) s = tearEach c l (tearAtOnce c r s) from rfl, engine', engine, engineLeft_append]
    rfl

theorem tearEach_halts {l : List Nat} {r : Nat} (c : TearCause) (h : FirstWith (Halting s) l r) :
    (tearEach c l s).ring = ringHalted (haltOfTear c) (vnum r) s.ring
    ∧ (tearEach c l s).engine = endedStaging false (engineLeft l s.engine) := by
  obtain ⟨before, after, rfl, quiet, halts⟩ := h
  obtain ⟨ring, engine⟩ := tearEach_quiet c quiet
  obtain ⟨ring', engine'⟩ := tearAtOnce_halts c ((halting_congr ring r).2 halts)
  have halted : ∀ q ∈ after, ¬Halting (tearAtOnce c r (tearEach c before s)) q := fun q _ h => by
    have state := h.1
    rw [ring'] at state
    rcases state with h | h <;> contradiction
  obtain ⟨ring'', engine''⟩ := tearEach_quiet c halted
  rw [tearEach_append, show tearEach c (r :: after) (tearEach c before s)
    = tearEach c after (tearAtOnce c r (tearEach c before s)) from rfl]
  refine ⟨by rw [ring'', ring', ring], ?_⟩
  rw [engine'', engine', engine, engineLeft_append, ← endedStaging_engineLeft, engineLeft_append, List.append_assoc]
  rfl

theorem routeAt_tearEach {l : List Nat} (c : TearCause) (wf : tableWf s.routes = true) (nodup : l.Nodup) (q : Nat) :
    routeAt (tearEach c l s) q = if q ∈ l then (routeAt s q).bind (tornRecord c)
      else routeAt s q := by
  induction l generalizing s with
  | nil => simp [tearEach]
  | cons r l ih =>
    obtain ⟨apart, nodup⟩ := List.nodup_cons.1 nodup
    have one (q : Nat) : routeAt (tearAtOnce c r s) q = routeAt (tearApplied c r s) q := by
      rw [routeAt, tearAtOnce_routes]; rfl
    have wf' : tableWf (tearAtOnce c r s).routes = true := by rw [tearAtOnce_routes]; exact tableWf_tearApplied wf c r
    rw [show tearEach c (r :: l) s = tearEach c l (tearAtOnce c r s) from rfl, ih wf' nodup, one, routeAt_tearApplied wf]
    by_cases here : q = r
    · subst here
      simp [apart]
    · simp [here]

theorem mem_foldl_erase {l k : List Nat} (nodup : k.Nodup) (r : Nat) : r ∈ l.foldl List.erase k ↔ r ∈ k ∧ r ∉ l := by
  induction l generalizing k with
  | nil => simp
  | cons q l ih =>
    rw [List.foldl_cons, ih (nodup.erase q), nodup.mem_erase_iff]
    simp only [List.mem_cons, not_or]
    rw [and_comm (a := r ≠ q), and_assoc]

theorem exists_firstWith {α : Type} {p : α → Prop} {l : List α} (h : ∃ a ∈ l, p a) : ∃ a, FirstWith p l a := by
  induction l with
  | nil => simp at h
  | cons x l ih =>
    by_cases here : p x
    · exact ⟨x, [], l, rfl, by simp, here⟩
    · obtain ⟨a, before, after, is, refused, holds⟩ := ih (by simpa [here] using h)
      refine ⟨a, x :: before, after, by rw [is]; rfl, fun b mem => ?_, holds⟩
      rcases List.mem_cons.1 mem with rfl | mem
      · exact here
      · exact refused b mem

theorem endedStaging_rest (empty : Bool) (g : Engine) : endedStaging empty g
    = { g with
        mode := (endedStaging empty g).mode, staging := (endedStaging empty g).staging
        holder := if empty then none else g.holder } := by
  unfold endedStaging
  dsimp only
  by_cases staging : g.mode = .staging
  · by_cases still : g.active = []
    · rw [if_pos staging, if_pos still]
    · rw [if_pos staging, if_neg still]
  · rw [if_neg staging]

theorem tearAll_eq (c : TearCause) (l : List Nat) (s : State) :
    tearAll c l s = tearEach c l (if anyCarries s l then setTheLatch s else s) := rfl

/-- Settles O37. -/
theorem tornRoutesLeaveTheAppliedSet : Obligations.TornRoutesLeaveTheAppliedSet := by
  intro s c l nodup distinct wf torn v
  obtain ⟨u, latched, is⟩ : ∃ u, u = (if anyCarries s l then setTheLatch s else s) ∧ v = tearEach c l u :=
    ⟨_, rfl, tearAll_eq c l s⟩
  have ring : u.ring = s.ring := by rw [latched]; split <;> rfl
  have engine : u.engine = s.engine := by rw [latched]; split <;> rfl
  have routes : u.routes = s.routes := by rw [latched]; split <;> rfl
  have wf' : tableWf u.routes = true := routes ▸ wf
  have route := fun q => (congrArg (fun w => routeAt w q) is).trans (routeAt_tearEach c wf' distinct q)
  have same (q : Nat) : routeAt u q = routeAt s q := by rw [routeAt, routes]; rfl
  simp only [same] at route
  have halting (q : Nat) : Halting u q ↔ Halting s q := halting_congr ring q
  have quiet (h : ∀ r ∈ l, ¬Halting s r) : v.ring = s.ring ∧ v.engine = engineLeft l s.engine := by
    obtain ⟨r', e'⟩ := tearEach_quiet c fun r mem => mt (halting r).1 (h r mem)
    exact ⟨by rw [is, r', ring], by rw [is, e', engine]⟩
  have halts {r : Nat} (h : FirstWith (Halting s) l r) : v.ring = ringHalted (haltOfTear c) (vnum r) s.ring
      ∧ v.engine = endedStaging false (engineLeft l s.engine) := by
    obtain ⟨r', e'⟩ := tearEach_halts c (firstWith_congr (fun q => (halting q).symm) h)
    exact ⟨by rw [is, r', ring], by rw [is, e', engine]⟩
  have first (h : ∃ r ∈ l, Halting s r) : ∃ r, FirstWith (Halting s) l r := exists_firstWith h
  have left : v.engine = engineLeft l s.engine ∨ v.engine = engineLeft l (endedStaging false s.engine) := by
    by_cases some : ∃ r ∈ l, Halting s r
    · obtain ⟨r, at_r⟩ := first some
      exact .inr (by rw [(halts at_r).2, endedStaging_engineLeft])
    · exact .inl (quiet fun r mem h => some ⟨r, mem, h⟩).2
  have applied : v.engine.applied = l.foldl List.erase s.engine.applied := by
    rcases left with h | h <;> rw [h]
    · rfl
    · rw [engineLeft, endedStaging_rest]
  have waiting : v.engine.waiting = s.engine.waiting.map (withoutRoutes l) := by
    rcases left with h | h <;> rw [h]
    · rfl
    · rw [engineLeft, endedStaging_rest]
  refine ⟨fun r => ?_, fun r mem x at_r => ⟨fun state => ?_, fun state => ?_⟩, fun r out => ?_, ?_, ?_,
    fun r runs at_r => ?_, fun still => ?_, ?_⟩
  · rw [applied]
    exact mem_foldl_erase nodup r
  · rw [route, if_pos mem, at_r, Option.bind_some, tornRecord_applied state]
  · rw [route, if_pos mem, at_r, Option.bind_some, tornRecord_retiring state]
  · rw [route, if_neg out]
  · have latch : v.latch = u.latch := by rw [is]; simp [tearEach]
    rw [latch, latched, ← anyCarries_iff]
    cases anyCarries s l <;> simp [setTheLatch]
  · simp [v]
  · have := (halts (firstWith_congr (fun q => ⟨fun mem => ⟨runs, mem⟩, fun h => h.2⟩) at_r)).1
    rw [this]
    cases c <;> rfl
  · refine (quiet fun r mem h => ?_).1
    rcases still with ⟨no, none⟩ | out
    · exact h.1.elim no none
    · exact out r mem h.2
  · intro stops
    refine ⟨?_, fun no => ?_, fun yes => ?_, fun none => ?_, fun q held => ?_⟩
    · rcases left with h | h <;> rw [h]
      · rfl
      · rw [engineLeft, endedStaging_rest]
        rfl
    · have := (quiet fun r mem h => no ⟨h.1, r, mem, h.2⟩).2
      rw [this]
      exact ⟨rfl, rfl⟩
    · obtain ⟨r, at_r⟩ := first (yes.2.imp fun r h => ⟨h.1, yes.1, h.2⟩)
      rw [(halts at_r).2, endedStaging_engineLeft, endStaging_eq]
      exact ⟨rfl, rfl⟩
    · rw [waiting, none]; rfl
    · rw [waiting, held]
      rfl

end Sys2Proof.StepLaws

/-! ### The end of a transition (O36) -/

namespace Sys2Proof.StepLaws

open Sys2Proof.Machine Sys2Proof.Laws

variable {s t u v : State} {r : Trans}

/-! #### What the end of a transition can reach -/

/-- The state `s` with another engine, routes, latch and link. -/
def outer (s : State) (g : Engine) (q : Table Route) (latch : Bool) (link : Link) : State :=
  { s with engine := g, routes := q, latch := latch, link := link }

/-- From `s` to `t` nothing but the engine, the routes, the latch and the link changes. -/
def Within (s t : State) : Prop := t = outer s t.engine t.routes t.latch t.link

theorem Within.refl (s : State) : Within s s := rfl

theorem Within.trans (a : Within s t) (b : Within t u) : Within s u :=
  calc u = outer t u.engine u.routes u.latch u.link := b
    _ = outer (outer s t.engine t.routes t.latch t.link) u.engine u.routes u.latch u.link := by rw [← a]
    _ = outer s u.engine u.routes u.latch u.link := rfl

theorem Within.foldl {α : Type} {f : State → α → State} (h : ∀ s a, Within s (f s a)) (l : List α) (s : State) :
    Within s (l.foldl f s) := by
  induction l generalizing s with
  | nil => exact .refl s
  | cons a l ih => exact (h s a).trans (ih (f s a))

theorem within_notify (n : Notice) (s : State) : Within s (notify n s) := by
  rw [(notify_spec n s).1]
  rfl

theorem within_opEnded (o : Op) (s : State) : Within s (opEnded o s) := by
  rw [opEnded_spec]
  rfl

theorem within_routeEnter (n q : Nat) (s : State) : Within s (routeEnter n q s) := by
  rw [routeEnter_eq]
  split <;> rfl

theorem within_tornCause (c : TearCause) (q : Nat) (s : State) : Within s (tornCause c q s) := by
  unfold tornCause
  split <;> rfl

theorem within_routeLeave (q : Nat) (s : State) : Within s (routeLeave q s) := by
  rw [routeLeave_eq]
  dsimp only
  split
  · split
    · rfl
    · exact Within.trans (t := (withApplied (s.engine.applied.erase q) s).setRoutes (tdel s.routes q)) rfl (within_notify _ _)
    · rfl
  · rfl

theorem within_tearApplied (c : TearCause) (q : Nat) (s : State) : Within s (tearApplied c q s) :=
  (within_tornCause c q s).trans (within_routeLeave q _)

theorem within_enterAll (n : Nat) (l : List Nat) (s : State) : Within s (enterAll n l s) :=
  .foldl (fun s q => within_routeEnter n q s) l s

theorem within_tearBoth (torn lost : List (Nat × TearCause)) (s : State) : Within s (tearBoth torn lost s) :=
  (Within.foldl (fun s p => within_tearApplied p.2 p.1 s) torn s).trans (.foldl (fun s p => within_tornCause p.2 p.1 s) lost _)

/-- A transition closed, before `!DONE`. -/
def closedTransition (r : Trans) (carries : Bool) (s : State) : State :=
  ((clearPending s).setEngine { s.engine with
    mute := false, muteTimer := none
    trans := s.engine.trans.map fun t' => { t' with outcome := some (outcomeOf r) } }).setLatch
      (if (outcomeOf r).1 = .clean then false else s.latch || carries)

theorem closeTransition_eq (r : Trans) (carries : Bool) (s : State) : closeTransition r carries s
    = opEnded .transition (notify (.done (some r.number) r.origin (outcomeOf r).1 (outcomeOf r).2)
        (closedTransition r carries s)) := by
  unfold closeTransition
  dsimp only
  congr 2
  rw [updTrans_eq]
  cases carries <;> by_cases clean : (outcomeOf r).1 = .clean
  · simp [clean, closedTransition, clearPending]
  · simp [clean, closedTransition, clearPending]; rfl
  · simp [clean, closedTransition, clearPending, setTheLatch]
  · simp [clean, closedTransition, clearPending, setTheLatch]

theorem within_closeTransition (r : Trans) (carries : Bool) (s : State) : Within s (closeTransition r carries s) := by
  rw [closeTransition_eq]
  exact Within.trans (t := closedTransition r carries s) rfl ((within_notify _ _).trans (within_opEnded _ _))

/-! #### Which routes enter and which are torn -/

theorem claimsAny_iff (x : Route) (l : List Nat) : claimsAny x l = true ↔ ∃ h ∈ x.hops, h.elem ∈ l := by
  rw [claimsAny_eq]
  simp

theorem endsOnAny_iff (x : Route) (l : List Nat) : endsOnAny s x l = true
    ↔ ∃ n ∈ l, portFixture s x.src = some n ∨ portFixture s x.dst = some n := by
  simp [endsOnAny, endsOnFixture]

/-- A note tears a route for this cause (R98 step 2, R105). -/
def Noted (s : State) (r : Trans) (x : Route) (c : TearCause) : Prop :=
  c = .card ∧ (∃ h ∈ x.hops, h.elem ∈ r.notedElems)
  ∨ c = .fixture ∧ (¬∃ h ∈ x.hops, h.elem ∈ r.notedElems)
    ∧ ∃ n ∈ r.notedFixtures, portFixture s x.src = some n ∨ portFixture s x.dst = some n

theorem notedTear_iff (x : Route) (c : TearCause) : notedTear s r x = some c ↔ Noted s r x c := by
  unfold notedTear Noted
  rw [← claimsAny_iff, ← endsOnAny_iff]
  cases claimsAny x r.notedElems <;> cases endsOnAny s x r.notedFixtures <;> simp [eq_comm]

/-- A route of B enters (R98 step 1). -/
def Enters (s : State) (r : Trans) (completed : Bool) (q : Nat) (x : Route) : Prop :=
  completed = true ∧ r.stop = none ∧ q ∈ r.target ∧ q ∉ r.old ∧ (¬∃ h ∈ x.hops, h.elem ∈ r.faultedElems)
  ∧ (¬∃ h ∈ x.hops, h.elem ∈ r.notedElems)
  ∧ ¬∃ n ∈ r.notedFixtures, portFixture s x.src = some n ∨ portFixture s x.dst = some n

theorem mem_enteringRoutes {completed : Bool} (q : Nat) :
    q ∈ enteringRoutes s r completed ↔ ∃ x, routeAt s q = some x ∧ Enters s r completed q x := by
  unfold enteringRoutes Enters
  split
  · rename_i done
    rw [Bool.and_eq_true, Option.isNone_iff_eq_none] at done
    rw [List.mem_filter, Bool.and_eq_true]
    cases held : routeAt s q with
    | none => simp
    | some x =>
      have free : (!(claimsAny x r.faultedElems || claimsAny x r.notedElems || endsOnAny s x r.notedFixtures)) = true
          ↔ (¬∃ h ∈ x.hops, h.elem ∈ r.faultedElems) ∧ (¬∃ h ∈ x.hops, h.elem ∈ r.notedElems)
            ∧ ¬∃ n ∈ r.notedFixtures, portFixture s x.src = some n ∨ portFixture s x.dst = some n := by
        rw [Bool.not_eq_true', Bool.or_eq_false_iff, Bool.or_eq_false_iff, Bool.eq_false_iff, Bool.eq_false_iff,
          Bool.eq_false_iff, Ne, Ne, Ne, claimsAny_iff, claimsAny_iff, endsOnAny_iff, and_assoc]
      dsimp only
      rw [free]
      simp [done]
  · rename_i no
    rw [Bool.and_eq_true, Option.isNone_iff_eq_none] at no
    simp only [List.not_mem_nil, false_iff, not_exists, not_and]
    exact fun x _ a b => absurd ⟨a, b⟩ no

/-- The cause for which a route of B that has not entered is torn (R98 step 2). -/
def lostCause (s : State) (r : Trans) (x : Route) : Option TearCause :=
  if claimsAny x r.faultedElems then some .readback
  else match notedTear s r x with
    | some c => some c
    | none => match r.stop with
      | some .hot => some .hot
      | some .permit => some .permit
      | _ => none

theorem lostCause_iff (x : Route) (c : TearCause) : lostCause s r x = some c ↔
    c = .readback ∧ (∃ h ∈ x.hops, h.elem ∈ r.faultedElems)
    ∨ (¬∃ h ∈ x.hops, h.elem ∈ r.faultedElems) ∧ (Noted s r x c ∨ (∀ d, ¬Noted s r x d)
      ∧ (c = .hot ∧ r.stop = some .hot ∨ c = .permit ∧ r.stop = some .permit)) := by
  unfold lostCause
  rw [← claimsAny_iff]
  simp only [← notedTear_iff]
  cases claimsAny x r.faultedElems with
  | true => simp [eq_comm]
  | false =>
    cases notedTear s r x with
    | some d => simp [eq_comm]
    | none =>
      rcases r.stop with _ | _ | _ | _ <;> simp [eq_comm]

theorem mem_appliedTears (q : Nat) (c : TearCause) :
    (q, c) ∈ appliedTears s r ↔ q ∈ s.engine.applied ∧ ∃ x, routeAt s q = some x ∧ Noted s r x c := by
  unfold appliedTears
  rw [List.mem_filterMap]
  constructor
  · rintro ⟨p, mem, is⟩
    split at is
    · rename_i x held
      obtain ⟨d, noted, same⟩ := Option.map_eq_some_iff.1 is
      cases same
      exact ⟨mem, x, held, (notedTear_iff x c).1 noted⟩
    · contradiction
  · rintro ⟨mem, x, held, noted⟩
    exact ⟨q, mem, by simp [held, (notedTear_iff x c).2 noted]⟩

theorem mem_targetTears (entered : List Nat) (q : Nat) (c : TearCause) : (q, c) ∈ targetTears s r entered
    ↔ (q ∈ r.target ∧ q ∉ r.old ∧ q ∉ entered) ∧ ∃ x, routeAt s q = some x ∧ lostCause s r x = some c := by
  unfold targetTears
  rw [List.mem_filterMap]
  constructor
  · rintro ⟨p, mem, is⟩
    rw [List.mem_filter] at mem
    split at is
    · rename_i x held
      obtain ⟨d, lost, same⟩ := Option.map_eq_some_iff.1 is
      cases same
      exact ⟨by simpa using mem, x, held, lost⟩
    · contradiction
  · rintro ⟨mem, x, held, lost⟩
    refine ⟨q, List.mem_filter.2 (by simpa using mem), ?_⟩
    rw [held]
    exact Option.map_eq_some_iff.2 ⟨c, lost, rfl⟩

/-! #### Routes that have entered -/

/-- A route that enters by transition `n`. -/
def enteredBy (n : Nat) (x : Route) : Route := { x with state := .applied, last := some n, pending := false }

theorem routeAt_enterAll (n : Nat) (l : List Nat) (q : Nat) (s : State) :
    routeAt (enterAll n l s) q = if q ∈ l then (routeAt s q).map (enteredBy n) else routeAt s q := by
  induction l generalizing s with
  | nil => rfl
  | cons p l ih =>
    rw [show enterAll n (p :: l) s = enterAll n l (routeEnter n p s) from rfl, ih, routeAt_routeEnter]
    by_cases here : q = p
    · subst here
      by_cases again : q ∈ l
      · rw [if_pos again, if_pos rfl, if_pos List.mem_cons_self, Option.map_map]
        rfl
      · rw [if_neg again, if_pos rfl, if_pos List.mem_cons_self]
        rfl
    · simp [here]

theorem mem_enterAll (n : Nat) (l : List Nat) (q : Nat) (s : State) :
    q ∈ (enterAll n l s).engine.applied ↔ q ∈ l ∨ q ∈ s.engine.applied := by
  induction l generalizing s with
  | nil => simp [enterAll]
  | cons p l ih =>
    rw [show enterAll n (p :: l) s = enterAll n l (routeEnter n p s) from rfl, ih, routeEnter_applied, mem_insertNat,
      List.mem_cons, or_left_comm, or_assoc]

theorem filterMap_insertNat {β : Type} {f : Nat → Option β} {n : Nat} (nothing : f n = none) (l : List Nat) :
    (insertNat n l).filterMap f = l.filterMap f := by
  induction l with
  | nil => simp [insertNat, nothing]
  | cons m l ih =>
    unfold insertNat
    split
    · rw [List.filterMap_cons_none nothing]
    split
    · rfl
    · simp [List.filterMap_cons, ih]

theorem filterMap_enterAll {β : Type} {f : Nat → Option β} (n : Nat) {l : List Nat} (nothing : ∀ q ∈ l, f q = none) (s : State) :
    (enterAll n l s).engine.applied.filterMap f = s.engine.applied.filterMap f := by
  induction l generalizing s with
  | nil => rfl
  | cons p l ih =>
    rw [show enterAll n (p :: l) s = enterAll n l (routeEnter n p s) from rfl,
      ih fun q mem => nothing q (List.mem_cons_of_mem _ mem), routeEnter_applied,
      filterMap_insertNat (nothing p List.mem_cons_self)]

theorem enterAll_net (n : Nat) (l : List Nat) (s : State) : (enterAll n l s).net = s.net := by simp [enterAll]

/-- What tears an applied route, none where no route or no note is. -/
def tearOf (s : State) (r : Trans) (q : Nat) : Option (Nat × TearCause) :=
  (routeAt s q).bind fun x => (notedTear s r x).map fun c => (q, c)

theorem appliedTears_eq (s : State) (r : Trans) : appliedTears s r = s.engine.applied.filterMap (tearOf s r) := by
  unfold appliedTears tearOf
  congr 1
  funext q
  cases routeAt s q <;> rfl

theorem notedTear_congr (net : t.net = s.net) (x : Route) : notedTear t r x = notedTear s r x := by
  have ports (p : Nat) : portFixture t p = portFixture s p := by unfold portFixture portAt; rw [net]
  unfold notedTear endsOnAny endsOnFixture
  simp only [ports]

theorem notedTear_enteredBy (n : Nat) (x : Route) : notedTear s r (enteredBy n x) = notedTear s r x := rfl

theorem tearOf_enterAll (n : Nat) (l : List Nat) (q : Nat) (s : State) : tearOf (enterAll n l s) r q = tearOf s r q := by
  unfold tearOf
  simp only [routeAt_enterAll, notedTear_congr (enterAll_net n l s)]
  split
  · cases routeAt s q <;> rfl
  · rfl

theorem tearOf_entering {completed : Bool} {q : Nat} (h : q ∈ enteringRoutes s r completed) : tearOf s r q = none := by
  obtain ⟨x, held, -, -, -, -, -, unclaimed, unended⟩ := (mem_enteringRoutes q).1 h
  have none : notedTear s r x = none := by
    cases noted : notedTear s r x with
    | none => rfl
    | some c =>
      rcases (notedTear_iff x c).1 noted with ⟨-, claims⟩ | ⟨-, -, ends⟩
      · exact absurd claims unclaimed
      · exact absurd ends unended
  simp [tearOf, held, none]

/-- The routes that have entered are not torn. -/
theorem appliedTears_enterAll (n : Nat) (completed : Bool) (s : State) :
    appliedTears (enterAll n (enteringRoutes s r completed) s) r = appliedTears s r := by
  rw [appliedTears_eq, appliedTears_eq, show tearOf (enterAll n (enteringRoutes s r completed) s) r = tearOf s r from
    funext fun q => tearOf_enterAll n _ q s]
  exact filterMap_enterAll n (fun q mem => tearOf_entering mem) s

theorem filterMap_eq_of_mem {α β : Type} {f g : α → Option β} {l : List α} (same : ∀ a ∈ l, f a = g a) :
    l.filterMap f = l.filterMap g := by
  induction l with
  | nil => rfl
  | cons a l ih =>
    rw [List.filterMap_cons, List.filterMap_cons, same a List.mem_cons_self, ih fun b mem => same b (List.mem_cons_of_mem _ mem)]

theorem targetTears_enterAll (n : Nat) (l : List Nat) (s : State) : targetTears (enterAll n l s) r l = targetTears s r l := by
  unfold targetTears
  refine filterMap_eq_of_mem fun q mem => ?_
  rw [List.mem_filter] at mem
  have out : q ∉ l := by
    have := mem.2
    rw [Bool.and_eq_true] at this
    simpa using this.2
  simp only [routeAt_enterAll, if_neg out, notedTear_congr (enterAll_net n l s)]

theorem anyCarries_enterAll (n : Nat) (l k : List Nat) (s : State) : anyCarries (enterAll n l s) k = anyCarries s k := by
  unfold anyCarries routesWhere
  congr 2
  refine List.filter_congr fun q _ => ?_
  rw [routeAt_enterAll]
  by_cases entered : q ∈ l
  · rw [if_pos entered]
    cases routeAt s q <;> rfl
  · rw [if_neg entered]

theorem latchTears_congr (h : t.engine.mode = s.engine.mode) (l : List (Nat × TearCause)) : latchTears t l = latchTears s l := by
  unfold latchTears
  rw [h]

/-- The end of a transition, its tears told from the state before any route entered. -/
theorem endTransition_eq (completed : Bool) (held : s.engine.trans = some r) :
    let entered := enteringRoutes s r completed
    let torn := appliedTears s r
    let lost := targetTears s r entered
    let told := tellOutcome r (closeTransition r (anyCarries s (latchTears s (torn ++ lost)))
      (tearBoth torn lost (enterAll r.number entered s)))
    endTransition completed s = (setMode .idle (tellTears (torn ++ lost) told.1), told.2) := by
  intro entered torn lost told
  have mode : (enterAll r.number entered s).engine.mode = s.engine.mode := by simp [enterAll]
  rw [endTransition_some completed held, endFrom, appliedTears_enterAll, targetTears_enterAll, anyCarries_enterAll,
    latchTears_congr mode]

/-! #### Routes torn at the end -/

/-- Applied routes torn in turn (R98 step 2). -/
def tearEachApplied (torn : List (Nat × TearCause)) (s : State) : State := torn.foldl (fun s p => tearApplied p.2 p.1 s) s

/-- Torn causes written in turn (R98 step 2). -/
def writeCauses (lost : List (Nat × TearCause)) (s : State) : State := lost.foldl (fun s p => tornCause p.2 p.1 s) s

theorem tearBoth_eq (torn lost : List (Nat × TearCause)) (s : State) :
    tearBoth torn lost s = writeCauses lost (tearEachApplied torn s) := rfl

theorem tableWf_tearEachApplied (torn : List (Nat × TearCause)) (wf : tableWf s.routes = true) :
    tableWf (tearEachApplied torn s).routes = true := by
  induction torn generalizing s with
  | nil => exact wf
  | cons p torn ih => exact ih (tableWf_tearApplied wf p.2 p.1)

theorem routeAt_tearEachApplied_other {torn : List (Nat × TearCause)} (wf : tableWf s.routes = true) {q : Nat}
    (out : ∀ c, (q, c) ∉ torn) : routeAt (tearEachApplied torn s) q = routeAt s q := by
  induction torn generalizing s with
  | nil => rfl
  | cons p torn ih =>
    have ne : q ≠ p.1 := fun same => out p.2 (by rw [same]; exact List.mem_cons_self)
    rw [show tearEachApplied (p :: torn) s = tearEachApplied torn (tearApplied p.2 p.1 s) from rfl,
      ih (tableWf_tearApplied wf p.2 p.1) fun c mem => out c (List.mem_cons_of_mem _ mem), routeAt_tearApplied wf, if_neg ne]

theorem routeAt_tearEachApplied {torn : List (Nat × TearCause)} (wf : tableWf s.routes = true)
    (nodup : (torn.map fun p => p.1).Nodup) {q : Nat} {c : TearCause} (mem : (q, c) ∈ torn) :
    routeAt (tearEachApplied torn s) q = (routeAt s q).bind (tornRecord c) := by
  induction torn generalizing s with
  | nil => contradiction
  | cons p torn ih =>
    rw [List.map_cons] at nodup
    obtain ⟨apart, nodup⟩ := List.nodup_cons.1 nodup
    have wf' := tableWf_tearApplied wf p.2 p.1
    rw [show tearEachApplied (p :: torn) s = tearEachApplied torn (tearApplied p.2 p.1 s) from rfl]
    rcases List.mem_cons.1 mem with rfl | mem
    · rw [routeAt_tearEachApplied_other wf' fun d later => apart (List.mem_map.2 ⟨_, later, rfl⟩), routeAt_tearApplied wf,
        if_pos rfl]
    · have ne : q ≠ p.1 := fun same => apart (List.mem_map.2 ⟨_, mem, same⟩)
      rw [ih wf' nodup mem, routeAt_tearApplied wf, if_neg ne]

theorem mem_tearEachApplied {torn : List (Nat × TearCause)} (nodup : s.engine.applied.Nodup) (q : Nat) :
    q ∈ (tearEachApplied torn s).engine.applied ↔ q ∈ s.engine.applied ∧ ∀ c, (q, c) ∉ torn := by
  induction torn generalizing s with
  | nil => simp [tearEachApplied]
  | cons p torn ih =>
    have erased := tearApplied_applied p.2 p.1 s
    rw [show tearEachApplied (p :: torn) s = tearEachApplied torn (tearApplied p.2 p.1 s) from rfl,
      ih (by rw [erased]; exact nodup.erase _), erased, nodup.mem_erase_iff]
    constructor
    · rintro ⟨⟨ne, mem⟩, out⟩
      refine ⟨mem, fun c there => ?_⟩
      rcases List.mem_cons.1 there with same | there
      · exact ne (congrArg Prod.fst same)
      · exact out c there
    · rintro ⟨mem, out⟩
      exact ⟨⟨fun same => out p.2 (by rw [same]; exact List.mem_cons_self), mem⟩,
        fun c there => out c (List.mem_cons_of_mem _ there)⟩

theorem routeAt_writeCauses_other {lost : List (Nat × TearCause)} {q : Nat} (out : ∀ c, (q, c) ∉ lost) :
    routeAt (writeCauses lost s) q = routeAt s q := by
  induction lost generalizing s with
  | nil => rfl
  | cons p lost ih =>
    have ne : q ≠ p.1 := fun same => out p.2 (by rw [same]; exact List.mem_cons_self)
    rw [show writeCauses (p :: lost) s = writeCauses lost (tornCause p.2 p.1 s) from rfl,
      ih fun c mem => out c (List.mem_cons_of_mem _ mem), routeAt_tornCause, if_neg ne]

/-- A route listed more than once stands with one cause each time. -/
theorem routeAt_writeCauses {lost : List (Nat × TearCause)} {q : Nat} {c : TearCause}
    (one : ∀ d, (q, d) ∈ lost → d = c) (mem : (q, c) ∈ lost) :
    routeAt (writeCauses lost s) q = (routeAt s q).map fun x => { x with torn := some c } := by
  induction lost generalizing s with
  | nil => contradiction
  | cons p lost ih =>
    rw [show writeCauses (p :: lost) s = writeCauses lost (tornCause p.2 p.1 s) from rfl]
    by_cases again : (q, c) ∈ lost
    · rw [ih (fun d mem => one d (List.mem_cons_of_mem _ mem)) again, routeAt_tornCause]
      split
      · rename_i same
        rw [← same, Option.map_map]
        rfl
      · rfl
    · have out : ∀ d, (q, d) ∉ lost := fun d there => again (one d (List.mem_cons_of_mem _ there) ▸ there)
      obtain rfl : (q, c) = p := (List.mem_cons.1 mem).resolve_right again
      rw [routeAt_writeCauses_other out, routeAt_tornCause, if_pos rfl]

theorem writeCauses_engine (lost : List (Nat × TearCause)) (s : State) : (writeCauses lost s).engine = s.engine := by
  simp [writeCauses]

theorem writeCauses_link (lost : List (Nat × TearCause)) (s : State) : (writeCauses lost s).link = s.link := by
  simp [writeCauses]

theorem routeAt_closeTransition (carries : Bool) (s : State) (q : Nat) :
    routeAt (closeTransition r carries s) q = (routeAt s q).map fun x => { x with pending := false } := by
  have routes : (closeTransition r carries s).routes = (clearPending s).routes := by
    rw [closeTransition_eq, opEnded_spec, (notify_spec _ _).1]
    rfl
  rw [routeAt, routes, clearPending, State.setRoutes_routes, tget_tmap]
  rfl

theorem closeTransition_latch (carries : Bool) (s : State) : (closeTransition r carries s).latch
    = if (outcomeOf r).1 = .clean then false else s.latch || carries := by
  rw [closeTransition_eq, opEnded_spec, (notify_spec _ _).1]
  rfl

theorem closeTransition_link (carries : Bool) (s : State) : (closeTransition r carries s).link
    = (opEnded .transition (notify (.done (some r.number) r.origin (outcomeOf r).1 (outcomeOf r).2) s)).link := by
  rw [closeTransition_eq]
  exact opEnded_link _ (notify_link rfl)

/-! #### What is told of the RETIRING routes torn -/

theorem tearApplied_link (c : TearCause) (q : Nat) (s : State) : (tearApplied c q s).link
    = if (routeAt s q).any (fun x => decide (x.state = .retiring)) then (notify (.retire q) s).link else s.link := by
  have torn : routeAt (tornCause c q s) q = (routeAt s q).map fun x => { x with torn := some c } := by
    rw [routeAt_tornCause, if_pos rfl]
  have link : (tornCause c q s).link = s.link := by simp
  rw [show tearApplied c q s = routeLeave q (tornCause c q s) from rfl, routeLeave_eq]
  dsimp only
  rw [torn]
  cases routeAt s q with
  | none => exact link
  | some x =>
    cases state : x.state with
    | retiring =>
      simp only [Option.map_some, Option.any_some, state, decide_true, if_true]
      exact notify_link link
    | _ => simp [state, withApplied]

/-- `!RETIRE` of each route of a list. -/
def retireEach (l : List Nat) (s : State) : State := l.foldl (fun u q => notify (.retire q) u) s

theorem retireEach_link {l : List Nat} (h : s.link = t.link) : (retireEach l s).link = (retireEach l t).link := by
  induction l generalizing s t with
  | nil => exact h
  | cons q l ih => exact ih (notify_link h)

theorem tearEachApplied_link {torn : List (Nat × TearCause)} (wf : tableWf s.routes = true)
    (nodup : (torn.map fun p => p.1).Nodup) : (tearEachApplied torn s).link = (retireEach
      ((torn.map fun p => p.1).filter fun q => (routeAt s q).any fun x => decide (x.state = .retiring)) s).link := by
  induction torn generalizing s with
  | nil => rfl
  | cons p torn ih =>
    rw [List.map_cons] at nodup
    obtain ⟨apart, nodup⟩ := List.nodup_cons.1 nodup
    have rest : (torn.map fun p => p.1).filter (fun q => (routeAt (tearApplied p.2 p.1 s) q).any fun x =>
          decide (x.state = .retiring))
        = (torn.map fun p => p.1).filter fun q => (routeAt s q).any fun x => decide (x.state = .retiring) :=
      List.filter_congr fun q mem => by
        rw [routeAt_tearApplied wf, if_neg fun (same : q = p.1) => apart (same ▸ mem)]
    rw [show tearEachApplied (p :: torn) s = tearEachApplied torn (tearApplied p.2 p.1 s) from rfl,
      ih (tableWf_tearApplied wf p.2 p.1) nodup, rest, List.map_cons, List.filter_cons]
    have link := tearApplied_link p.2 p.1 s
    split
    · rename_i retiring
      rw [if_pos retiring] at link
      exact retireEach_link link
    · rename_i kept
      rw [if_neg kept] at link
      exact retireEach_link link

/-- The applied routes torn that are RETIRING, in ascending id. -/
theorem retired_eq (s : State) (r : Trans) :
    ((appliedTears s r).map fun p => p.1).filter (fun q => (routeAt s q).any fun x => decide (x.state = .retiring))
      = s.engine.applied.filter fun q => (routeAt s q).any fun x => decide (x.state = .retiring)
          && (x.hops.any (fun h => r.notedElems.contains h.elem) || r.notedFixtures.any (endsOnFixture s x)) := by
  rw [appliedTears_eq]
  induction s.engine.applied with
  | nil => rfl
  | cons q l ih =>
    cases held : routeAt s q with
    | none =>
      have nothing : tearOf s r q = none := by simp [tearOf, held]
      rw [List.filterMap_cons_none nothing, ih, List.filter_cons_of_neg (by simp [held])]
    | some x =>
      have is : tearOf s r q = (notedTear s r x).map fun c => (q, c) := by simp [tearOf, held]
      have noted : (notedTear s r x).isSome
          = (x.hops.any (fun h => r.notedElems.contains h.elem) || r.notedFixtures.any (endsOnFixture s x)) := by
        rw [← claimsAny_eq, show r.notedFixtures.any (endsOnFixture s x) = endsOnAny s x r.notedFixtures from rfl]
        unfold notedTear
        cases claimsAny x r.notedElems <;> cases endsOnAny s x r.notedFixtures <;> rfl
      rw [List.filter_cons, held, Option.any_some, ← noted]
      cases tear : notedTear s r x with
      | none =>
        rw [List.filterMap_cons_none (by rw [is, tear]; rfl), ih]
        simp
      | some c =>
        rw [List.filterMap_cons_some (by rw [is, tear]; rfl), List.map_cons, List.filter_cons, held, Option.any_some, ih]
        simp

/-! #### The end put together -/

theorem enterAll_engine (n : Nat) (l : List Nat) (s : State) :
    (enterAll n l s).engine = { s.engine with applied := (enterAll n l s).engine.applied } := by
  induction l generalizing s with
  | nil => rfl
  | cons q l ih =>
    have one : (routeEnter n q s).engine = { s.engine with applied := (routeEnter n q s).engine.applied } := by
      rw [routeEnter_eq]
      split <;> rfl
    have rest := ih (routeEnter n q s)
    rw [one] at rest
    exact rest

theorem tearEachApplied_engine (torn : List (Nat × TearCause)) (s : State) :
    (tearEachApplied torn s).engine = { s.engine with applied := (tearEachApplied torn s).engine.applied } := by
  induction torn generalizing s with
  | nil => rfl
  | cons p torn ih =>
    have rest := ih (tearApplied p.2 p.1 s)
    rw [tearApplied_engine] at rest
    exact rest

theorem mem_latchTears (l : List (Nat × TearCause)) (q : Nat) :
    q ∈ latchTears s l ↔ ∃ c, (q, c) ∈ l ∧ ¬(s.engine.mode = .muting ∧ c = .permit) := by
  unfold latchTears
  simp [Decidable.imp_iff_not_or]

/-- A transition closed after its tears, before the ring is told (R98 steps 1 to 6). -/
def endedBefore (r : Trans) (completed : Bool) (s : State) : State :=
  let entered := enteringRoutes s r completed
  let torn := appliedTears s r
  let lost := targetTears s r entered
  closeTransition r (anyCarries s (latchTears s (torn ++ lost))) (writeCauses lost (tearEachApplied torn (enterAll r.number entered s)))

/-- All tears of a transition's end. -/
def allTears (r : Trans) (completed : Bool) (s : State) : List (Nat × TearCause) :=
  appliedTears s r ++ targetTears s r (enteringRoutes s r completed)

theorem endTransition_eq' (completed : Bool) (held : s.engine.trans = some r) : endTransition completed s
    = (setMode .idle (tellTears (allTears r completed s) (tellOutcome r (endedBefore r completed s)).1),
        (tellOutcome r (endedBefore r completed s)).2) :=
  endTransition_eq completed held

theorem within_endedBefore (r : Trans) (completed : Bool) (s : State) : Within s (endedBefore r completed s) :=
  ((within_enterAll _ _ s).trans (within_tearBoth _ _ _)).trans (within_closeTransition _ _ _)

theorem mem_targetTears_entering {completed : Bool} (q : Nat) (c : TearCause) :
    (q, c) ∈ targetTears s r (enteringRoutes s r completed) ↔ ∃ x, routeAt s q = some x ∧ q ∈ r.target ∧ q ∉ r.old
      ∧ ¬Enters s r completed q x ∧ lostCause s r x = some c := by
  rw [mem_targetTears]
  constructor
  · rintro ⟨⟨target, new, out⟩, x, held, lost⟩
    exact ⟨x, held, target, new, fun enters => out ((mem_enteringRoutes q).2 ⟨x, held, enters⟩), lost⟩
  · rintro ⟨x, held, target, new, out, lost⟩
    refine ⟨⟨target, new, fun enters => ?_⟩, x, held, lost⟩
    obtain ⟨y, held', enters⟩ := (mem_enteringRoutes q).1 enters
    rw [held] at held'
    cases held'
    exact out enters

theorem Noted.unique {x : Route} {c d : TearCause} (a : Noted s r x c) (b : Noted s r x d) : c = d := by
  rw [← notedTear_iff] at a b
  exact Option.some.inj (a.symm.trans b)

theorem appliedTears_nodup (r : Trans) (nodup : s.engine.applied.Nodup) : ((appliedTears s r).map fun p => p.1).Nodup := by
  have sub : ((appliedTears s r).map fun p => p.1).Sublist s.engine.applied := by
    rw [appliedTears_eq]
    induction s.engine.applied with
    | nil => exact .refl _
    | cons q l ih =>
      rw [List.filterMap_cons]
      split
      · exact ih.trans (List.sublist_cons_self _ _)
      · rename_i p is
        have same : p.1 = q := by
          unfold tearOf at is
          cases held : routeAt s q with
          | none => simp [held] at is
          | some x =>
            rw [held, Option.bind_some] at is
            obtain ⟨c, -, rfl⟩ := Option.map_eq_some_iff.1 is
            rfl
        rw [List.map_cons, same]
        exact ih.cons_cons _
  exact nodup.sublist sub

/-- The ring told leaves the routes, the applied set, the latch and the transition as they are. -/
theorem told_keeps (r : Trans) (l : List (Nat × TearCause)) (s : State) :
    let w := tellTears l (tellOutcome r s).1
    w.routes = s.routes ∧ w.engine.applied = s.engine.applied ∧ w.latch = s.latch ∧ w.engine.mute = s.engine.mute
    ∧ w.engine.muteTimer = s.engine.muteTimer ∧ w.engine.trans = s.engine.trans ∧ w.net = s.net ∧ w.cards = s.cards
    ∧ w.fixtures = s.fixtures := by
  unfold tellTears tellOutcome
  split <;> simp

theorem endedBefore_engine (completed : Bool) (held : s.engine.trans = some r) : (endedBefore r completed s).engine
    = { s.engine with
        applied := (endedBefore r completed s).engine.applied, mute := false, muteTimer := none
        trans := some { r with outcome := some (outcomeOf r) } } := by
  unfold endedBefore
  dsimp only
  rw [closeTransition_engine, writeCauses_engine, tearEachApplied_engine, enterAll_engine]
  simp [held]

theorem endedBefore_applied (completed : Bool) (sorted : Ascending s.engine.applied) (q : Nat) :
    q ∈ (endedBefore r completed s).engine.applied
      ↔ (q ∈ enteringRoutes s r completed ∨ q ∈ s.engine.applied) ∧ ∀ c, (q, c) ∉ appliedTears s r := by
  unfold endedBefore
  dsimp only
  rw [closeTransition_engine, writeCauses_engine]
  dsimp only
  have nodup' : (enterAll r.number (enteringRoutes s r completed) s).engine.applied.Nodup :=
    (ascending_enterAll _ _ _ sorted).imp fun lt => Nat.ne_of_lt lt
  rw [mem_tearEachApplied nodup', mem_enterAll]

end Sys2Proof.StepLaws

namespace Sys2Proof.StepLaws

open Sys2Proof.Machine Sys2Proof.Laws

variable {s t u v : State} {r : Trans}

/-! #### What the end of a transition leaves -/

theorem Within.rest (h : Within s t) : t.net = s.net ∧ t.cards = s.cards ∧ t.fixtures = s.fixtures ∧ t.ring = s.ring
    ∧ t.records = s.records := by
  unfold Within at h
  rw [h]
  exact ⟨rfl, rfl, rfl, rfl, rfl⟩

/-- The end of a transition that no note, no fault and no stop touched tears nothing. -/
theorem endedBefore_clean (completed : Bool) (elems : r.notedElems = []) (fixtures : r.notedFixtures = [])
    (faulted : r.faultedElems = []) (stop : r.stop = none) : endedBefore r completed s
    = closeTransition r false (enterAll r.number (enteringRoutes s r completed) s) := by
  have torn : appliedTears s r = [] := appliedTears_nil elems fixtures
  have lost : targetTears s r (enteringRoutes s r completed) = [] :=
    targetTears_nil elems fixtures faulted (by simp [stop]) (by simp [stop]) _
  unfold endedBefore
  simp only [torn, lost]
  rfl

theorem allTears_clean (completed : Bool) (elems : r.notedElems = []) (fixtures : r.notedFixtures = [])
    (faulted : r.faultedElems = []) (stop : r.stop = none) : allTears r completed s = [] := by
  have torn : appliedTears s r = [] := appliedTears_nil elems fixtures
  have lost : targetTears s r (enteringRoutes s r completed) = [] :=
    targetTears_nil elems fixtures faulted (by simp [stop]) (by simp [stop]) _
  rw [allTears, torn, lost]
  rfl

theorem tellOutcome_other (origin : r.origin ≠ .step) (s : State) : tellOutcome r s = (s, .nothing) := if_neg origin

theorem enters_clean (elems : r.notedElems = []) (fixtures : r.notedFixtures = [])
    (faulted : r.faultedElems = []) (stop : r.stop = none) (q : Nat) :
    q ∈ enteringRoutes s r true ↔ q ∈ r.target ∧ q ∉ r.old ∧ routeAt s q ≠ none := by
  rw [mem_enteringRoutes]
  simp only [Enters, elems, fixtures, faulted, stop, List.not_mem_nil, and_false, exists_false, not_false_eq_true,
    and_true, true_and, Option.ne_none_iff_exists', false_and]
  constructor
  · rintro ⟨x, held, target, new⟩
    exact ⟨target, new, x, held⟩
  · rintro ⟨target, new, x, held⟩
    exact ⟨x, held, target, new⟩

theorem enterAll_link (n : Nat) (l : List Nat) (s : State) : (enterAll n l s).link = s.link := by simp [enterAll]

theorem enterAll_latch (n : Nat) (l : List Nat) (s : State) : (enterAll n l s).latch = s.latch := by simp [enterAll]

theorem tableWf_enterAll (n : Nat) (l : List Nat) (wf : tableWf s.routes = true) : tableWf (enterAll n l s).routes = true := by
  induction l generalizing s with
  | nil => exact wf
  | cons q l ih =>
    refine ih (s := routeEnter n q s) ?_
    rw [routeEnter_eq]
    split
    · exact tableWf_tput q _ wf
    · exact wf

theorem ascending_nodup {l : List Nat} (h : Ascending l) : l.Nodup := h.imp fun lt => Nat.ne_of_lt lt

/-! #### The routes at the end (R98 steps 1 to 4) -/

section

variable {completed : Bool} {q : Nat} {x : Route}

/-- The routes before the marks are cleared. -/
theorem routeAt_endedBefore (q : Nat) : routeAt (endedBefore r completed s) q
    = (routeAt (writeCauses (targetTears s r (enteringRoutes s r completed)) (tearEachApplied (appliedTears s r)
        (enterAll r.number (enteringRoutes s r completed) s))) q).map fun x => { x with pending := false } :=
  routeAt_closeTransition _ _ q

theorem not_targetTears_of_old (old : q ∈ r.old) (c : TearCause) : (q, c) ∉ targetTears s r (enteringRoutes s r completed) :=
  fun mem => by
    obtain ⟨-, -, -, new, -⟩ := (mem_targetTears_entering q c).1 mem
    exact new old

theorem not_appliedTears_of_unapplied (out : q ∉ s.engine.applied) (c : TearCause) : (q, c) ∉ appliedTears s r :=
  fun mem => out ((mem_appliedTears q c).1 mem).1

variable (wf : tableWf s.routes = true) (sorted : Ascending s.engine.applied) (within : ∀ p ∈ s.engine.applied, p ∈ r.old)

include wf within in
theorem endedBefore_entered (held : routeAt s q = some x) (enters : Enters s r completed q x) :
    routeAt (endedBefore r completed s) q = some { enteredBy r.number x with pending := false } := by
  have mem := (mem_enteringRoutes q).2 ⟨x, held, enters⟩
  obtain ⟨-, -, target, new, -⟩ := enters
  rw [routeAt_endedBefore, routeAt_writeCauses_other fun c lost => ?_, routeAt_tearEachApplied_other (tableWf_enterAll _ _ wf)
    (not_appliedTears_of_unapplied fun applied => new (within q applied)), routeAt_enterAll, if_pos mem, held]
  · rfl
  · exact ((mem_targetTears _ q c).1 lost).1.2.2 mem

include wf sorted within in
theorem endedBefore_noted (held : routeAt s q = some x) (applied : q ∈ s.engine.applied) {c : TearCause}
    (noted : Noted s r x c) : routeAt (endedBefore r completed s) q
      = (tornRecord c x).map fun x => { x with pending := false } := by
  have old := within q applied
  have out : q ∉ enteringRoutes s r completed := fun mem => by
    obtain ⟨-, -, -, -, -, new, -⟩ := (mem_enteringRoutes q).1 mem
    exact new old
  rw [routeAt_endedBefore, routeAt_writeCauses_other (not_targetTears_of_old old),
    routeAt_tearEachApplied (tableWf_enterAll _ _ wf) (appliedTears_nodup r (ascending_nodup sorted))
      ((mem_appliedTears q c).2 ⟨applied, x, held, noted⟩), routeAt_enterAll, if_neg out, held]
  rfl

include wf within in
theorem endedBefore_lost (held : routeAt s q = some x) (target : q ∈ r.target) (new : q ∉ r.old)
    (out : ¬Enters s r completed q x) {c : TearCause} (lost : lostCause s r x = some c) :
    routeAt (endedBefore r completed s) q = some { x with torn := some c, pending := false } := by
  have stays : q ∉ enteringRoutes s r completed := fun mem => by
    obtain ⟨y, held', enters⟩ := (mem_enteringRoutes q).1 mem
    rw [held] at held'
    cases held'
    exact out enters
  have one (d : TearCause) (mem : (q, d) ∈ targetTears s r (enteringRoutes s r completed)) : d = c := by
    obtain ⟨y, held', -, -, -, lost'⟩ := (mem_targetTears_entering q d).1 mem
    rw [held] at held'
    cases held'
    exact Option.some.inj (lost'.symm.trans lost)
  rw [routeAt_endedBefore, routeAt_writeCauses one ((mem_targetTears_entering q c).2 ⟨x, held, target, new, out, lost⟩),
    routeAt_tearEachApplied_other (tableWf_enterAll _ _ wf)
      (not_appliedTears_of_unapplied fun applied => new (within q applied)), routeAt_enterAll, if_neg stays, held]
  rfl

include wf in
theorem endedBefore_other (held : routeAt s q = some x) (out : q ∉ enteringRoutes s r completed)
    (kept : ∀ c, (q, c) ∉ appliedTears s r) (found : ∀ c, (q, c) ∉ targetTears s r (enteringRoutes s r completed)) :
    routeAt (endedBefore r completed s) q = some { x with pending := false } := by
  rw [routeAt_endedBefore, routeAt_writeCauses_other found, routeAt_tearEachApplied_other (tableWf_enterAll _ _ wf) kept,
    routeAt_enterAll, if_neg out, held]
  rfl

end

/-! #### The latch (R98 step 3) -/

theorem endedBefore_latch (r : Trans) (completed : Bool) (s : State) : (endedBefore r completed s).latch
    = if (outcomeOf r).1 = .clean then false else s.latch || anyCarries s (latchTears s (allTears r completed s)) := by
  have latch : (writeCauses (targetTears s r (enteringRoutes s r completed)) (tearEachApplied (appliedTears s r)
      (enterAll r.number (enteringRoutes s r completed) s))).latch = s.latch := by
    simp [writeCauses, tearEachApplied, enterAll]
  unfold endedBefore
  dsimp only
  rw [closeTransition_latch, latch]
  rfl

theorem Noted.not_permit {x : Route} {c : TearCause} (h : Noted s r x c) : c ≠ .permit := by
  rcases h with ⟨rfl, -⟩ | ⟨rfl, -⟩ <;> exact fun h => nomatch h

theorem carries_allTears (completed : Bool) : anyCarries s (latchTears s (allTears r completed s)) = true
    ↔ ∃ q x c, routeAt s q = some x ∧ x.carries = true ∧ (q ∈ s.engine.applied ∧ Noted s r x c
        ∨ (q ∈ r.target ∧ q ∉ r.old ∧ ¬Enters s r completed q x ∧ lostCause s r x = some c)
          ∧ ¬(s.engine.mode = .muting ∧ c = .permit)) := by
  rw [anyCarries_iff]
  constructor
  · rintro ⟨q, mem, x, held, carries⟩
    obtain ⟨c, mem, counted⟩ := (mem_latchTears _ q).1 mem
    rcases List.mem_append.1 mem with torn | lost
    · obtain ⟨applied, y, held', noted⟩ := (mem_appliedTears q c).1 torn
      rw [held] at held'
      cases held'
      exact ⟨q, x, c, held, carries, .inl ⟨applied, noted⟩⟩
    · obtain ⟨y, held', lost⟩ := (mem_targetTears_entering q c).1 lost
      rw [held] at held'
      cases held'
      exact ⟨q, x, c, held, carries, .inr ⟨lost, counted⟩⟩
  · rintro ⟨q, x, c, held, carries, ⟨applied, noted⟩ | ⟨lost, counted⟩⟩
    · exact ⟨q, (mem_latchTears _ q).2 ⟨c, List.mem_append_left _ ((mem_appliedTears q c).2 ⟨applied, x, held, noted⟩),
        fun both => noted.not_permit both.2⟩, x, held, carries⟩
    · exact ⟨q, (mem_latchTears _ q).2 ⟨c, List.mem_append_right _ ((mem_targetTears_entering q c).2 ⟨x, held, lost⟩),
        counted⟩, x, held, carries⟩

/-! #### The link, and the end as a whole -/

theorem endedBefore_link (completed : Bool) (wf : tableWf s.routes = true) (sorted : Ascending s.engine.applied) :
    (endedBefore r completed s).link = (opEnded .transition (notify (.done (some r.number) r.origin (outcomeOf r).1 (outcomeOf r).2)
      (retireEach (s.engine.applied.filter fun q => (routeAt s q).any fun x => decide (x.state = .retiring)
          && (x.hops.any (fun h => r.notedElems.contains h.elem) || r.notedFixtures.any (endsOnFixture s x))) s))).link := by
  have state (q : Nat) (mem : q ∈ (appliedTears s r).map fun p => p.1) :
      (routeAt (enterAll r.number (enteringRoutes s r completed) s) q).any (fun x => decide (x.state = .retiring))
        = (routeAt s q).any fun x => decide (x.state = .retiring) := by
    obtain ⟨p, torn, rfl⟩ := List.mem_map.1 mem
    have out : p.1 ∉ enteringRoutes s r completed := fun enters => by
      have nothing := tearOf_entering enters
      obtain ⟨-, x, held, noted⟩ := (mem_appliedTears p.1 p.2).1 torn
      simp [tearOf, held, (notedTear_iff x p.2).2 noted] at nothing
    rw [routeAt_enterAll, if_neg out]
  unfold endedBefore
  dsimp only
  rw [closeTransition_link]
  refine opEnded_link _ (notify_link ?_)
  rw [writeCauses_link, tearEachApplied_link (tableWf_enterAll _ _ wf) (appliedTears_nodup r (ascending_nodup sorted)),
    List.filter_congr state, retired_eq]
  exact retireEach_link (enterAll_link _ _ s)

theorem endTransition_fields (completed : Bool) (held : s.engine.trans = some r) :
    let v := (endTransition completed s).1
    let w := endedBefore r completed s
    v.routes = w.routes ∧ v.engine.applied = w.engine.applied ∧ v.latch = w.latch ∧ v.engine.mode = .idle
    ∧ v.engine.mute = false ∧ v.engine.muteTimer = none
    ∧ v.engine.trans = some { r with outcome := some (outcomeOf r) } ∧ v.net = s.net ∧ v.cards = s.cards
    ∧ v.fixtures = s.fixtures := by
  intro v w
  obtain ⟨routes, applied, latch, mute, timer, trans, net, cards, fixtures⟩ := told_keeps r (allTears r completed s) w
  have engine := endedBefore_engine completed held
  obtain ⟨net', cards', fixtures', -⟩ := (within_endedBefore r completed s).rest
  have is : v = setMode .idle (tellTears (allTears r completed s) (tellOutcome r w).1) :=
    congrArg Prod.fst (endTransition_eq' completed held)
  rw [is]
  refine ⟨routes, applied, latch, rfl, mute.trans (congrArg Engine.mute engine), timer.trans (congrArg Engine.muteTimer engine),
    trans.trans (congrArg Engine.trans engine), net.trans net', cards.trans cards',
    fixtures.trans fixtures'⟩

/-- With no step of the ring entered, the ring hears of tears only. -/
theorem endTransition_origin (completed : Bool) (held : s.engine.trans = some r) (origin : r.origin ≠ .step) :
    (endTransition completed s).2 = .nothing ∧ (endTransition completed s).1.records = s.records
    ∧ (s.ring.state ≠ .dwelling → s.ring.state ≠ .held → (endTransition completed s).1.ring = s.ring) := by
  obtain ⟨-, -, -, ring, records⟩ := (within_endedBefore r completed s).rest
  rw [endTransition_eq' completed held, tellOutcome_other origin]
  refine ⟨rfl, ?_, fun dwelling held => ?_⟩
  · simp [tellTears, records]
  · have same (l : List (Nat × TearCause)) : tellTears l (endedBefore r completed s) = endedBefore r completed s := by
      induction l with
      | nil => rfl
      | cons p l ih =>
        refine (congrArg (tellTears l) (ringTorn_same p.2 fun halting => ?_)).trans ih
        rcases halting.1 with state | state <;> rw [ring] at state <;> contradiction
    rw [same]
    exact ring

/-! #### The phase looked at (R97) -/

theorem phaseAdvance_held (held : s.engine.trans = some r) :
    (s.engine.active ≠ [] → phaseAdvance s = (s, .nothing))
    ∧ (s.engine.active = [] → s.engine.mode = .breaking →
      (r.brkTodo ≠ [] → phaseAdvance s = (s, .nothing))
      ∧ (r.brkTodo = [] → r.stop ≠ none ∨ r.faultedElems ≠ [] → phaseAdvance s = endTransition false s)
      ∧ (r.brkTodo = [] → r.stop = none → r.faultedElems = [] →
        (r.makTodo = [] → phaseAdvance s = endTransition true (s.setEngine { s.engine with mode := .making }))
        ∧ (r.makTodo ≠ [] → phaseAdvance s = (s.setEngine { s.engine with mode := .making }, .nothing))))
    ∧ (s.engine.active = [] → s.engine.mode = .making →
      (r.makTodo ≠ [] → phaseAdvance s = (s, .nothing))
      ∧ (r.makTodo = [] → phaseAdvance s = endTransition true s)) := by
  have stops : (r.stop.isSome || !r.faultedElems.isEmpty) = true ↔ r.stop ≠ none ∨ r.faultedElems ≠ [] := by
    simp [Option.isSome_iff_ne_none]
  refine ⟨fun active => ?_, fun idle mode => ⟨fun todo => ?_, fun none out => ?_, fun none stop faulted =>
    ⟨fun make => ?_, fun make => ?_⟩⟩, fun idle mode => ⟨fun make => ?_, fun make => ?_⟩⟩
  · simp [phaseAdvance, held, active]
  · simp [phaseAdvance, held, idle, mode, todo]
  · simp only [phaseAdvance, held, idle, mode, none, stops.2 out]
    rfl
  · rw [phaseAdvance, held]
    simp [idle, mode, none, stop, faulted, make, setMode]
  · simp [phaseAdvance, held, idle, mode, none, stop, faulted, make, setMode]
  · simp [phaseAdvance, held, idle, mode, make]
  · simp [phaseAdvance, held, idle, mode, make]

/-! #### O36 -/

/-- Settles O36: the end is written as entering, tears, torn causes and the closing (R98), and each route's record is
followed through the three. -/
theorem cleanTransitionsApplyTheirRoutes : Obligations.CleanTransitionsApplyTheirRoutes := by
  unfold Obligations.CleanTransitionsApplyTheirRoutes
  refine ⟨?_, ?_, fun s t held => phaseAdvance_held held⟩
  · intro s t held origin stop first elems fixtures faulted v enters
    obtain ⟨routes, applied, latch, mode, mute, timer, trans, net, cards, fixs⟩ := endTransition_fields true held
    have clean : outcomeOf t = (.clean, none) := by simp [outcomeOf, stop, first]
    have whole : (endTransition true s) = (setMode .idle (endedBefore t true s), .nothing) := by
      rw [endTransition_eq' true held, tellOutcome_other (by simp [origin]), allTears_clean true elems fixtures faulted stop]
      rfl
    have before := endedBefore_clean (s := s) true elems fixtures faulted stop
    obtain ⟨-, -, -, ring, records⟩ := (within_endedBefore t true s).rest
    have recordAt (q : Nat) : routeAt v q = routeAt (endedBefore t true s) q := by rw [routeAt, routes]; rfl
    refine ⟨congrArg Prod.snd whole, fun q => ?_, fun q x there => ⟨fun enter => ?_, fun stay => ?_⟩,
      ⟨mode, mute, timer, ?_, clean ▸ trans⟩, ⟨net, ?_, ?_, cards, fixs⟩, ?_⟩
    · rw [applied, before, closeTransition_engine]
      dsimp only
      rw [mem_enterAll, enters_clean elems fixtures faulted stop]
      exact or_comm
    · rw [recordAt, before, routeAt_closeTransition, routeAt_enterAll,
        if_pos ((enters_clean elems fixtures faulted stop q).2 enter), there]
      rfl
    · rw [recordAt, before, routeAt_closeTransition, routeAt_enterAll,
        if_neg fun mem => stay ((enters_clean elems fixtures faulted stop q).1 mem), there]
      rfl
    · rw [latch, before, closeTransition_latch, clean, if_pos rfl]
    · exact (congrArg (fun w => (Prod.fst w).ring) whole).trans ring
    · exact (congrArg (fun w => (Prod.fst w).records) whole).trans records
    · refine (congrArg (fun w => (Prod.fst w).link) whole).trans ?_
      rw [show (setMode .idle (endedBefore t true s), Ask.nothing).1.link = (endedBefore t true s).link from rfl, before,
        closeTransition_link, clean, origin]
      exact opEnded_link _ (notify_link (enterAll_link _ _ s))
  · intro s t completed held wf sorted within v claims endsOn noted enters lost outcome
    have same : outcome = outcomeOf t := by
      simp only [outcome, outcomeOf]
      rcases t.stop with _ | _ | _ | _ <;> rcases t.firstFault with _ | _ | _ | _ | _ <;> rfl
    have lost_iff (q : Nat) (x : Route) (c : TearCause) : lost q x c ↔ q ∈ t.target ∧ q ∉ t.old
        ∧ ¬Enters s t completed q x ∧ lostCause s t x = some c := by
      rw [lostCause_iff]
      exact .rfl
    have told (q : Nat) (c : TearCause) : (q, c) ∈ allTears t completed s
        ↔ ∃ x, routeAt s q = some x ∧ (q ∈ s.engine.applied ∧ noted x c ∨ lost q x c) := by
      rw [allTears, List.mem_append, mem_appliedTears, mem_targetTears_entering]
      simp only [lost_iff]
      exact ⟨fun h => h.elim (fun ⟨applied, x, there, noted⟩ => ⟨x, there, .inl ⟨applied, noted⟩⟩)
          fun ⟨x, there, lost⟩ => ⟨x, there, .inr lost⟩,
        fun ⟨x, there, h⟩ => h.elim (fun ⟨applied, noted⟩ => .inl ⟨applied, x, there, noted⟩)
          fun lost => .inr ⟨x, there, lost⟩⟩
    obtain ⟨routes, applied, latch, mode, mute, timer, trans, net, cards, fixs⟩ := endTransition_fields completed held
    have recordAt (q : Nat) : routeAt v q = routeAt (endedBefore t completed s) q := by rw [routeAt, routes]; rfl
    have appliedIff := endedBefore_applied (r := t) completed sorted
    have entering (q : Nat) (x : Route) (there : routeAt s q = some x) :
        q ∈ enteringRoutes s t completed ↔ enters q x := by
      rw [mem_enteringRoutes]
      exact ⟨fun ⟨y, held', enter⟩ => Option.some.inj (there.symm.trans held') ▸ enter, fun enter => ⟨x, there, enter⟩⟩
    have new (q : Nat) (x : Route) (enter : enters q x) : q ∉ s.engine.applied := fun mem => by
      obtain ⟨-, -, -, new, -⟩ := enter
      exact new (within q mem)
    refine ⟨fun q x there => ⟨fun enter => ⟨?_, ?_⟩, fun c mem tear => ⟨?_, fun state => ?_, fun state => ?_⟩,
      fun c tear => ⟨?_, ?_⟩, fun stay kept found => ⟨?_, ?_⟩⟩, ?_, ⟨mode, mute, timer, same ▸ trans⟩, ⟨net, cards, fixs⟩,
      fun origin => endTransition_origin completed held origin, ?_⟩
    · rw [applied, appliedIff]
      exact ⟨.inl ((entering q x there).2 enter), not_appliedTears_of_unapplied (new q x enter)⟩
    · rw [recordAt, endedBefore_entered wf within there enter]
      rfl
    · rw [applied, appliedIff]
      exact fun h => h.2 c ((mem_appliedTears q c).2 ⟨mem, x, there, tear⟩)
    · rw [recordAt, endedBefore_noted wf sorted within there mem tear, tornRecord_applied state]
      rfl
    · rw [recordAt, endedBefore_noted wf sorted within there mem tear, tornRecord_retiring state]
      rfl
    · obtain ⟨target, fresh, out, cause⟩ := (lost_iff q x c).1 tear
      rw [applied, appliedIff]
      exact fun h => h.1.elim (fun mem => out ((entering q x there).1 mem)) fun mem => fresh (within q mem)
    · obtain ⟨target, fresh, out, cause⟩ := (lost_iff q x c).1 tear
      rw [recordAt, endedBefore_lost wf within there target fresh out cause]
    · rw [applied, appliedIff, or_iff_right fun mem => stay ((entering q x there).1 mem)]
      refine and_iff_left_of_imp fun mem c tear => kept ⟨mem, c, ?_⟩
      obtain ⟨-, y, there', tear⟩ := (mem_appliedTears q c).1 tear
      exact Option.some.inj (there.symm.trans there') ▸ tear
    · refine (recordAt q).trans (endedBefore_other wf there (fun mem => stay ((entering q x there).1 mem)) (fun c tear => ?_)
        fun c tear => ?_)
      · obtain ⟨mem, y, there', tear⟩ := (mem_appliedTears q c).1 tear
        exact kept ⟨mem, c, Option.some.inj (there.symm.trans there') ▸ tear⟩
      · obtain ⟨y, there', tear⟩ := (mem_targetTears_entering q c).1 tear
        exact found c ((lost_iff q x c).2 (Option.some.inj (there.symm.trans there') ▸ tear))
    · rw [latch, endedBefore_latch, same]
      split
      · rename_i clean
        exact ⟨fun h => Bool.noConfusion h, fun h => absurd clean h.1⟩
      · rename_i unclean
        rw [Bool.or_eq_true, carries_allTears]
        simp only [lost_iff]
        exact ⟨fun h => ⟨unclean, h⟩, fun h => h.2⟩
    · intro retired message u ring
      refine ⟨allTears t completed s, told, ?_⟩
      have isU : endedBefore t completed s = u := by
        have frame : endedBefore t completed s = outer s _ _ _ _ := within_endedBefore t completed s
        rw [frame, endedBefore_engine completed held, endedBefore_link completed wf sorted, ← routes, ← latch, ← applied,
          ← trans, ← same]
        rfl
      have isRing : tellOutcome t u = ring := by
        simp only [tellOutcome, ring, same]
      rw [endTransition_eq' completed held, isU, isRing]
      rfl

end Sys2Proof.StepLaws

/-! ### The serial link: lines, replies, notices and SYNC (O2, O3, O5 to O8) -/

namespace Sys2Proof.StepLaws

open Sys2Proof.Machine Sys2Proof.Laws

variable {s t u v : State}

/-! #### Commands in general (O2) -/

/-- A row with a status suffix is a command: the decoder's part, then its owner's. -/
theorem exec_of_plusOf {i : Instr} {plus : Bool} (h : plusOf i = some plus) :
    ∃ f : State → State, ∀ s, exec i s = command i plus f s := by
  cases i <;> cases h <;> exact ⟨_, fun _ => rfl⟩

theorem lineFor_iff (i : Instr) (s u : State) : lineFor i s = some u ↔
    (s.phase = .running ∧ s.link.hold = none ∧ s.link.held = none)
    ∧ ((s.link.lines = [] ∧ u = s) ∨ ∃ l rest, s.link.lines = l :: rest ∧ decodeLine l = .command i
        ∧ u = s.setLink { s.link with lines := rest }) := by
  have take : canTake s = true ↔ s.phase = .running ∧ s.link.hold = none ∧ s.link.held = none := by
    simp [canTake, and_assoc]
  rw [← take]
  unfold lineFor
  cases canTake s with
  | false => simp
  | true =>
    cases lines : s.link.lines with
    | nil => simp [eq_comm]
    | cons l rest =>
      by_cases reads : decodeLine l = .command i
      · simp only [reads, if_true]
        constructor
        · exact fun is => ⟨trivial, .inr ⟨l, rest, rfl, reads, (Option.some.inj is).symm⟩⟩
        · rintro ⟨-, ⟨none, -⟩ | ⟨_, _, same, -, rfl⟩⟩
          · cases none
          · cases same
            rfl
      · simp [reads]

/-! #### The length of a CURVE line (R1, R43) -/

theorem one_le_digitCount (fuel n : Nat) : 1 ≤ digitCount (fuel + 1) n := by
  unfold digitCount
  split <;> omega

theorem digitCount_le_iff {k fuel : Nat} (pos : 1 ≤ k) (room : k < fuel) (n : Nat) : digitCount fuel n ≤ k ↔ n < 10 ^ k := by
  induction fuel generalizing k n with
  | zero => omega
  | succ fuel ih =>
    obtain ⟨j, rfl⟩ : ∃ j, k = j + 1 := ⟨k - 1, by omega⟩
    unfold digitCount
    split
    · rename_i small
      have : 10 ≤ 10 ^ (j + 1) := Nat.le_self_pow (by omega) 10
      omega
    · rename_i large
      rcases Nat.eq_zero_or_pos j with rfl | more
      · obtain ⟨f, rfl⟩ : ∃ f, fuel = f + 1 := ⟨fuel - 1, by omega⟩
        have := one_le_digitCount f (n / 10)
        omega
      · rw [Nat.add_comm 1, Nat.add_le_add_iff_right, ih more (by omega), Nat.div_lt_iff_lt_mul (by decide), ← Nat.pow_succ]

/-- The characters of a point, with the space before it and the colon in it. -/
def pointWidth (q : Nat × Int) : Nat := 1 + (natWidth q.1 + 1 + intWidth q.2)

theorem pointWidth_spec {q : Nat × Int} (freq : q.1 ≤ 65000) (least : -2000 ≤ q.2) (most : q.2 ≤ 12000) :
    pointWidth q ≤ 12 ∧ (pointWidth q = 12 ↔ 10000 ≤ q.1 ∧ (q.2 ≤ -1000 ∨ 10000 ≤ q.2)) := by
  have known : q.1 < Config.outOfRange := Nat.lt_of_le_of_lt freq (by decide)
  have freq5 := digitCount_le_iff (k := 5) (fuel := 10) (by decide) (by decide) q.1
  have freq4 := digitCount_le_iff (k := 4) (fuel := 10) (by decide) (by decide) q.1
  have loss5 := digitCount_le_iff (k := 5) (fuel := 11) (by decide) (by decide) q.2.natAbs
  have loss4 := digitCount_le_iff (k := 4) (fuel := 11) (by decide) (by decide) q.2.natAbs
  have loss3 := digitCount_le_iff (k := 3) (fuel := 11) (by decide) (by decide) q.2.natAbs
  unfold pointWidth natWidth intWidth
  rw [if_pos known]
  split <;> omega

theorem sum_map_le_iff {α : Type} {f : α → Nat} {b : Nat} {l : List α} (h : ∀ x ∈ l, f x ≤ b) :
    (l.map f).sum ≤ b * l.length ∧ ((l.map f).sum = b * l.length ↔ ∀ x ∈ l, f x = b) := by
  induction l with
  | nil => simp
  | cons x l ih =>
    obtain ⟨le, eq⟩ := ih fun y mem => h y (List.mem_cons_of_mem _ mem)
    have here := h x List.mem_cons_self
    rw [List.map_cons, List.sum_cons, List.length_cons, Nat.mul_succ]
    refine ⟨by omega, ?_⟩
    rw [List.forall_mem_cons, ← eq]
    omega

theorem fitsLine_curve (c : Nat) {points : Curve} (h : curveOk points = true) :
    (c ≤ 99 → fitsLine (.curve false c points) = true)
    ∧ (100 ≤ c → c ≤ 255 → (fitsLine (.curve false c points) = false ↔
        points.length = 16 ∧ ∀ q ∈ points, 10000 ≤ q.1 ∧ (q.2 ≤ -1000 ∨ 10000 ≤ q.2))) := by
  simp only [curveOk, Bool.and_eq_true, within_iff, List.all_eq_true, lossInRange, decide_eq_true_eq] at h
  obtain ⟨⟨⟨-, size⟩, -⟩, points_ok⟩ := h
  have width (q : Nat × Int) (mem : q ∈ points) := pointWidth_spec (points_ok q mem).1.2 (points_ok q mem).2.1 (points_ok q mem).2.2
  obtain ⟨le, eq⟩ := sum_map_le_iff fun q mem => (width q mem).1
  have long : (∀ q ∈ points, pointWidth q = 12) ↔ ∀ q ∈ points, 10000 ≤ q.1 ∧ (q.2 ≤ -1000 ∨ 10000 ≤ q.2) :=
    forall₂_congr fun q mem => (width q mem).2
  have line : shortestLine (.curve false c points) = 6 + natWidth c + (points.map pointWidth).sum := by
    have parts : shortestLine (.curve false c points) = 5 + (1 + natWidth c + 0) + (points.map pointWidth).sum := rfl
    omega
  have digits (known : c ≤ 255) : natWidth c = digitCount 10 c :=
    if_pos (Nat.lt_of_le_of_lt known (by decide))
  have two := digitCount_le_iff (k := 2) (fuel := 10) (by decide) (by decide) c
  have three := digitCount_le_iff (k := 3) (fuel := 10) (by decide) (by decide) c
  have limit : Config.lineLength = 200 := rfl
  rw [fitsLine, decide_eq_true_eq, decide_eq_false_iff_not, line, limit, ← long, ← eq]
  refine ⟨fun known => ?_, fun known most => ?_⟩
  · rw [digits (by omega)]
    omega
  · rw [digits most]
    omega

/-- Settles O2: `lineFor` by cases of the queue, `command` by the decoder's checks, and the widths of a CURVE line. -/
theorem commandsAreTakenInOrder : Obligations.CommandsAreTakenInOrder := by
  unfold Obligations.CommandsAreTakenInOrder
  refine ⟨lineFor_iff, fun i plus s u e suffix => ?_, fun c points h => fitsLine_curve c h⟩
  obtain ⟨f, is⟩ := exec_of_plusOf suffix
  rw [is]
  refine ⟨fun line long => ?_, fun line fits check => ?_, fun line => ?_⟩
  · simp [command, line, long, replied]
  · simp [command, line, fits, check, replied]
  · simp [command, line]

/-! #### Replies, the transmitter and lost notices (O3) -/

theorem answer_free (plus : Bool) (r : Reply) (h : s.link.slot = none) : answer plus r s = s.setLink { s.link with
    slot := some { reply := { r with suffix := if plus then some (statusSummary s) else none }, thenReset := false } } := by
  simp [answer, placeReply, h]

theorem answer_full (plus : Bool) (r : Reply) (h : s.link.slot ≠ none) : answer plus r s = s.setLink { s.link with
    held := some { reply := { r with suffix := if plus then some (statusSummary s) else none }, thenReset := false } } := by
  obtain ⟨o, h⟩ := Option.ne_none_iff_exists'.1 h
  simp [answer, placeReply, h]

theorem exec_lineSent (s : State) : exec .lineSent s = .next (settle (lineLeft s)) := rfl

theorem startLine_busy (h : s.phase ≠ .running ∨ s.link.tx ≠ .idle) : startLine s = s := by
  unfold startLine
  rw [if_neg]
  simpa [Decidable.imp_iff_not_or] using h

section

variable (runs : s.phase = .running) (idle : s.link.tx = .idle)

include runs idle

theorem startLine_reply (full : s.link.slot ≠ none) (owed : s.link.owed = 0) :
    startLine s = s.setLink { s.link with tx := .reply } := by
  obtain ⟨o, slot⟩ := Option.ne_none_iff_exists'.1 full
  simp [startLine, runs, idle, slot, owed]

theorem startLine_notice {n : Notice} {l : List Notice} (front : s.link.notices = n :: l) (turn : s.link.owed ≠ 0 ∨ s.link.slot = none) :
    startLine s = s.setLink { s.link with tx := .notice n, notices := l, owed := s.link.owed - 1 } := by
  cases owed : s.link.owed with
  | zero =>
    have slot := turn.resolve_left (absurd owed)
    simp [startLine, runs, idle, slot, owed, front]
  | succ k => simp [startLine, runs, idle, owed, front]

theorem startLine_quiet (full : s.link.slot ≠ none) (none : s.link.notices = []) :
    startLine s = s.setLink { s.link with tx := .reply, owed := 0 } := by
  obtain ⟨o, slot⟩ := Option.ne_none_iff_exists'.1 full
  cases owed : s.link.owed with
  | zero => simp [startLine, runs, idle, slot, owed]
  | succ k => simp [startLine, runs, idle, slot, owed, none]

end

/-- Settles O3: each function of the transmitter by its cases. -/
theorem repliesAndNoticesTakeTurns : Obligations.RepliesAndNoticesTakeTurns := by
  unfold Obligations.RepliesAndNoticesTakeTurns
  refine ⟨fun plus r s => ⟨answer_free plus r, answer_full plus r⟩, fun s => ⟨fun n tx => ?_, fun o tx slot plain => ?_,
    fun tx => ?_, fun runs idle => ⟨startLine_reply runs idle, fun n l => startLine_notice runs idle, startLine_quiet runs idle⟩,
    startLine_busy, fun lost room => ?_, fun h => ?_⟩⟩
  · simp [exec_lineSent, lineLeft, tx]
  · simp [exec_lineSent, lineLeft, tx, slot, plain]
  · simp [exec_lineSent, lineLeft, tx]
  · exact if_pos (by simp [lost, Config.noticeQueue, room])
  · rcases h with kept | full
    · simp [queueLost, kept]
    · simp [queueLost, Config.noticeQueue, Nat.not_lt.2 full]

/-! #### Lines received (O5) -/

/-- Settles O5: a completed line by what it is assembled to. -/
theorem completedLinesJoinTheQueue : Obligations.CompletedLinesJoinTheQueue := by
  unfold Obligations.CompletedLinesJoinTheQueue
  refine ⟨fun chars bad s whole phase => ?_, fun chars => by simp [dropCr], fun chars b other => by
      simp only [dropCr, List.getLast?_concat, Option.some.injEq, if_neg other],
    fun s => by simp [cts]⟩
  intro l joins
  have check : eventCheck (.lineReceived chars bad) = none := by simp only [eventCheck, whole, Bool.false_eq_true, if_false]
  have same : joins = assembled chars bad := rfl
  rw [show exec (.lineReceived chars bad) s = execLineReceived chars bad s from rfl, execLineReceived, event, check, same]
  dsimp only
  rw [if_neg phase]
  cases assembled chars bad <;> rfl

/-! #### Refused lines (O6) -/

theorem decodeText_unprintable {chars : List Byte} (h : chars.all printable = false) :
    ∃ plus, decodeLine (.text chars) = .refused plus .syntaxErr none :=
  ⟨_, if_pos (by simp [h])⟩

/-- Settles O6: the decoder on a refused head line, and on eight lines of the manual. -/
theorem refusedLinesAreAnswered : Obligations.RefusedLinesAreAnswered := by
  unfold Obligations.RefusedLinesAreAnswered
  refine ⟨⟨fun s l rest plus c d take lines refused => ?_, rfl, rfl, fun chars h => decodeText_unprintable h⟩,
    by decide, by decide, by decide, by decide, by decide, by decide, by decide, by decide⟩
  rw [show exec .syntaxRefusal s = execSyntaxRefusal s from rfl, execSyntaxRefusal, event]
  simp [eventCheck, take, lines, refused, replied, er]

/-! #### Notices (O7) -/

theorem enqueue_room (n : Notice) (h : s.link.notices.length < 32) :
    enqueue n s = s.setLink { s.link with notices := s.link.notices ++ [n] } := if_pos h

theorem enqueue_full (n : Notice) (h : 32 ≤ s.link.notices.length) : enqueue n s = s.setLink { s.link with lost := true } :=
  if_neg (Nat.not_lt.2 h)

theorem exec_noteGapExpiry (s : State) : exec .noteGapExpiry s = .next (settle (gapExpires s)) := rfl

theorem notify_on {n : Notice} (h : s.link.enabled.contains (noticeKind n) = true) : notify n s = enqueue n s := if_pos h

theorem notify_masked {n : Notice} (h : s.link.enabled.contains (noticeKind n) = false) : notify n s = s :=
  if_neg (by rw [h]; exact Bool.false_ne_true)

theorem mem_allKinds (k : NoticeKind) : k ∈ allKinds := by cases k <;> decide

theorem mem_maskSet_all (on : Bool) (enabled : List NoticeKind) (k : NoticeKind) :
    k ∈ maskSet .all on enabled ↔ k = .boot ∨ k = .lost ∨ on = true := by
  simp [maskSet, mem_allKinds, or_assoc]

theorem mem_maskSet_kind (j : NoticeKind) (on : Bool) (enabled : List NoticeKind) (k : NoticeKind) :
    k ∈ maskSet (.kind j) on enabled ↔ k = .boot ∨ k = .lost ∨ if k = j then on = true else k ∈ enabled := by
  by_cases same : k = j <;> simp [maskSet, mem_allKinds, or_assoc, same]

theorem gapTimer_eq (n : Nat) : (if n > 0 then some n else none) = if n = 0 then none else some n := by
  by_cases h : n = 0 <;> simp [h, Nat.pos_iff_ne_zero]

/-- Settles O7: the cases of `stepEntry`, `gapExpires`, `notify` and the mask. -/
theorem noticesAreMaskedAndCoalesced : Obligations.NoticesAreMaskedAndCoalesced := by
  unfold Obligations.NoticesAreMaskedAndCoalesced
  refine ⟨fun s i p => ⟨fun masked => ?_, fun on stopped => ?_, fun d on runs => ?_, fun d runs none => ?_, fun d runs some => ?_,
    fun stopped => ?_⟩, fun n s => ⟨notify_masked, fun on room => ?_, fun on full => ?_⟩, fun plus s u taken => ?_,
    fun plus sel v s u taken => ?_, fun k j on enabled => ⟨⟨?_, ?_, ?_, ?_⟩, fun boot lost => ⟨?_, ?_⟩⟩⟩
  · rw [stepEntry, masked]
    rfl
  · have site : (enqueue (.step i p 1) s).site = s.site := by simp
    simp only [stepEntry, on, stopped, Bool.not_true, Bool.false_eq_true, if_false]
    rw [site]
    by_cases gap : s.site.noteGap = 0
    · rw [if_neg (by omega), if_pos gap]
    · rw [if_pos (Nat.pos_of_ne_zero gap), if_neg gap]
  · simp only [stepEntry, on, runs, Bool.not_true, Bool.false_eq_true, if_false]
  · simp [exec_noteGapExpiry, gapExpires, runs, none]
  · simp [exec_noteGapExpiry, gapExpires, runs, some, gapTimer_eq]
  · simp [exec_noteGapExpiry, gapExpires, stopped]
  · rw [notify_on on, enqueue_room n room]
  · rw [notify_on on, enqueue_full n full]
  · exact command_of_takes taken plus _
  · exact command_of_takes taken plus _
  · simp [mem_maskSet_kind]
  · simp [mem_maskSet_kind]
  · simp [mem_maskSet_all]
  · simp [mem_maskSet_all]
  · simp [mem_maskSet_all, boot, lost]
  · simp [mem_maskSet_kind, boot, lost]

/-! #### SYNC (O8) -/

/-- Settles O8. -/
theorem syncWaitsForOperations : Obligations.SyncWaitsForOperations := by
  unfold Obligations.SyncWaitsForOperations
  refine ⟨fun plus s u taken => command_of_takes taken plus _, fun plus ops o s hold => ?_, fun plus s hold => ?_,
    fun plus o ops s hold => ⟨?_, fun i => ?_⟩, fun s o => ?_⟩
  · simp [opEnded, hold]
  · simp [releaseSync, hold]
  · simp [releaseSync, hold]
  · simp [lineFor, canTake, hold]
  · cases o <;> simp [opsInFlight, tkeys, Option.isSome_iff_ne_none]

end Sys2Proof.StepLaws

/-! ### Settings, the store, reset and start-up (O9 to O12) -/

namespace Sys2Proof.StepLaws

open Sys2Proof.Machine Sys2Proof.Laws

variable {s t u v : State}

/-! #### Site settings (O9) -/

theorem slotProtected_iff (v : Site) (c : Nat) : slotProtected v c = true ↔
    v.protOn = 1 ∧ (v.protDir = .low ∧ c ≤ v.protEdge ∨ v.protDir = .high ∧ v.protEdge ≤ c) := by
  cases dir : v.protDir <;> simp [slotProtected, dir]

theorem lockedSetting_iff (name : Setting) : lockedSetting name = true ↔
    name = .protOn ∨ name = .protEdge ∨ name = .protDir ∨ name = .topoOneway ∨ name = .siteLock := by
  cases name <;> decide

theorem settingForm_of_takes {plus : Bool} {name : Setting} {x : SettingValue} (taken : Takes (.site plus name (some x)) s u) :
    settingForm name x = true :=
  (decoderCheck_eq_none taken.2.2).1

theorem settingRead_write_num {name : Setting} {n : Nat} (form : settingForm name (.num n) = true) (v : Site) :
    settingRead (settingWrite name (.num n) v) name = vnum n := by
  cases name
  case protDir => contradiction
  all_goals rfl

theorem settingRead_write_other {name other : Setting} {x : SettingValue} (form : settingForm name x = true) (v : Site)
    (ne : other ≠ name) : settingRead (settingWrite name x v) other = settingRead v other := by
  cases x with
  | num n => cases name <;> cases other <;> first | rfl | exact absurd rfl ne
  | dir d =>
    obtain rfl : name = .protDir := by simpa [settingForm] using form
    cases other <;> first | rfl | exact absurd rfl ne

/-- SITE that writes, past the lock. -/
theorem exec_site (plus : Bool) (name : Setting) (x : SettingValue) (taken : Takes (.site plus name (some x)) s u) :
    exec (.site plus name (some x)) s = .next (if u.lock && lockedSetting name then replied plus (er .prot) u
      else replied plus (ok []) (u.setSite (settingWrite name x u.site))) :=
  (command_of_takes taken plus _).trans (by dsimp only; split <;> rfl)

theorem lineFor_held {plus : Bool} {w : StoreWrite} (i : Instr) (hold : s.link.hold = some (.store plus w)) :
    lineFor i s = none := by
  simp [lineFor, canTake, hold]

/-- Settles O9: each command by its checks. -/
theorem settingsAndStoreWrites : Obligations.SettingsAndStoreWrites := by
  unfold Obligations.SettingsAndStoreWrites
  refine ⟨slotProtected_iff, fun plus name s u => ⟨fun taken => command_of_takes taken plus _, fun x taken =>
    ⟨fun locked frozen => ?_, fun open_ => ⟨?_, fun n is => ?_, fun d is => ?_, fun other ne =>
      settingRead_write_other (settingForm_of_takes taken) u.site ne⟩⟩⟩, ?_⟩
  · rw [exec_site plus name x taken, locked, (lockedSetting_iff name).2 frozen]
    rfl
  · rw [exec_site plus name x taken, if_neg]
    rw [Bool.and_eq_true, lockedSetting_iff]
    exact open_
  · subst is
    exact settingRead_write_num (settingForm_of_takes taken) u.site
  · subst is
    obtain rfl : name = .protDir := by simpa [settingForm] using settingForm_of_takes taken
    exact ⟨rfl, rfl, rfl⟩
  · intro plus s u writes
    refine ⟨fun taken => command_of_takes taken plus _, fun taken => command_of_takes taken plus _, fun taken => ⟨fun idle => ?_,
      fun busy => ?_⟩, fun c taken => ⟨fun free => ?_, fun prot => ?_⟩, fun c p taken => ⟨fun prot => ?_,
      fun free count => ?_, fun free count order => ?_, fun free count order => ?_⟩, fun w i hold => lineFor_held i hold⟩
    · exact (command_of_takes taken plus _).trans (by simp only [idle, if_true, writes, beginWrite])
    · exact (command_of_takes taken plus _).trans (by simp only [busy, if_false, replied])
    · exact (command_of_takes taken plus _).trans (by simp only [free, Bool.false_eq_true, if_false, writes, beginWrite])
    · exact (command_of_takes taken plus _).trans (by simp only [prot, if_true, replied])
    · exact (command_of_takes taken plus _).trans (by simp [curveChecks, prot, replied])
    · refine (command_of_takes taken plus _).trans ?_
      have outside : within 2 16 p.length = false := by simpa [within] using count
      simp [curveChecks, free, outside, replied]
    · refine (command_of_takes taken plus _).trans ?_
      simp [curveChecks, free, (within_iff 2 16 p.length).2 count, order, replied]
    · refine (command_of_takes taken plus _).trans ?_
      simp [curveChecks, free, (within_iff 2 16 p.length).2 count, order, writes, beginWrite]

/-! #### The records of a WIPE (O10) -/

theorem eraseRange_empty {lo hi : Nat} (h : hi ≤ lo) (s : State) : eraseRange lo hi s = s := by
  simp [eraseRange, Nat.sub_eq_zero_of_le h]

theorem eraseRange_succ {lo hi : Nat} (h : lo ≤ hi) (s : State) :
    eraseRange lo (hi + 1) s = eraseRecord hi (eraseRange lo hi s) := by
  have count : hi + 1 - lo = hi - lo + 1 := by omega
  have last : lo + (hi - lo) = hi := by omega
  rw [eraseRange, count, List.range_succ, List.foldl_append, List.foldl_cons, List.foldl_nil, last]
  rfl

theorem eraseRecord_whole (i : Nat) (s : State) :
    eraseRecord i s = (s.setStore (eraseRecord i s).store).setImages (eraseRecord i s).images := by
  unfold eraseRecord
  (repeat' split) <;> rfl

/-- Records `lo` up to `hi` of a WIPE are erased in `v`, and nothing else of `s` has changed. -/
structure Erased (lo hi : Nat) (s v : State) : Prop where
  settings : v.store.settings = if lo = 0 ∧ 0 < hi then .erased else s.store.settings
  wear : v.store.wear = if lo ≤ 257 ∧ 257 < hi then .erased else s.store.wear
  wfCurves : tableWf v.store.curves = true
  wfImages : tableWf v.images = true
  curves : ∀ c, tget v.store.curves c = if c ≤ 255 ∧ lo ≤ c + 1 ∧ c + 1 < hi then none else tget s.store.curves c
  images : ∀ c, tget v.images c = if c ≤ 255 ∧ lo ≤ c + 1 ∧ c + 1 < hi then none else tget s.images c
  whole : v = (s.setStore v.store).setImages v.images

theorem erased_same {lo hi : Nat} (h : hi ≤ lo) (curves : tableWf s.store.curves = true) (images : tableWf s.images = true) :
    Erased lo hi s s where
  settings := (if_neg (by omega)).symm
  wear := (if_neg (by omega)).symm
  wfCurves := curves
  wfImages := images
  curves c := (if_neg (by omega)).symm
  images c := (if_neg (by omega)).symm
  whole := rfl

theorem Erased.succ {lo hi : Nat} (room : hi < 258) (from_ : lo ≤ hi) (h : Erased lo hi s v) :
    Erased lo (hi + 1) s (eraseRecord hi v) := by
  obtain ⟨settings, wear, wfCurves, wfImages, curves, images, whole⟩ := h
  have frame : eraseRecord hi v = (s.setStore (eraseRecord hi v).store).setImages (eraseRecord hi v).images := by
    have next := eraseRecord_whole hi v
    rw [whole] at next ⊢
    exact next
  rcases Nat.eq_zero_or_pos hi with rfl | pos
  · have is : eraseRecord 0 v = v.setStore { v.store with settings := .erased } := rfl
    rw [is] at frame ⊢
    refine ⟨?_, ?_, wfCurves, wfImages, fun c => ?_, fun c => ?_, frame⟩
    · exact (if_pos (by omega)).symm
    · exact wear.trans (by rw [if_neg (by omega), if_neg (by omega)])
    · exact (curves c).trans (by rw [if_neg (by omega), if_neg (by omega)])
    · exact (images c).trans (by rw [if_neg (by omega), if_neg (by omega)])
  · by_cases curve : hi ≤ 256
    · have is : eraseRecord hi v = (v.setStore { v.store with curves := tdel v.store.curves (hi - 1) }).setImages
          (tdel v.images (hi - 1)) := by
        rw [eraseRecord, if_neg (by omega), if_pos curve]
      rw [is] at frame ⊢
      refine ⟨?_, ?_, tableWf_tdel _ wfCurves, tableWf_tdel _ wfImages, fun c => ?_, fun c => ?_, frame⟩
      · refine settings.trans ?_
        congr 1
        simp [pos]
      · exact wear.trans (by rw [if_neg (by omega), if_neg (by omega)])
      · refine (tget_tdel (hi - 1) c wfCurves).trans ?_
        rw [curves]
        (repeat' split) <;> first | rfl | omega
      · refine (tget_tdel (hi - 1) c wfImages).trans ?_
        rw [images]
        (repeat' split) <;> first | rfl | omega
    · have is : eraseRecord hi v = v.setStore { v.store with wear := .erased } := by
        rw [eraseRecord, if_neg (by omega), if_neg curve]
      rw [is] at frame ⊢
      refine ⟨?_, ?_, wfCurves, wfImages, fun c => ?_, fun c => ?_, frame⟩
      · refine settings.trans ?_
        congr 1
        simp [pos]
      · exact (if_pos (by omega)).symm
      · refine (curves c).trans ?_
        (repeat' split) <;> first | rfl | omega
      · refine (images c).trans ?_
        (repeat' split) <;> first | rfl | omega

theorem erased_eraseRange (lo : Nat) {hi : Nat} (room : hi ≤ 258) (curves : tableWf s.store.curves = true)
    (images : tableWf s.images = true) : Erased lo hi s (eraseRange lo hi s) := by
  induction hi with
  | zero =>
    rw [eraseRange_empty (Nat.zero_le lo)]
    exact erased_same (Nat.zero_le lo) curves images
  | succ hi ih =>
    by_cases more : lo ≤ hi
    · rw [eraseRange_succ more]
      exact (ih (by omega)).succ (by omega) more
    · rw [eraseRange_empty (by omega)]
      exact erased_same (by omega) curves images

/-! #### How a store write ends (O10) -/

theorem event_passes {i : Instr} (h : eventCheck i = none) (f : State → State) (s : State) :
    event i f s = .next (settle (f s)) := by
  simp only [event, h]

theorem writeEnds_ok {plus : Bool} {w : StoreWrite} (hold : s.link.hold = some (.store plus w)) : writeEnds .ok s
    = answer plus (writeSucceeds w (s.setLink { s.link with hold := none })).2
        (writeSucceeds w (s.setLink { s.link with hold := none })).1 := by
  simp only [writeEnds, hold]

theorem writeEnds_fail {plus : Bool} {w : StoreWrite} (hold : s.link.hold = some (.store plus w)) (i : Nat) (x : Residue) :
    writeEnds (.fail i x) s = if failPossible w i then answer plus (writeFails w i x (s.setLink { s.link with hold := none })).2
        (writeFails w i x (s.setLink { s.link with hold := none })).1 else s := by
  simp only [writeEnds, hold]

/-- Settles O10: `writeEnds` by the kind of write, and the records a WIPE erases. -/
theorem storeWriteEndAnswers : Obligations.StoreWriteEndAnswers := by
  unfold Obligations.StoreWriteEndAnswers
  refine ⟨?_, ?_⟩
  · intro plus w s hold u settingsLeft curveLeft wearLeft
    have settingsIs (x : Residue) (v : State) : v.setStore { v.store with settings := residueSettings x } = settingsLeft x v := by
      rcases x with _ | _ | _ | _ | _ <;> rfl
    have curveIs (c : Nat) (x : Residue) (v : State) : putCurveRecord c (residueCurve x) v = curveLeft c x v := by
      rcases x with _ | _ | _ | _ | _ <;> rfl
    have wearIs (x : Residue) (v : State) : v.setStore { v.store with wear := residueWear x } = wearLeft x v := by
      rcases x with _ | _ | _ | _ | _ <;> rfl
    refine ⟨?_, fun i left check => ⟨?_, fun out => ?_, fun at_i => ?_⟩⟩
    · refine (event_passes (i := .storeWriteEnd .ok) rfl _ s).trans ?_
      rw [writeEnds_ok hold]
      cases w <;> rfl
    · cases w with
      | wipe reach =>
        rw [failPossible, Bool.and_eq_true, decide_eq_true_eq, decide_eq_true_eq]
        exact .rfl
      | _ => exact beq_iff_eq
    · refine (event_passes check _ s).trans ?_
      rw [writeEnds_fail hold, out]
      rfl
    · refine (event_passes check _ s).trans ?_
      rw [writeEnds_fail hold, at_i, if_pos rfl]
      cases w with
      | settings z => exact congrArg (fun v => Host.Outcome.next (replied plus (er .store) v)) (settingsIs left u)
      | curve c p => exact congrArg (fun v => Host.Outcome.next (replied plus (er .store) v)) (curveIs c left u)
      | curveDel c => exact congrArg (fun v => Host.Outcome.next (replied plus (er .store) v)) (curveIs c left u)
      | wear z => exact congrArg (fun v => Host.Outcome.next (replied plus (er .store) v)) (wearIs left u)
      | wipe reach =>
        refine congrArg (fun v => Host.Outcome.next (replied plus (er .store) v)) ?_
        dsimp only
        rw [← settingsIs, ← curveIs, ← wearIs]
        rfl
  · intro u lo hi room curves images v
    obtain ⟨settings, wear, -, -, curves', images', whole⟩ := erased_eraseRange lo room curves images
    refine ⟨settings, wear, fun c known first last => ?_, fun c out => ?_, whole⟩
    · exact ⟨(curves' c).trans (if_pos ⟨known, first, last⟩), (images' c).trans (if_pos ⟨known, first, last⟩)⟩
    · exact ⟨(curves' c).trans (if_neg (by omega)), (images' c).trans (if_neg (by omega))⟩

end Sys2Proof.StepLaws

/-! ### Resets and start-up (O11, O12) -/

namespace Sys2Proof.StepLaws

open Sys2Proof.Machine Sys2Proof.Laws

variable {s t u v : State}

/-! #### Banks formed anew -/

theorem bget_foldl_bput {α β : Type} [DecidableEq α] (d : α) (f : β → α) {t : Table β} (wf : tableWf t = true) {acc : Table α}
    (wfAcc : tableWf acc = true) (n : Nat) :
    bget d (t.foldl (fun acc p => bput d acc p.1 (f p.2)) acc) n = ((tget t n).map f).getD (bget d acc n) := by
  induction t generalizing acc with
  | nil => rfl
  | cons p t ih =>
    rw [tableWf_iff] at wf
    obtain ⟨first, rest⟩ := List.pairwise_cons.1 wf
    have tail := ih ((tableWf_iff t).2 rest) (tableWf_bput d p.1 (f p.2) wfAcc)
    rw [List.foldl_cons, tail]
    by_cases here : p.1 = n
    · subst here
      have out : tget t p.1 = none := by
        cases there : tget t p.1 with
        | none => rfl
        | some x => exact absurd (first _ (mem_of_tget there)) (Nat.lt_irrefl _)
      rw [out, bget_bput_same d _ _ wfAcc]
      simp [tget]
    · rw [bget_bput_other d acc p.1 n (f p.2) (Ne.symm here)]
      simp [tget, here]

theorem bget_foldl_all {α β : Type} [DecidableEq α] {P : α → Prop} (d : α) (f : β → α) (all : ∀ x, P (f x)) (t : Table β)
    {acc : Table α} (wf : tableWf acc = true) (base : ∀ n, P (bget d acc n)) (n : Nat) :
    P (bget d (t.foldl (fun acc p => bput d acc p.1 (f p.2)) acc) n) := by
  induction t generalizing acc with
  | nil => exact base n
  | cons p t ih =>
    refine ih (tableWf_bput d _ _ wf) fun m => ?_
    by_cases here : m = p.1
    · subst here
      rw [bget_bput_same d _ _ wf]
      exact all p.2
    · rw [bget_bput_other d acc p.1 m (f p.2) here]
      exact base m

theorem bget_tmap {α : Type} (d : α) {f : α → α} (fixed : f d = d) (t : Table α) (n : Nat) :
    bget d (tmap (fun _ x => f x) t) n = f (bget d t n) := by
  rw [bget, tget_tmap, bget]
  cases tget t n with
  | none => exact fixed.symm
  | some x => rfl

theorem bget_fixturesReset_state (t : Table Fixture) (n : Nat) : (bget fixtureReset (fixturesReset t) n).state = .empty
    ∧ (bget fixtureReset (fixturesReset t) n).owner = .localOwner
    ∧ (bget fixtureReset (fixturesReset t) n).present = false :=
  bget_foldl_all (P := fun f => f.state = .empty ∧ f.owner = .localOwner ∧ f.present = false) fixtureReset
    (fun f : Fixture => { fixtureReset with fpres := f.fpres, fflt := f.fflt }) (fun _ => ⟨rfl, rfl, rfl⟩) t (acc := []) rfl
    (fun _ => ⟨rfl, rfl, rfl⟩) n

theorem bget_loopsReset_open (t : Table Loop) (n : Nat) :
    (bget loopReset (loopsReset t) n).closed = false ∧ (bget loopReset (loopsReset t) n).confirmed = false :=
  bget_foldl_all (P := fun l => l.closed = false ∧ l.confirmed = false) loopReset
    (fun l : Loop => { loopReset with input := l.input }) (fun _ => ⟨rfl, rfl⟩) t (acc := []) rfl (fun _ => ⟨rfl, rfl⟩) n

theorem getD_map_eq {α β : Type} (f : α → β) (o : Option α) (d : α) : (o.map f).getD (f d) = f (o.getD d) := by
  cases o <;> rfl

theorem bget_fixturesReset {t : Table Fixture} (wf : tableWf t = true) (n : Nat) : bget fixtureReset (fixturesReset t) n
    = { fixtureReset with fpres := (bget fixtureReset t n).fpres, fflt := (bget fixtureReset t n).fflt } :=
  (bget_foldl_bput fixtureReset (fun f : Fixture => { fixtureReset with fpres := f.fpres, fflt := f.fflt }) wf (acc := []) rfl
    n).trans (getD_map_eq _ _ fixtureReset)

theorem bget_loopsReset {t : Table Loop} (wf : tableWf t = true) (n : Nat) : bget loopReset (loopsReset t) n
    = { loopReset with input := (bget loopReset t n).input } :=
  (bget_foldl_bput loopReset (fun l : Loop => { loopReset with input := l.input }) wf (acc := []) rfl n).trans
    (getD_map_eq _ _ loopReset)

theorem bget_wearOf {t : WearCounts} (wf : tableWf t = true) (e : Nat) :
    bget wearZero (wearOf t) e = { wearZero with count := (tget t e).getD 0 } :=
  (bget_foldl_bput wearZero (fun n : Nat => { wearZero with count := n }) wf (acc := []) rfl e).trans
    (getD_map_eq (fun n : Nat => { wearZero with count := n }) _ 0)

/-! #### What follows a reset at once -/

theorem queueLost_none (h : s.link.lost = false) : queueLost s = s := by simp [queueLost, h]

/-- With nothing lost, no SYNC held and no line to send, what follows at once is the handing on of the bus. -/
theorem settle_quiet (hold : (grantBus s).link.hold = none) (lost : (grantBus s).link.lost = false)
    (phase : (grantBus s).phase ≠ .running) : settle s = grantBus s := by
  have released : releaseSync (grantBus s) = grantBus s := by
    rw [releaseSync, hold]
  rw [settle, released, queueLost_none lost, startLine_busy (.inl phase), queueLost_none lost]

theorem beginReset_phase (c : ResetCause) (s : State) : (beginReset c s).phase = .inReset := rfl

theorem settle_beginReset (c : ResetCause) (s : State) : settle (beginReset c s) = beginReset c s := by
  have same : grantBus (beginReset c s) = beginReset c s := grantBus_busy fun h => h.2 rfl
  rw [settle_quiet, same]
  · rw [same, beginReset_link]; rfl
  · rw [same, beginReset_link]; rfl
  · rw [same]; exact fun h => nomatch h

/-! #### What a reset leaves in the store (O11) -/

theorem wipeAdvance_other (h : ∀ plus reach, s.link.hold ≠ some (.store plus (.wipe reach))) : wipeAdvance s = s := by
  unfold wipeAdvance
  split
  · rename_i plus reach held
    exact absurd held (h plus reach)
  · rfl

theorem abandonWrite_none (h : ∀ plus w, s.link.hold ≠ some (.store plus w)) : abandonWrite s = s := by
  rw [abandonWrite, wipeAdvance_other fun plus reach => h plus _]
  split
  · rename_i plus w held
    exact absurd held (h plus w)
  · rfl

theorem abandonWrite_one {plus : Bool} {w : StoreWrite} (held : s.link.hold = some (.store plus w)) (one : ∀ reach, w ≠ .wipe reach) :
    abandonWrite s = leaveOne w .failed s := by
  have still : wipeAdvance s = s := wipeAdvance_other fun plus' reach held' => by
    rw [held] at held'
    cases held'
    exact one reach rfl
  simp only [abandonWrite, still, held]

theorem abandonWrite_wipe {plus : Bool} {reach : Nat} (held : s.link.hold = some (.store plus (.wipe reach))) :
    ∃ now, reach ≤ now ∧ (reach ≤ 257 → now ≤ 257)
      ∧ (abandonWrite s).store = (leaveRecord now .failed (eraseRange reach now s)).store := by
  refine ⟨max reach (min (Config.wipeReach s.free) (wipeRecords - 1)), Nat.le_max_left _ _, fun known => ?_, ?_⟩
  · exact Nat.max_le.2 ⟨known, Nat.min_le_right _ _⟩
  · simp only [abandonWrite, wipeAdvance, held, leaveOne, State.setFree_link, State.setLink_link]
    unfold leaveRecord
    (repeat' split) <;> simp [putCurveRecord]

theorem leaveRecord_failed (i : Nat) (s : State) : (leaveRecord i .failed s).store
    = if i = 0 then { s.store with settings := .failed }
      else if i ≤ 256 then { s.store with curves := tput s.store.curves (i - 1) .failed }
      else { s.store with wear := .failed } := by
  unfold leaveRecord
  (repeat' split) <;> rfl

/-- Settles O11: a reset's state read off, and the store that an abandoned write leaves. -/
theorem resetsBegin : Obligations.ResetsBegin := by
  unfold Obligations.ResetsBegin
  refine ⟨?_, ?_, fun plus s u taken => command_of_takes taken plus _⟩
  · intro s begun
    have begins (c : ResetCause) : begun c (beginReset c s) := by
      refine ⟨rfl, rfl, rfl, ?_, rfl, ?_, ?_, fun n => ?_, rfl, rfl, rfl, rfl, rfl, rfl⟩
      · simp [muteReq, beginReset_phase]
      · rw [ready, beginReset_ring]; rfl
      · rw [markOut, beginReset_ring]; rfl
      · rw [fixturePower, fixtureAt, beginReset_fixtures, (bget_fixturesReset_state _ n).1]
        rfl
    refine ⟨⟨_, congrArg Host.Outcome.next (settle_beginReset .power s), begins _⟩,
      ⟨_, congrArg Host.Outcome.next (settle_beginReset .line s), begins _⟩, fun o tx slot resets =>
      ⟨_, ?_, begins .command⟩⟩
    rw [exec_lineSent, show lineLeft s = beginReset .command s from by simp [lineLeft, tx, slot, resets], settle_beginReset]
  · intro c s left
    have is : left = (abandonWrite s).store := beginReset_store c s
    refine ⟨fun none => ?_, fun plus w held => ?_, fun plus w held => ?_, fun plus k p held => ?_, fun plus k held => ?_,
      fun plus reach held => ?_⟩
    · rw [is, abandonWrite_none none]
    · rw [is, abandonWrite_one held (by simp)]
      rfl
    · rw [is, abandonWrite_one held (by simp)]
      rfl
    · rw [is, abandonWrite_one held (by simp)]
      rfl
    · rw [is, abandonWrite_one held (by simp)]
      rfl
    · obtain ⟨now, least, most, store⟩ := abandonWrite_wipe held
      refine ⟨now, least, most, ?_⟩
      rw [is, store, leaveRecord_failed]

/-! #### Start-up (O12) -/

theorem startUp_phase (s : State) : (startUp s).phase = .discovery := rfl

theorem settle_startUp (s : State) : settle (startUp s) = setTx (some (.pollDiscovery 0)) (startUp s) := by
  have engine := startUp_engine s
  have nothing : engineIssues (startUp s) = none :=
    engineIssues_engineless (by rw [engine]; rfl) (by simp [waitingDrives, engine, engineReset]) (by simp [engine, engineReset])
  have quiet : restartWants (startUp s) = none := by
    unfold restartWants cardAt
    rw [startUp_cards]
    rfl
  have granted := grantBus_discovery (s := startUp s) (k := 0) ⟨rfl, fun h => nomatch h⟩ nothing quiet rfl
  rw [settle_quiet, granted]
  · rw [granted]; rfl
  · rw [granted]; rfl
  · rw [granted]; exact fun h => nomatch h

theorem startUp_site (s : State) : (startUp s).site = (validOf s.store.settings).getD siteDefault := rfl

theorem startUp_rate (s : State) :
    (startUp s).rate = (startUp s).site.linkRate ∧ (startUp s).lock = ((startUp s).site.siteLock == 1) := ⟨rfl, rfl⟩

theorem startUp_failed (s : State) : (startUp s).failed = failedOne s.store.settings
    + (s.store.curves.map fun p => failedOne p.2).sum + failedOne s.store.wear := rfl

theorem startUp_store (s : State) : (startUp s).store = s.store := by
  simp [startUp, startFilters, clearVolatile, storeLoad]

theorem startUp_cleared (s : State) : (startUp s).routes = [] ∧ (startUp s).latch = false ∧ (startUp s).records.fault = none
    ∧ (startUp s).records.more = 0 ∧ (startUp s).records.late = 0 := by
  simp [startUp, startFilters, clearVolatile, storeLoad, recordsReset]

theorem startUp_fixtureAt (s : State) (n : Nat) : fixtureAt (startUp s) n
    = { bget fixtureReset (fixturesReset s.fixtures) n with
        counting := (bget fixtureReset (fixturesReset s.fixtures) n).fpres } := by
  rw [fixtureAt, startUp_fixtures]
  exact bget_tmap fixtureReset (f := fun f : Fixture => { f with counting := f.fpres }) rfl _ n

theorem startUp_loopAt (s : State) (n : Nat) : loopAt (startUp s) n
    = { bget loopReset (loopsReset s.loops) n with counting := (bget loopReset (loopsReset s.loops) n).input } := by
  rw [loopAt, startUp_loops]
  exact bget_tmap loopReset (f := fun l : Loop => { l with counting := l.input }) rfl _ n

theorem startUp_wearAt (s : State) (e : Nat) :
    wearAt (startUp s) e = bget wearZero (wearOf ((validOf s.store.wear).getD [])) e := by
  rw [wearAt, startUp_wear]

theorem placeBoot_eq (s : State) : placeBoot s = s.setLink { s.link with
    notices := .boot s.cause s.failed ::
      (if s.link.notices.length < 32 then s.link.notices else s.link.notices.dropLast)
    lost := s.link.lost || !decide (s.link.notices.length < 32) } := by
  unfold placeBoot
  by_cases room : s.link.notices.length < 32
  · simp [Config.noticeQueue, room]
  · simp [Config.noticeQueue, room]

/-- Settles O12: start-up's state read off, its banks formed anew, and `!BOOT` placed. -/
theorem startUpLoadsAndBoots : Obligations.StartUpLoadsAndBoots := by
  unfold Obligations.StartUpLoadsAndBoots
  refine ⟨fun s phase => ?_, ?_⟩
  · obtain ⟨routes, latch, fault, more, late⟩ := startUp_cleared s
    refine ⟨setTx (some (.pollDiscovery 0)) (startUp s), ?_, ⟨rfl, rfl, ?_, ?_⟩, ?_, ⟨?_, ?_, ?_⟩, ?_, ?_,
    ⟨startUp_net s, ?_, startUp_engine s, startUp_ring s, startUp_cards s, ?_, startUp_link s⟩, ⟨?_, ?_, ?_⟩,
    fun w valid wf e => ?_, fun invalid e => ?_, fun n => ?_, fun wf n => ?_, fun wf n => ?_⟩
    · rw [← settle_startUp]
      refine (event_passes (i := .resetEnd) rfl _ s).trans ?_
      rw [if_pos phase]
    · simp [cts, startUp_link, startUp_phase, linkReset]
    · simp [muteReq, startUp_phase]
    · rw [show (setTx (some (.pollDiscovery 0)) (startUp s)).site = (startUp s).site from rfl, startUp_site]
      cases s.store.settings <;> rfl
    · exact (startUp_rate s).1
    · exact (startUp_rate s).2
    · exact startUp_store s
    · refine (startUp_images s).trans ?_
      unfold imagesOf
      refine filterMap_eq_of_mem fun p _ => ?_
      cases p.2 <;> rfl
    · exact startUp_failed s
    · exact routes
    · exact latch
    · exact fault
    · exact more
    · exact late
    · refine (startUp_wearAt s e).trans ?_
      rw [valid]
      exact bget_wearOf wf e
    · refine (startUp_wearAt s e).trans ?_
      have none : validOf s.store.wear = none := by
        cases is : s.store.wear with
        | valid w => exact absurd is (invalid w)
        | _ => rfl
      rw [none]
      rfl
    · obtain ⟨state, owner, present⟩ := bget_fixturesReset_state s.fixtures n
      obtain ⟨closed, confirmed⟩ := bget_loopsReset_open s.loops n
      rw [show fixtureAt (setTx (some (.pollDiscovery 0)) (startUp s)) n = fixtureAt (startUp s) n from rfl,
        show loopAt (setTx (some (.pollDiscovery 0)) (startUp s)) n = loopAt (startUp s) n from rfl, startUp_fixtureAt,
        startUp_loopAt]
      exact ⟨state, owner, present, closed, confirmed⟩
    · refine (startUp_fixtureAt s n).trans ?_
      rw [bget_fixturesReset wf]
      rfl
    · refine (startUp_loopAt s n).trans ?_
      rw [bget_loopsReset wf]
      rfl
  · intro s done room u
    have is : endDiscovery s = u := by
      rw [endDiscovery, if_pos done, placeBoot_eq]
      rfl
    refine ⟨(event_passes (i := .discoveryEnd) rfl _ s).trans (by rw [is]), ?_, ?_⟩
    · simp [u]
    · simp [u, muteReq, exposure, permit, loopAt, anyRadiates, routesWhere, routeAt]

end Sys2Proof.StepLaws

/-! ### GO, and what the end of the engine's last drive leads to (O27) -/

namespace Sys2Proof.StepLaws

open Sys2Proof.Machine Sys2Proof.Laws

variable {s t u v : State}

/-! #### What is held -/

theorem hold_of_takes {i : Instr} (h : Takes i s u) : u.link.hold = none := by
  obtain ⟨frame, -, -, hold, -⟩ := lineFor_spec h.1
  rw [frame]
  exact hold

theorem opEnded_free (o : Op) (h : s.link.hold = none) : opEnded o s = s := by
  rw [opEnded, h]

theorem opEnded_goWait (o : Op) (s : State) (plus : Bool) :
    (opEnded o s).link.hold = some (.goWait plus) ↔ s.link.hold = some (.goWait plus) := by
  unfold opEnded
  split
  · rename_i held
    simp [held]
  · exact .rfl

/-! #### A request taken -/

/-- The engine with staging over (R110). -/
def stagedOut (g : Engine) : Engine := { g with mode := .idle, staging := stagingReset }

theorem stagingOver_idle (s : State) : setMode .idle (stagingOver s) = opEnded .staging (s.setEngine (stagedOut s.engine)) := by
  unfold stagingOver opEnded
  simp only [State.setEngine_link]
  split <;> rfl

theorem decideRequest_fails {q : Request} {f : CheckFail} (origin : q.origin ≠ .step) (mode : s.engine.mode = .idle)
    (fails : checkSet s q = some f) : decideRequest q s = (s, .refused f) := by
  simp only [decideRequest, if_neg origin, setMode_self mode, fails]

theorem decideRequest_passes {q : Request} (origin : q.origin ≠ .step) (mode : s.engine.mode = .idle)
    (passes : checkSet s q = none) : decideRequest q s = (accept q s, .accepted) := by
  simp only [decideRequest, if_neg origin, setMode_self mode, passes]

theorem takeRequest_staged {q : Request} (mode : s.engine.mode = .staging) (still : s.engine.active = []) :
    takeRequest q s = decideRequest q (opEnded .staging (s.setEngine (stagedOut s.engine))) := by
  have quit : setMode .idle (stagingOver (s.setEngine { s.engine with staging := quitStaging s.engine.staging }))
      = opEnded .staging (s.setEngine (stagedOut s.engine)) := by
    rw [stagingOver_idle]
    rfl
  have again (v : State) : decideRequest q (setMode .idle v) = decideRequest q v := rfl
  rw [← quit, again]
  simp [takeRequest, mode, still]

theorem takeRequest_waits {q : Request} (mode : s.engine.mode = .staging) (moving : s.engine.active ≠ []) :
    takeRequest q s = (s.setEngine { s.engine with
      mode := .check, staging := quitStaging s.engine.staging, waiting := some q }, .waiting) := by
  simp [takeRequest, mode, moving, setMode]

theorem goRefusal_none {ids : List Nat} (mode : s.engine.mode = .idle ∨ s.engine.mode = .staging) (ring : ringRuns s = false)
    (apart : firstRepeat [] ids = none) : goRefusal s ids = none := by
  rcases mode with mode | mode <;> simp [goRefusal, engineEngaged, inFlight, mode, ring, apart]

theorem exec_go (plus : Bool) (ids : List Nat) (taken : Takes (.go plus ids) s u) (passes : goRefusal u ids = none) :
    exec (.go plus ids) s = .next (settle (requestGo plus ids u)) :=
  (command_of_takes taken plus _).trans (by simp only [passes])

theorem exec_go_refused (plus : Bool) (ids : List Nat) {r : Reply} (taken : Takes (.go plus ids) s u)
    (refused : goRefusal u ids = some r) : exec (.go plus ids) s = .next (replied plus r u) :=
  (command_of_takes taken plus _).trans (by simp only [refused, replied])

theorem requestGo_refused {plus : Bool} {ids : List Nat} {f : CheckFail}
    (h : takeRequest { origin := .command, target := ids, plus := plus } s = (t, .refused f)) :
    requestGo plus ids s = answer plus (erWith f.1 f.2) t := by
  simp only [requestGo, h]

theorem requestGo_accepted {plus : Bool} {ids : List Nat}
    (h : takeRequest { origin := .command, target := ids, plus := plus } s = (t, .accepted)) :
    requestGo plus ids s = followUp rounds (proceed (answer plus (ok []) t)) := by
  simp only [requestGo, h]

theorem requestGo_waiting {plus : Bool} {ids : List Nat}
    (h : takeRequest { origin := .command, target := ids, plus := plus } s = (t, .waiting)) :
    requestGo plus ids s = t.setLink { t.link with hold := some (.goWait plus) } := by
  simp only [requestGo, h]

/-! #### CHECK's wait over (R86, R87, R111) -/

theorem answerGo_congr {r : Reply} {plus : Bool} (h : v.link.hold = some (.goWait plus)) :
    answerGo r v = answer plus r (v.setLink { v.link with hold := none }) := by
  simp only [answerGo, h]

theorem answerGo_other {r : Reply} (h : ∀ plus, v.link.hold ≠ some (.goWait plus)) : answerGo r v = v := by
  unfold answerGo
  split
  · rename_i plus held
    exact absurd held (h plus)
  · rfl

/-- The state in which a waiting request's checks are made (R110, R111). -/
def checkedFrom (q : Request) (s : State) : State :=
  let idle := (opEnded .staging (s.setEngine (stagedOut s.engine))).setEngine { stagedOut s.engine with waiting := none }
  if q.origin = .step then promoteHolder idle else idle

theorem resolveCheck_none (h : s.engine.waiting = none) :
    resolveCheck s = (opEnded .staging (s.setEngine (stagedOut s.engine)), .nothing) := by
  have waiting : (stagingOver s).engine.waiting = none := by simp [stagingOver, h]
  simp only [resolveCheck, waiting, stagingOver_idle]

theorem checkedFrom_eq (q : Request) (s : State) :
    (let idle := setMode .idle ((stagingOver s).setEngine { (stagingOver s).engine with waiting := none })
     if q.origin = .step then promoteHolder idle else idle) = checkedFrom q s := by
  have idle : setMode .idle ((stagingOver s).setEngine { (stagingOver s).engine with waiting := none })
      = (opEnded .staging (s.setEngine (stagedOut s.engine))).setEngine { stagedOut s.engine with waiting := none } := by
    unfold stagingOver opEnded
    simp only [State.setEngine_link]
    split <;> rfl
  dsimp only
  rw [idle]
  rfl

theorem checkedFrom_goWait (q : Request) (s : State) (plus : Bool) :
    (checkedFrom q s).link.hold = some (.goWait plus) ↔ s.link.hold = some (.goWait plus) := by
  unfold checkedFrom
  split <;> simp [opEnded_goWait]

/-- The waiting request refused, and its requester told. -/
theorem resolveCheck_fails {q : Request} {f : CheckFail} (h : s.engine.waiting = some q)
    (fails : checkSet (checkedFrom q s) q = some f) :
    (q.origin = .command → resolveCheck s = (answerGo (erWith f.1 f.2) (opEnded .transition (checkedFrom q s)), .nothing))
    ∧ (q.origin = .step →
        resolveCheck s = (ringRefused (haltOfCode f.1) f.2 (opEnded .transition (checkedFrom q s)), .nothing))
    ∧ (q.origin = .drop → resolveCheck s = (opEnded .transition (checkedFrom q s), .nothing)) := by
  have waiting : (stagingOver s).engine.waiting = some q := by simp [stagingOver, h]
  rw [← checkedFrom_eq] at fails ⊢
  refine ⟨fun origin => ?_, fun origin => ?_, fun origin => ?_⟩ <;>
    simp only [origin, reduceCtorEq, if_true, if_false] at fails ⊢ <;>
    simp only [resolveCheck, decideRequest, waiting, origin, reduceCtorEq, if_true, if_false, fails]

/-- The waiting request passed, its requester told, and the transition gone on. -/
theorem resolveCheck_passes {q : Request} (h : s.engine.waiting = some q) (passes : checkSet (checkedFrom q s) q = none) :
    resolveCheck s = proceed (if q.origin = .command then answerGo (ok []) (accept q (checkedFrom q s))
      else accept q (checkedFrom q s)) := by
  have waiting : (stagingOver s).engine.waiting = some q := by simp [stagingOver, h]
  rw [← checkedFrom_eq] at passes ⊢
  dsimp only at passes ⊢
  simp only [resolveCheck, decideRequest, waiting, passes]

/-! #### What the ring asks at the end of an entry (R125, R128) -/

theorem dwellAsk_enter (st : StepRec) : dwellAsk st ≠ .enter := by
  unfold dwellAsk
  split <;> exact fun h => nomatch h

theorem afterNotice_enter (st : StepRec) (h : s.ring.pendingTrig = false) : (afterNotice st s).2 ≠ .enter := by
  unfold afterNotice
  simp only [h, Bool.false_and, Bool.false_eq_true, if_false]
  split
  · exact fun h => nomatch h
  · exact dwellAsk_enter st

theorem ringOutcome_enter (n : Nat) (out : TransOutcome) (c : Option EndCause) (h : s.ring.pendingTrig = false) :
    (ringOutcome n out c s).2 ≠ .enter := by
  unfold ringOutcome
  split
  · split
    · rename_i st _
      rw [entryClean_eq]
      split
      · exact fun h => nomatch h
      · refine afterNotice_enter st ?_
        rw [announced_ring, reported_ring]
        exact h
    · exact fun h => nomatch h
    · exact fun h => nomatch h
  · exact fun h => nomatch h

theorem endTransition_enter (completed : Bool) (h : s.ring.pendingTrig = false) : (endTransition completed s).2 ≠ .enter := by
  cases held : s.engine.trans with
  | none =>
    rw [endTransition_none completed held]
    exact fun h => nomatch h
  | some r =>
    obtain ⟨-, -, -, ring, -⟩ := (within_endedBefore r completed s).rest
    rw [endTransition_eq' completed held]
    unfold tellOutcome
    split
    · refine ringOutcome_enter _ _ _ ?_
      rw [ring]
      exact h
    · exact fun h => nomatch h

theorem phaseAdvance_enter (h : s.ring.pendingTrig = false) : (phaseAdvance s).2 ≠ .enter := by
  unfold phaseAdvance
  (repeat' split) <;> first | exact endTransition_enter _ h | (intro asks; cases asks)

theorem ringTorn_pendingTrig (c : TearCause) (q : Nat) (h : s.ring.pendingTrig = false) :
    (ringTorn c q s).ring.pendingTrig = false := by
  by_cases halting : Halting s q
  · rw [ringTorn_halts c halting, haltRing_ring]
    rfl
  · rw [ringTorn_same c halting]
    exact h

theorem leaveOld_pendingTrig (r : Trans) (h : s.ring.pendingTrig = false) : (leaveOld r s).ring.pendingTrig = false := by
  unfold leaveOld
  induction r.old.filter (fun q => !r.target.contains q) generalizing s with
  | nil => exact h
  | cons q l ih =>
    refine ih ?_
    split
    · exact ringTorn_pendingTrig _ _ (by simpa using h)
    · simpa using h

theorem proceed_enter (h : s.ring.pendingTrig = false) : (proceed s).2 ≠ .enter := by
  unfold proceed startBreak
  split
  · split
    · exact fun h => nomatch h
    · exact phaseAdvance_enter (leaveOld_pendingTrig _ h)
  · exact fun h => nomatch h

/-- An entry that begins asks for no other entry (R128; log entry 30). -/
theorem beginEntry_enter (s : State) : (continueEntry (beginEntry s)).2 ≠ .enter := by
  unfold continueEntry
  split
  · rename_i passed
    refine proceed_enter ?_
    unfold beginEntry at passed ⊢
    split
    · rw [haltRing_ring]
      rfl
    · dsimp only at passed ⊢
      split <;> simp_all
  · exact fun h => nomatch h

/-! #### The engine looked at (R97, R110, R112) -/

theorem advanceAll_eq (s : State) : advanceAll s = followUp rounds (advance s) := rfl

theorem followUp_rest (s : State) : followUp rounds (s, .nothing) = takeHeldDrop s := rfl

theorem takeHeldDrop_engaged (h : s.engine.mode ≠ .idle) : takeHeldDrop s = s := takeHeldDrop_idle fun _ => h

theorem advance_staging (mode : s.engine.mode = .staging) :
    (s.engine.active ≠ [] ∨ s.engine.staging.todo ≠ [] → advance s = (s, .nothing))
    ∧ (s.engine.active = [] → s.engine.staging.todo = [] →
        advance s = (opEnded .staging (s.setEngine (stagedOut s.engine)), .nothing)) := by
  refine ⟨fun left => ?_, fun still empty => ?_⟩
  · have some : (s.engine.active.isEmpty && s.engine.staging.todo.isEmpty) = false := by
      rcases left with left | left <;> simp [left]
    simp only [advance, mode, some, Bool.false_eq_true, if_false]
  · simp only [advance, mode, still, empty, List.isEmpty_nil, Bool.and_self, if_true, stagingOver_idle]

theorem advance_survey (mode : s.engine.mode = .survey) :
    (s.engine.survey.current ≠ none → advance s = (s, .nothing))
    ∧ (s.engine.survey.current = none → passOver s s.engine.survey.todo ≠ [] → advance s
        = (s.setEngine { s.engine with survey := { s.engine.survey with todo := passOver s s.engine.survey.todo } }, .nothing))
    ∧ (s.engine.survey.current = none → passOver s s.engine.survey.todo = [] → advance s
        = (opEnded .survey (s.setEngine { s.engine with mode := .idle, survey := surveyReset }), .nothing)) := by
  refine ⟨fun sensing => ?_, fun none left => ?_, fun none over_ => ?_⟩
  · obtain ⟨e, current⟩ := Option.ne_none_iff_exists'.1 sensing
    have same : surveyAdvance s = s := by
      simp only [surveyAdvance, current, Option.isNone_some, Bool.false_and, Bool.false_eq_true, if_false]
      rw [← current]
      rfl
    simp only [advance, mode, same]
  · simp [advance, mode, surveyAdvance, none, left]
  · simp [advance, mode, surveyAdvance, none, over_]

/-- Settles O27: GO by its refusals and the request's three answers; `advanceAll` by the engine's state. -/
theorem goIsCheckedThenTaken : Obligations.GoIsCheckedThenTaken := by
  unfold Obligations.GoIsCheckedThenTaken
  refine ⟨?_, ?_⟩
  · intro plus ids s u taken q g quit
    have hold := hold_of_takes taken
    have plain : q.origin ≠ .step := fun h => nomatch h
    refine ⟨fun busy => ?_, fun free unsurveyed ring => ?_, fun r free unsurveyed ring again => ?_, fun ring apart =>
      ⟨fun mode => ⟨fun c d fails => ?_, fun passes => ?_⟩, fun mode moving => ?_, fun mode still => ?_⟩⟩
    · exact exec_go_refused plus ids taken (if_pos (by simpa using busy))
    · exact exec_go_refused plus ids taken (by simp [goRefusal, free, unsurveyed, ring])
    · exact exec_go_refused plus ids taken (by simp [goRefusal, free, unsurveyed, ring, again])
    · have none := goRefusal_none (.inl mode) ring apart
      have refused : takeRequest q u = (u, .refused (c, d)) := by
        rw [takeRequest, mode]
        exact decideRequest_fails plain mode fails
      rw [exec_go plus ids taken none, requestGo_refused refused]
      rfl
    · have none := goRefusal_none (.inl mode) ring apart
      have accepted : takeRequest q u = (accept q u, .accepted) := by
        rw [takeRequest, mode]
        exact decideRequest_passes plain mode passes
      rw [exec_go plus ids taken none, requestGo_accepted accepted]
    · rw [exec_go plus ids taken (goRefusal_none (.inr mode) ring apart), requestGo_waiting (takeRequest_waits mode moving)]
      rfl
    · intro ended
      have none := goRefusal_none (.inr mode) ring apart
      have taken' : takeRequest q u = decideRequest q ended := by
        rw [takeRequest_staged mode still, opEnded_free (s := u.setEngine (stagedOut u.engine)) _ hold]
        rfl
      refine ⟨fun c d fails => ?_, fun passes => ?_⟩
      · rw [exec_go plus ids taken none, requestGo_refused (taken'.trans (decideRequest_fails plain rfl fails))]
        rfl
      · rw [exec_go plus ids taken none, requestGo_accepted (taken'.trans (decideRequest_passes plain rfl passes))]
  · intro s ended
    refine ⟨fun mode => ?_, fun mode => ?_, fun mode => ?_, fun mode => ?_, fun mode => ⟨fun moving => ?_, fun still none => ?_,
      fun q still waits => ?_⟩, ?_⟩
    · rw [advanceAll_eq, advance_still mode, followUp_rest]
    · rcases mode with mode | mode <;> simp only [advanceAll_eq, advance, mode]
    · obtain ⟨sensing, more, last⟩ := advance_survey mode
      refine ⟨fun h => ?_, fun h k => ?_, fun h k => ?_⟩
      · rw [advanceAll_eq, sensing h, followUp_rest, takeHeldDrop_engaged (by simp [mode])]
      · rw [advanceAll_eq, more h k, followUp_rest, takeHeldDrop_engaged (by simp [mode])]
      · rw [advanceAll_eq, last h k, followUp_rest]
    · obtain ⟨more, last⟩ := advance_staging mode
      refine ⟨fun h => ?_, fun h k => ?_⟩
      · rw [advanceAll_eq, more h, followUp_rest, takeHeldDrop_engaged (by simp [mode])]
      · rw [advanceAll_eq, last h k, followUp_rest]
        rfl
    · have same : advance s = (s, .nothing) := by simp [advance, mode, moving]
      rw [advanceAll_eq, same, followUp_rest, takeHeldDrop_engaged (by simp [mode])]
    · have is : advance s = resolveCheck s := by simp [advance, mode, still]
      rw [advanceAll_eq, is, resolveCheck_none none, followUp_rest]
      rfl
    · intro idle u told
      have is : advance s = resolveCheck s := by simp [advance, mode, still]
      have idleIs : idle = (opEnded .staging (s.setEngine (stagedOut s.engine))).setEngine
          { stagedOut s.engine with waiting := none } := by
        have engine : ended.engine = stagedOut s.engine := by simp [ended, stagedOut]
        show ended.setEngine { ended.engine with waiting := none } = ended.setEngine { stagedOut s.engine with waiting := none }
        rw [engine]
      have isU : checkedFrom q s = u := by
        have elems (e : Nat) : elemAt idle e = elemAt s e := by simp [elemAt, idle, ended]
        have promoted : promoteHolder idle = (match s.engine.holder with
            | none => idle
            | some a => recordFault { plainFault .ahead with
                  elem := some a.elem, commanded := some a.commanded, indicated := some a.indicated }
                ((match elemAt s a.elem with
                  | some x => setElem a.elem { x with faulted := true } idle
                  | none => idle).setEngine { idle.engine with holder := none })) := by
          have holder : idle.engine.holder = s.engine.holder := by rw [idleIs]; rfl
          unfold promoteHolder
          rw [holder]
          cases s.engine.holder with
          | none => rfl
          | some a =>
            simp only [updElem, elems]
            cases elemAt s a.elem <;> rfl
        simp only [checkedFrom, u, ← idleIs, promoted] <;> rfl
      have isTold (r : Reply) (v : State) (same : ∀ plus, v.link.hold = some (.goWait plus) ↔ s.link.hold = some (.goWait plus)) :
          told r v = answerGo r v := by
        simp only [told]
        split
        · rename_i plus held
          exact (answerGo_congr ((same plus).2 held)).symm
        · rename_i other
          exact (answerGo_other fun plus held => other plus ((same plus).1 held)).symm
      have hold (plus : Bool) : u.link.hold = some (.goWait plus) ↔ s.link.hold = some (.goWait plus) := by
        rw [← isU]
        exact checkedFrom_goWait q s plus
      rw [← isU] at hold ⊢
      rw [advanceAll_eq, is]
      refine ⟨fun c d fails => ?_, fun passes => ⟨fun origin => ?_, fun origin => ?_⟩⟩
      · intro v
        obtain ⟨command, step, drop⟩ := resolveCheck_fails waits fails
        refine ⟨fun origin => ?_, fun origin => ?_, fun origin => ?_⟩
        · rw [command origin, isTold _ _ fun plus => (opEnded_goWait _ _ plus).trans (hold plus)]
          rfl
        · rw [step origin]
          rfl
        · rw [drop origin]
          rfl
      · rw [resolveCheck_passes waits passes, if_pos origin, isTold]
        simpa using hold
      · rw [resolveCheck_passes waits passes, if_neg origin]
    · intro u entry
      refine ⟨rfl, rfl, fun asks => ?_, fun asks => ?_, beginEntry_enter u, rfl, rfl⟩
      · calc followUp rounds (s, .enter) = followUp 2 (entry.1, entry.2) := rfl
          _ = followUp 2 (entry.1, .nothing) := by rw [asks]
          _ = takeHeldDrop entry.1 := rfl
      · calc followUp rounds (s, .enter) = followUp 2 (entry.1, entry.2) := rfl
          _ = followUp 2 (entry.1, .stage) := by rw [asks]
          _ = stageNext (takeHeldDrop entry.1) := rfl

end Sys2Proof.StepLaws

/-! ### MUTE_ACK and the mute timer (O30) -/

namespace Sys2Proof.StepLaws

open Sys2Proof.Machine Sys2Proof.Laws

variable {s t u v : State} {r : Trans} {o : Origin}

/-! #### The routes that leave at the start of BREAK (R94) -/

/-- One route leaves at the start of BREAK. -/
def leaveOne (o : Origin) (q : Nat) (s : State) : State :=
  if o = .drop then ringTorn .permit q (tearApplied .permit q s) else routeLeave q s

/-- Routes leave in turn. -/
def leaveEach (o : Origin) (l : List Nat) (s : State) : State := l.foldl (fun s q => leaveOne o q s) s

/-- The routes of A that are not in B. -/
def leaving (r : Trans) : List Nat := r.old.filter fun q => !r.target.contains q

theorem leaveOld_eq (r : Trans) (s : State) : leaveOld r s = leaveEach r.origin (leaving r) s := rfl

theorem mem_leaving (q : Nat) : q ∈ leaving r ↔ q ∈ r.old ∧ q ∉ r.target := by simp [leaving]

/-- The record a route leaves at the start of BREAK. -/
def leftRecord (o : Origin) (x : Route) : Option Route :=
  match x.state with
  | .applied => some { x with state := .ready, torn := if o = .drop then some .permit else x.torn }
  | .retiring => none
  | _ => some { x with torn := if o = .drop then some .permit else x.torn }

theorem leftRecord_applied {x : Route} (h : x.state = .applied) (o : Origin) :
    leftRecord o x = some { x with state := .ready, torn := if o = .drop then some .permit else x.torn } := by
  simp only [leftRecord, h]

theorem leftRecord_retiring {x : Route} (h : x.state = .retiring) (o : Origin) : leftRecord o x = none := by
  simp only [leftRecord, h]

theorem routeAt_leaveOne (wf : tableWf s.routes = true) (o : Origin) (p q : Nat) :
    routeAt (leaveOne o p s) q = if q = p then (routeAt s p).bind (leftRecord o) else routeAt s q := by
  unfold leaveOne
  by_cases drop : o = .drop
  · have routes : (ringTorn .permit p (tearApplied .permit p s)).routes = (tearApplied .permit p s).routes := by simp
    have same : tornRecord .permit = leftRecord o := by
      funext x
      cases state : x.state <;> simp [tornRecord, leftRecord, state, drop]
    rw [if_pos drop, ← same, ← routeAt_tearApplied wf, routeAt, routes]
    rfl
  · rw [if_neg drop, routeAt_routeLeave wf]
    split
    · cases routeAt s p with
      | none => rfl
      | some x =>
        rcases x with ⟨state, _, _, _, _, _, _, _, _, _, _⟩
        cases state <;> simp [leftRecord, drop]
    · rfl

theorem tableWf_leaveOne (wf : tableWf s.routes = true) (o : Origin) (p : Nat) : tableWf (leaveOne o p s).routes = true := by
  unfold leaveOne
  split
  · have routes : (ringTorn .permit p (tearApplied .permit p s)).routes = (tearApplied .permit p s).routes := by simp
    rw [routes]
    exact tableWf_tearApplied wf .permit p
  · rw [routeLeave_eq]
    dsimp only
    split
    · split
      · exact tableWf_tput _ _ wf
      · rw [(notify_spec _ _).1]; exact tableWf_tdel _ wf
      · exact wf
    · exact wf

theorem routeAt_leaveEach {l : List Nat} (wf : tableWf s.routes = true) (nodup : l.Nodup) (q : Nat) :
    routeAt (leaveEach o l s) q = if q ∈ l then (routeAt s q).bind (leftRecord o) else routeAt s q := by
  induction l generalizing s with
  | nil => simp [leaveEach]
  | cons p l ih =>
    obtain ⟨apart, nodup⟩ := List.nodup_cons.1 nodup
    rw [show leaveEach o (p :: l) s = leaveEach o l (leaveOne o p s) from rfl, ih (tableWf_leaveOne wf o p) nodup,
      routeAt_leaveOne wf]
    by_cases here : q = p
    · subst here
      simp [apart]
    · simp [here]

/-! #### The engine and the ring -/

theorem endedStaging_unstaged {g : Engine} (h : g.mode ≠ .staging) : endedStaging false g = g := by
  rw [endedStaging_rest]
  simp [endedStaging, h]

theorem ringTorn_engine {c : TearCause} {q : Nat} (h : s.engine.mode ≠ .staging) : (ringTorn c q s).engine = s.engine := by
  by_cases halting : Halting s q
  · rw [ringTorn_halts c halting, haltRing_engine, endedStaging_unstaged h]
  · rw [ringTorn_same c halting]

theorem leaveOne_engine (h : s.engine.mode ≠ .staging) (o : Origin) (q : Nat) :
    (leaveOne o q s).engine = { s.engine with applied := s.engine.applied.erase q } := by
  have torn (c : TearCause) := tearApplied_engine c q s
  unfold leaveOne
  split
  · rw [ringTorn_engine (by rw [torn]; exact h), torn]
  · rw [routeLeave_eq]
    cases routeAt s q with
    | none => rfl
    | some x => cases state : x.state <;> simp [state, withApplied]

theorem leaveEach_engine {l : List Nat} (h : s.engine.mode ≠ .staging) :
    (leaveEach o l s).engine = { s.engine with applied := l.foldl List.erase s.engine.applied } := by
  induction l generalizing s with
  | nil => rfl
  | cons q l ih =>
    have one := leaveOne_engine h o q
    rw [show leaveEach o (q :: l) s = leaveEach o l (leaveOne o q s) from rfl, ih (by rw [one]; exact h), one]
    rfl

theorem leaveOne_other (h : o ≠ .drop) (q : Nat) (s : State) : leaveOne o q s = routeLeave q s := if_neg h

theorem leaveOne_quiet {q : Nat} (h : ¬Halting s q) : (leaveOne o q s).ring = s.ring := by
  unfold leaveOne
  split
  · have ring : (tearApplied .permit q s).ring = s.ring := by simp
    rw [ringTorn_same .permit (by rwa [halting_congr ring]), ring]
  · simp

theorem leaveOne_halts {q : Nat} (h : Halting s q) (drop : o = .drop) :
    (leaveOne o q s).ring = ringHalted .permit (vnum q) s.ring := by
  have ring : (tearApplied .permit q s).ring = s.ring := by simp
  rw [leaveOne, if_pos drop, ringTorn_halts .permit (by rwa [halting_congr ring]), haltRing_ring, ring]
  rfl

theorem leaveEach_quiet {l : List Nat} (h : o ≠ .drop ∨ ∀ q ∈ l, ¬Halting s q) : (leaveEach o l s).ring = s.ring := by
  induction l generalizing s with
  | nil => rfl
  | cons q l ih =>
    have one : (leaveOne o q s).ring = s.ring := by
      rcases h with other | quiet
      · rw [leaveOne_other other]; simp
      · exact leaveOne_quiet (quiet q List.mem_cons_self)
    refine (ih (s := leaveOne o q s) ?_).trans one
    refine h.imp id fun quiet p mem => ?_
    rw [halting_congr one]
    exact quiet p (List.mem_cons_of_mem _ mem)

theorem leaveEach_halts {l : List Nat} {q : Nat} (drop : o = .drop) (h : FirstWith (Halting s) l q) :
    (leaveEach o l s).ring = ringHalted .permit (vnum q) s.ring := by
  obtain ⟨before, after, rfl, quiet, halts⟩ := h
  have first : (leaveEach o before s).ring = s.ring := leaveEach_quiet (.inr quiet)
  have here := leaveOne_halts ((halting_congr first q).2 halts) drop
  have halted : ∀ p ∈ after, ¬Halting (leaveOne o q (leaveEach o before s)) p := fun p _ halting => by
    have state := halting.1
    rw [here] at state
    rcases state with state | state <;> contradiction
  rw [leaveEach, List.foldl_append, List.foldl_cons]
  exact (leaveEach_quiet (.inr halted)).trans (here.trans (by rw [first]))

theorem routeLeave_link (q : Nat) (s : State) : (routeLeave q s).link
    = if (routeAt s q).any (fun x => decide (x.state = .retiring)) then (notify (.retire q) s).link else s.link := by
  rw [routeLeave_eq]
  dsimp only
  cases routeAt s q with
  | none => rfl
  | some x =>
    cases state : x.state with
    | retiring =>
      simp only [Option.any_some, state, decide_true, if_true]
      exact notify_link rfl
    | _ => simp [state, withApplied]

theorem leaveEach_link {l : List Nat} (wf : tableWf s.routes = true) (other : o ≠ .drop) (nodup : l.Nodup) :
    (leaveEach o l s).link
      = (retireEach (l.filter fun q => (routeAt s q).any fun x => decide (x.state = .retiring)) s).link := by
  induction l generalizing s with
  | nil => rfl
  | cons p l ih =>
    obtain ⟨apart, nodup⟩ := List.nodup_cons.1 nodup
    have rest : l.filter (fun q => (routeAt (leaveOne o p s) q).any fun x => decide (x.state = .retiring))
        = l.filter fun q => (routeAt s q).any fun x => decide (x.state = .retiring) :=
      List.filter_congr fun q mem => by rw [routeAt_leaveOne wf, if_neg fun (same : q = p) => apart (same ▸ mem)]
    have link := routeLeave_link p s
    rw [show leaveEach o (p :: l) s = leaveEach o l (leaveOne o p s) from rfl, ih (tableWf_leaveOne wf o p) nodup, rest,
      List.filter_cons, leaveOne_other other]
    split
    · rename_i retiring
      rw [if_pos retiring] at link
      exact retireEach_link link
    · rename_i kept
      rw [if_neg kept] at link
      exact retireEach_link link

/-! #### Nothing else changes -/

/-- The state `s` with another engine, routes, ring and link. -/
def besides (s : State) (g : Engine) (q : Table Route) (ring : Ring) (link : Link) : State :=
  { s with engine := g, routes := q, ring := ring, link := link }

/-- From `s` to `t` nothing but the engine, the routes, the ring and the link changes. -/
def Beside (s t : State) : Prop := t = besides s t.engine t.routes t.ring t.link

theorem Beside.refl (s : State) : Beside s s := rfl

theorem Beside.trans (a : Beside s t) (b : Beside t u) : Beside s u :=
  calc u = besides t u.engine u.routes u.ring u.link := b
    _ = besides (besides s t.engine t.routes t.ring t.link) u.engine u.routes u.ring u.link := by rw [← a]
    _ = besides s u.engine u.routes u.ring u.link := rfl

theorem beside_of_within (h : Within s t) (latch : t.latch = s.latch) : Beside s t := by
  obtain ⟨-, -, -, ring, -⟩ := h.rest
  calc t = outer s t.engine t.routes t.latch t.link := h
    _ = outer s t.engine t.routes s.latch t.link := by rw [latch]
    _ = besides s t.engine t.routes s.ring t.link := rfl
    _ = besides s t.engine t.routes t.ring t.link := by rw [ring]

theorem beside_ringTorn (c : TearCause) (q : Nat) (h : s.engine.mode ≠ .staging) : Beside s (ringTorn c q s) := by
  by_cases halting : Halting s q
  · have unstaged : endStaging false (s.setRing (ringHalted (haltOfTear c) (vnum q) s.ring))
        = s.setRing (ringHalted (haltOfTear c) (vnum q) s.ring) := by
      simp [endStaging, h]
    rw [ringTorn_halts c halting, haltRing, unstaged, (notify_spec _ _).1]
    rfl
  · rw [ringTorn_same c halting]
    exact .refl s

theorem beside_leaveOne (h : s.engine.mode ≠ .staging) (o : Origin) (q : Nat) : Beside s (leaveOne o q s) := by
  unfold leaveOne
  split
  · refine (beside_of_within (within_tearApplied .permit q s) (by simp)).trans (beside_ringTorn _ _ ?_)
    rw [tearApplied_engine]
    exact h
  · exact beside_of_within (within_routeLeave q s) (by simp)

theorem beside_leaveEach {l : List Nat} (h : s.engine.mode ≠ .staging) : Beside s (leaveEach o l s) := by
  induction l generalizing s with
  | nil => exact .refl s
  | cons q l ih =>
    exact (beside_leaveOne h o q).trans (ih (s := leaveOne o q s) (by rw [leaveOne_engine h]; exact h))

theorem firstWith_filter {α : Type} {f : α → Bool} {p : α → Prop} {l : List α} {a : α}
    (h : FirstWith (fun b => f b = true ∧ p b) l a) : FirstWith p (l.filter f) a := by
  obtain ⟨before, after, rfl, refused, passes, holds⟩ := h
  refine ⟨before.filter f, after.filter f, ?_, fun b mem k => ?_, holds⟩
  · rw [List.filter_append, List.filter_cons_of_pos passes]
  · obtain ⟨mem, passes⟩ := List.mem_filter.1 mem
    exact refused b mem ⟨passes, k⟩

/-! #### MUTE_ACK deasserted in BREAK or MAKE (R93) -/

/-- A transition in flight stopped before. -/
theorem stopTransition_new (c : Stop) (held : s.engine.trans = some r) (new : r.stop = none) : stopTransition c s
    = (s.setEngine { s.engine with trans := some (stopped c r) }).setLatch (s.latch || r.muteNeeded) := by
  rw [stopTransition_eq, held, updTrans_eq, held]
  cases needed : r.muteNeeded
  · simp only [Option.all_some, Option.any_some, new, needed, Option.isSome_none, Bool.false_eq_true, if_false, Option.map_some,
      Bool.or_false]
    rfl
  · simp [new, needed, setTheLatch]

theorem recordFault_fault (f : FaultRec) (s : State) : (recordFault f s).records.fault = some (s.records.fault.getD { f with
    step := if s.ring.state = .idle then none else some s.ring.ptr }) := by
  have kept (n : Notice) (v : State) : (notify n v).records = v.records := by simp
  unfold recordFault
  dsimp only
  rw [kept]
  cases s.records.fault with
  | none => by_cases idle : s.ring.state = .idle <;> simp [idle]
  | some g => rfl

/-- The state a hot event leaves before what follows. -/
def hotLeft (r : Trans) (s : State) : State :=
  ((recordFault { plainFault .hot with
      elem := r.lastEm, number := some s.engine.number
      torn := sortNat (r.target.filter fun q => !r.old.contains q) } (s.setMuteAck false)).setEngine { s.engine with
    trans := some { r with stop := some .hot, brkTodo := [], makTodo := [] } }).setLatch true

theorem hotEvent_left (held : s.engine.trans = some r) (mode : s.engine.mode = .breaking ∨ s.engine.mode = .making)
    (new : r.stop = none) : hotEvent r (s.setMuteAck false) = advanceAll (hotLeft r s) := by
  have flight : flightNumber (s.setMuteAck false) = some s.engine.number := by
    rcases mode with mode | mode <;> simp [flightNumber, inFlight, mode]
  have fault : hotFault r (s.setMuteAck false) = { plainFault .hot with
      elem := r.lastEm, number := some s.engine.number
      torn := sortNat (r.target.filter fun q => !r.old.contains q) } := by
    rw [hotFault, flight]
  have engine (f : FaultRec) : (recordFault f (s.setMuteAck false)).engine = s.engine := by simp
  rw [hotEvent_eq, fault, stopTransition_new .hot (by rw [engine]; exact held) new, engine]
  rfl

theorem hotLeft_trans (r : Trans) (s : State) :
    (hotLeft r s).engine.trans = some { r with stop := some .hot, brkTodo := [], makTodo := [] } := rfl

theorem advanceAll_hotLeft (mode : s.engine.mode = .breaking ∨ s.engine.mode = .making) :
    (s.engine.active ≠ [] → advanceAll (hotLeft r s) = hotLeft r s)
    ∧ (s.engine.active = [] →
        advanceAll (hotLeft r s) = followUp rounds (endTransition (s.engine.mode == .making) (hotLeft r s))) := by
  refine ⟨fun moving => advanceAll_busy mode moving, fun still => ?_⟩
  obtain ⟨-, breaking, making⟩ := phaseAdvance_held (hotLeft_trans r s)
  rcases mode with mode | mode
  · have is : advance (hotLeft r s) = phaseAdvance (hotLeft r s) := by
      simp only [advance, show (hotLeft r s).engine.mode = .breaking from mode]
    rw [advanceAll_eq, is, (breaking still mode).2.1 rfl (.inl (by simp)), mode]
    rfl
  · have is : advance (hotLeft r s) = phaseAdvance (hotLeft r s) := by
      simp only [advance, show (hotLeft r s).engine.mode = .making from mode]
    rw [advanceAll_eq, is, (making still mode).2 rfl, mode]
    rfl

/-! #### The mute timer's end (R92) -/

/-- The fault of a mute timeout recorded. -/
def timedOut (s : State) : State := recordFault { plainFault .muteTimeout with number := some s.engine.number } s

theorem timedOut_engine (s : State) : (timedOut s).engine = s.engine := by simp [timedOut]

theorem muteTimeout_eq (mode : s.engine.mode = .muting) (held : s.engine.trans = some r) : muteTimeout s
    = followUp rounds (endTransition false ((timedOut s).setEngine { s.engine with
        trans := some { r with firstFault := some (r.firstFault.getD .muteTimeout) } })) := by
  have flight : flightNumber s = some s.engine.number := by simp [flightNumber, inFlight, mode]
  have noted : noteFirst .muteTimeout r = { r with firstFault := some (r.firstFault.getD .muteTimeout) } := by
    cases first : r.firstFault <;> simp only [noteFirst, first, Option.getD_none, Option.getD_some]
    rw [← first]
  rw [muteTimeout, flight]
  show followUp rounds (endTransition false (updTrans (noteFirst .muteTimeout) (timedOut s))) = _
  rw [updTrans_eq, timedOut_engine, held, Option.map_some, noted]

theorem ringOutcome_unclean {n : Nat} {out : TransOutcome} (c : Option EndCause) (entering : s.ring.state = .entering)
    (unclean : out ≠ .clean) : ringOutcome n out c s = (haltRing (haltOfEnd c) (vnum n) s, .nothing) := by
  unfold ringOutcome
  rw [if_pos (by simp [entering])]
  cases out with
  | clean => exact absurd rfl unclean
  | _ => rfl

theorem ringOutcome_ignored (n : Nat) (out : TransOutcome) (c : Option EndCause) (h : s.ring.state ≠ .entering) :
    ringOutcome n out c s = (s, .nothing) := if_neg (by simpa using h)

/-- A timed-out transition that nothing else has touched ends with nothing entered and nothing torn. -/
theorem endTransition_timedOut (stop : r.stop = none) (elems : r.notedElems = []) (fixtures : r.notedFixtures = []) (faulted : r.faultedElems = []) :
    let r' := { r with firstFault := some .muteTimeout }
    let w := closeTransition r' false ((timedOut s).setEngine { s.engine with trans := some r' })
    endTransition false ((timedOut s).setEngine { s.engine with trans := some r' })
      = (setMode .idle (if r.origin = .step ∧ s.ring.state = .entering then haltRing .muteTimeout (vnum r.number) w else w),
          .nothing) := by
  intro r' w
  have out : outcomeOf r' = (.faulted, some .muteTimeout) := by
    rw [outcomeOf, show r'.stop = none from stop]
    rfl
  have before : endedBefore r' false ((timedOut s).setEngine { s.engine with trans := some r' }) = w :=
    endedBefore_clean (r := r') false elems fixtures faulted stop
  have ring : w.ring = s.ring := by
    obtain ⟨-, -, -, ring, -⟩ := (within_closeTransition r' false ((timedOut s).setEngine { s.engine with trans := some r' })).rest
    exact ring.trans (by simp [timedOut])
  rw [endTransition_eq' false (r := r') rfl, allTears_clean (r := r') false elems fixtures faulted stop, before]
  by_cases entry : r.origin = .step
  · by_cases entering : s.ring.state = .entering
    · have told : tellOutcome r' w = (haltRing .muteTimeout (vnum r.number) w, .nothing) := by
        rw [tellOutcome, if_pos (show r'.origin = .step from entry), out]
        exact ringOutcome_unclean _ (by rw [ring]; exact entering) (fun h => nomatch h)
      rw [told, if_pos ⟨entry, entering⟩]
      rfl
    · have told : tellOutcome r' w = (w, .nothing) := by
        rw [tellOutcome, if_pos (show r'.origin = .step from entry)]
        exact ringOutcome_ignored _ _ _ (by rw [ring]; exact entering)
      rw [told, if_neg fun both => entering both.2]
      rfl
  · rw [tellOutcome_other (r := r') entry, if_neg fun both => entry both.1]
    rfl

theorem exec_muteAckAsserted (s : State) : exec .muteAckAsserted s = .next (settle
    (if s.engine.mode = .muting then followUp rounds (startBreak (s.setMuteAck true)) else s.setMuteAck true)) := rfl

theorem exec_muteAckDeasserted (s : State) :
    exec .muteAckDeasserted s = .next (settle (muteAckLost (s.setMuteAck false))) := rfl

theorem exec_muteWaitExpiry (s : State) : exec .muteWaitExpiry s = .next (settle
    (if s.engine.mode == .muting && s.engine.muteTimer.isSome then muteTimeout s else s)) := rfl

/-- BREAK begun from MUTING. -/
theorem startBreak_held (held : s.engine.trans = some r) : startBreak s = phaseAdvance
    ((leaveOld r s).setEngine { (leaveOld r s).engine with mode := .breaking, muteTimer := none }) := by
  simp only [startBreak, held]

/-- Settles O30: the routes that leave followed one by one, and each event by its phase. -/
theorem muteEventsActInTheirPhase : Obligations.MuteEventsActInTheirPhase := by
  unfold Obligations.MuteEventsActInTheirPhase
  refine ⟨?_, fun s t held => ⟨fun goes => ?_, fun mode out => ?_⟩, fun s => ⟨fun mode => ?_, ?_, ?_, fun none => ?_, ?_, fun out => ?_,
    ?_, ?_⟩⟩
  · intro s t wf nodup distinct mode v leaves retired
    have is : v = leaveEach t.origin (leaving t) s := leaveOld_eq t s
    have apart : (leaving t).Nodup := distinct.filter _
    have mem (q : Nat) : q ∈ leaving t ↔ leaves q := mem_leaving q
    have engine := leaveEach_engine (o := t.origin) (l := leaving t) mode
    have route := routeAt_leaveEach (o := t.origin) wf apart
    refine ⟨fun q => ?_, fun q x gone there => ⟨fun state => ?_, fun state => ?_⟩, fun q stays => ?_, fun other => ⟨?_, ?_⟩, ?_, ?_⟩
    · rw [is, engine]
      exact (mem_foldl_erase nodup q).trans (and_congr_right' (not_congr (mem q)))
    · rw [is, route, if_pos ((mem q).2 gone), there, Option.bind_some, leftRecord_applied state]
    · rw [is, route, if_pos ((mem q).2 gone), there, Option.bind_some, leftRecord_retiring state]
    · rw [is, route, if_neg fun gone => stays ((mem q).1 gone)]
    · rw [is, leaveEach_quiet (.inl other)]
    · rw [is, leaveEach_link wf other apart, leaving, List.filter_filter]
      have same : (fun q => (routeAt s q).any (fun x => decide (x.state = .retiring)) && !t.target.contains q)
          = fun q => !t.target.contains q && (routeAt s q).any fun x => decide (x.state = .retiring) :=
        funext fun q => Bool.and_comm _ _
      rw [same]
      rfl
    · intro drop halts
      refine ⟨fun q runs first => ?_, fun still => ?_⟩
      · rw [is]
        refine leaveEach_halts drop (firstWith_filter (firstWith_congr (fun p => ?_) first))
        simp [Halting, runs, halts]
      · rw [is]
        refine leaveEach_quiet (.inr fun q gone halting => ?_)
        exact still.elim (fun no => no halting.1) fun out => out q ((mem q).1 gone) halting.2
    · have beside : v = besides s v.engine v.routes v.ring v.link := is ▸ beside_leaveEach mode
      have same : v.engine = { s.engine with applied := v.engine.applied } := by rw [is, engine]
      rw [same] at beside
      exact beside
  · have yes : (s.engine.mode == .breaking || (s.engine.mode == .muting && s.muteAck)) = true := by
      rcases goes with mode | ⟨mode, ack⟩
      · simp [mode]
      · simp [mode, ack]
    simp only [proceed, yes, if_true, startBreak, held]
  · simp [proceed, mode, out]
  · rw [exec_muteAckAsserted, if_neg mode]
  · intro t mode held todo v
    have kept : v.engine.trans = some t := by simp [v, held]
    have waits : phaseAdvance (v.setEngine { v.engine with mode := .breaking, muteTimer := none })
        = (v.setEngine { v.engine with mode := .breaking, muteTimer := none }, .nothing) := by
      obtain ⟨moving, still, -⟩ := phaseAdvance_held
        (s := v.setEngine { v.engine with mode := .breaking, muteTimer := none }) (r := t) kept
      by_cases active : v.engine.active = []
      · exact (still active rfl).1 todo
      · exact moving active
    rw [exec_muteAckAsserted, if_pos mode, startBreak_held (s := s.setMuteAck true) held, waits, followUp_rest,
      takeHeldDrop_engaged (by simp)]
  · intro t mode held v
    rw [exec_muteAckAsserted, if_pos mode, startBreak_held (s := s.setMuteAck true) held]
  · simp only [exec_muteAckDeasserted, muteAckLost, State.setMuteAck_engine, none]
  · intro t held hot
    have lost (yes : hot) : muteAckLost (s.setMuteAck false) = advanceAll (hotLeft t s) := by
      obtain ⟨mute, mode, new, left⟩ := yes
      have all : (s.engine.mute && (s.engine.mode == .breaking || s.engine.mode == .making) && t.stop.isNone
          && emDriveLeft (s.setMuteAck false) t) = true := by
        rw [show emDriveLeft (s.setMuteAck false) t = emDriveLeft s t from rfl, left, mute, new]
        rcases mode with mode | mode <;> simp [mode]
      rw [← hotEvent_left held mode new]
      simp only [muteAckLost, State.setMuteAck_engine, held, all, if_true]
    refine ⟨fun no => ?_, fun yes moving => ⟨hotLeft t s, ?_, rfl, rfl, ?_, rfl, rfl, ?_⟩, fun yes => ?_⟩
    · have none : (s.engine.mute && (s.engine.mode == .breaking || s.engine.mode == .making) && t.stop.isNone
          && emDriveLeft (s.setMuteAck false) t) = false := by
        rw [Bool.eq_false_iff]
        intro all
        rw [show emDriveLeft (s.setMuteAck false) t = emDriveLeft s t from rfl] at all
        simp only [Bool.and_eq_true, Bool.or_eq_true, beq_iff_eq, Option.isNone_iff_eq_none] at all
        exact no ⟨all.1.1.1, all.1.1.2, all.1.2, all.2⟩
      simp only [exec_muteAckDeasserted, muteAckLost, State.setMuteAck_engine, held, none, Bool.false_eq_true, if_false]
    · rw [exec_muteAckDeasserted, lost yes, (advanceAll_hotLeft yes.2.1).1 moving]
    · simp [hotLeft]
    · rw [hotLeft, State.setLatch_records, State.setEngine_records, recordFault_fault, State.setMuteAck_records]
      cases s.records.fault <;> rfl
    · intro r v
      exact ⟨fun moving => by rw [exec_muteAckDeasserted, lost yes, (advanceAll_hotLeft yes.2.1).1 moving]; rfl,
        fun still => by rw [exec_muteAckDeasserted, lost yes, (advanceAll_hotLeft yes.2.1).2 still]; rfl⟩
  · rw [exec_muteWaitExpiry, if_neg]
    simpa [Decidable.imp_iff_not_or] using out
  · intro t mode timer held stop first elems fixtures faulted drop
    have ends := endTransition_timedOut (s := s) stop elems fixtures faulted
    obtain ⟨r', isR⟩ : ∃ r' : Trans, r' = { t with firstFault := some .muteTimeout } := ⟨_, rfl⟩
    obtain ⟨w, isW⟩ : ∃ w, w = closeTransition r' false ((timedOut s).setEngine { s.engine with trans := some r' }) := ⟨_, rfl⟩
    have out : outcomeOf r' = (.faulted, some .muteTimeout) := by
      rw [outcomeOf, show r'.stop = none from isR ▸ stop, show r'.firstFault = some .muteTimeout from isR ▸ rfl]
      rfl
    dsimp only at ends
    rw [← isR, ← isW] at ends
    obtain ⟨v, isV⟩ : ∃ v, v = setMode .idle (if t.origin = .step ∧ s.ring.state = .entering
        then haltRing .muteTimeout (vnum t.number) w else w) := ⟨_, rfl⟩
    rw [← isV] at ends
    obtain ⟨net, -, -, ring, records⟩ :=
      (within_closeTransition r' false ((timedOut s).setEngine { s.engine with trans := some r' })).rest
    have engineW : w.engine = { s.engine with
        mute := false, muteTimer := none, trans := some { r' with outcome := some (.faulted, some .muteTimeout) } } := by
      rw [isW, closeTransition_engine, out]
      rfl
    have engine : v.engine = { s.engine with
        mode := .idle, mute := false, muteTimer := none
        trans := some { r' with outcome := some (.faulted, some .muteTimeout) } } := by
      have halted (c : HaltCause) (d : Val) : (haltRing c d w).engine = w.engine := by
        rw [haltRing_engine, endedStaging_unstaged (by rw [engineW]; simp [mode])]
      rw [isV]
      split <;> simp [setMode, halted, engineW]
    refine ⟨v, ?_, by rw [engine, isR], ?_, ?_, ?_, ⟨?_, fun other => ?_⟩, fun q x there => ?_⟩
    · rw [exec_muteWaitExpiry, if_pos (by simp [mode, Option.isSome_iff_ne_none, timer]), muteTimeout_eq mode held, first,
        Option.getD_none, ← isR, ends, followUp_rest, takeHeldDrop_idle]
      rw [engine]
      simp [drop]
    · have latch : w.latch = s.latch := by
        rw [isW, closeTransition_latch, out, if_neg (by simp), Bool.or_false]
        simp [timedOut]
      rw [isV, ← latch]
      split <;> simp
    · have net : w.net = s.net := by rw [isW, net]; simp [timedOut]
      rw [isV, ← net]
      split <;> simp
    · have ring : w.ring = s.ring := by rw [isW, ring]; simp [timedOut]
      rw [isV, ← ring]
      split
      · rw [show (setMode .idle (haltRing .muteTimeout (vnum t.number) w)).ring = _ from haltRing_ring _ _ w]
      · rfl
    · have records : w.records = (timedOut s).records := by rw [isW, records]; rfl
      rw [isV]
      refine Eq.trans ?_ records
      split <;> simp
    · rw [isV, if_neg fun both => other both.1, show (setMode .idle w).link = w.link from rfl, isW, closeTransition_link, out]
      refine opEnded_link _ ?_
      rw [isR]
      exact notify_link rfl
    · have route : routeAt v q = routeAt w q := by
        rw [isV]
        split <;> simp [routeAt]
      have same : routeAt ((timedOut s).setEngine { s.engine with trans := some r' }) q = routeAt s q := by
        simp [routeAt, timedOut]
      rw [route, isW, routeAt_closeTransition, same, there]
      rfl
  · intro t mode timer held timed
    rw [exec_muteWaitExpiry, if_pos (by simp [mode, Option.isSome_iff_ne_none, timer]), muteTimeout_eq mode held]
    rfl

end Sys2Proof.StepLaws

/-! ### Drives and senses (O31, O32) -/

namespace Sys2Proof.StepLaws

open Sys2Proof.Machine Sys2Proof.Laws

variable {s t u v : State} {e target : Nat} {x : Elem} {d : Drive}

/-! #### The issue of a DRIVE (R95, R190) -/

theorem mayIssue_iff (at_e : elemAt s e = some x) :
    mayIssue s e = true ↔ isEm x.kind = false ∨ (cardAt s x.card).pulses < 2 := by
  simp only [mayIssue, at_e, Bool.or_eq_true, Bool.not_eq_true', decide_eq_true_eq]
  exact .rfl

theorem oneMore_eq (n : Nat) : oneMore n = min (n + 1) 4294967295 := by
  unfold oneMore
  split <;> omega

theorem pulseBegun_link (e : Nat) (x : Elem) (s : State) : (pulseBegun e x s).link = s.link := by
  unfold pulseBegun
  simp only []
  split <;> split <;> simp

/-- The state of an issue in which the throw is counted. -/
theorem begun_same (e target : Nat) (x : Elem) (s : State) :
    let b := pulseBegun e x (driveBegun e target x s)
    wearAt b e = wearAt s e ∧ lifeOf e b = x.life ∧ b.link = s.link ∧ b.records = s.records := by
  intro b
  have records : b.records = s.records := by simp [b, driveBegun]
  have net : b.net = (driveBegun e target x s).net := by simp [b]
  have at_e : elemAt b e = some { x with pos := none } := by
    rw [elemAt, net]
    exact (elemAt_setElem e e _ _).trans (if_pos rfl)
  refine ⟨by rw [wearAt, records]; rfl, by simp only [lifeOf, at_e], (pulseBegun_link e x _).trans rfl, records⟩

theorem wearAt_issued (e target : Nat) (x : Elem) (s : State) : wearAt (issueDrive e target x s) e = { wearAt s e with
    count := min ((wearAt s e).count + 1) 4294967295
    noticed := (wearAt s e).noticed || wearDue e (pulseBegun e x (driveBegun e target x s)) } := by
  obtain ⟨wear, -, -, -⟩ := begun_same e target x s
  rw [issueDrive_eq, wearAt_countDrive, if_pos rfl, countedWear, wear, oneMore_eq]

theorem wearDue_iff (e target : Nat) (x : Elem) (s : State) : wearDue e (pulseBegun e x (driveBegun e target x s)) = true
    ↔ 0 < x.life ∧ x.life ≤ min ((wearAt s e).count + 1) 4294967295 ∧ (wearAt s e).noticed = false := by
  obtain ⟨wear, life, -, -⟩ := begun_same e target x s
  rw [wearDue, wear, life, oneMore_eq, Bool.and_eq_true, Bool.and_eq_true, decide_eq_true_eq, decide_eq_true_eq,
    Bool.not_eq_true', and_assoc]

theorem issueDrive_link (e target : Nat) (x : Elem) (s : State) : (issueDrive e target x s).link
    = if wearDue e (pulseBegun e x (driveBegun e target x s))
      then (notify (.wear e (min ((wearAt s e).count + 1) 4294967295)) s).link else s.link := by
  obtain ⟨wear, -, link, -⟩ := begun_same e target x s
  rw [issueDrive_eq, countDrive_eq, wear, oneMore_eq]
  split
  · exact notify_link link
  · exact link

theorem issueDrive_records (e target : Nat) (x : Elem) (s : State) : (issueDrive e target x s).records
    = { s.records with wear := (issueDrive e target x s).records.wear } := by
  obtain ⟨-, -, -, records⟩ := begun_same e target x s
  rw [issueDrive_eq, countDrive_records, countedRecords, records]

theorem issueDrive_frame (e target : Nat) (x : Elem) (s : State) : let v := issueDrive e target x s
    v.site = s.site ∧ v.muteAck = s.muteAck ∧ v.routes = s.routes ∧ v.ring = s.ring ∧ v.fixtures = s.fixtures
    ∧ v.loops = s.loops ∧ v.latch = s.latch ∧ v.engine.applied = s.engine.applied ∧ v.engine.mode = s.engine.mode
    ∧ v.net.legs = s.net.legs := by
  simp

/-! #### A drive's own events -/

theorem driveReached_eq (of_e : d.elem = e) (at_e : elemAt s e = some x) : driveReached d s
    = (setElem e { x with pos := some d.target } s).setEngine { s.engine with
        active := s.engine.active.filter fun d' => d'.elem != e } := by
  subst of_e
  simp only [driveReached, updElem, at_e]
  rfl

theorem exec_driveAcknowledged (s : State) : exec .driveAcknowledged s = execDriveAcknowledged s := rfl

theorem exec_pulseEnd (known : e ≤ 95) (s : State) : exec (.pulseEnd e) s = .next (settle (pulseEnds e s)) :=
  event_passes (i := .pulseEnd e) (if_pos (by simpa [within] using known)) _ s

theorem exec_settleEnd (known : e ≤ 95) (s : State) : exec (.settleEnd e) s = .next (settle (settleEnds e s)) :=
  event_passes (i := .settleEnd e) (if_pos (by simpa [within] using known)) _ s

theorem exec_retryDelayExpiry (known : e ≤ 95) (s : State) :
    exec (.retryDelayExpiry e) s = .next (settle (retryEnds e s)) :=
  event_passes (i := .retryDelayExpiry e) (if_pos (by simpa [within] using known)) _ s

/-- Other drives go on: nothing follows from the end of one. -/
theorem advanceAll_moving (moving : s.engine.active ≠ []) (busy : s.engine.mode ≠ .idle) (unsurveyed : s.engine.mode ≠ .survey) :
    advanceAll s = s := by
  have same : advance s = (s, .nothing) := by
    cases mode : s.engine.mode with
    | idle => exact absurd mode busy
    | survey => exact absurd mode unsurveyed
    | muting => exact advance_still (.inr mode)
    | breaking =>
      cases held : s.engine.trans <;> simp [advance, mode, phaseAdvance, held, moving]
    | making =>
      cases held : s.engine.trans <;> simp [advance, mode, phaseAdvance, held, moving]
    | staging => simp [advance, mode, moving]
    | check => simp [advance, mode, moving]
  rw [advanceAll_eq, same, followUp_rest, takeHeldDrop_engaged busy]

theorem filter_other_ne_nil (h : ∃ d' ∈ s.engine.active, d'.elem ≠ e) :
    (s.engine.active.filter fun d' => d'.elem != e) ≠ [] := by
  obtain ⟨d', mem, ne⟩ := h
  exact List.ne_nil_of_mem (List.mem_filter.2 ⟨mem, by simpa using ne⟩)

/-- Settles O31: an issue read off field by field, and each event by the drive's stage. -/
theorem drivesRunFromIssueToEnd : Obligations.DrivesRunFromIssueToEnd := by
  unfold Obligations.DrivesRunFromIssueToEnd
  refine ⟨?_, fun s e x l at_e => ⟨?_, rfl⟩, fun s e known => ⟨fun n c f p w tx => ?_, fun other => ?_, fun none => ⟨?_, ?_, ?_⟩,
    fun d x drives at_e => ⟨fun ms stage => ?_, ?_, fun k stage kind => ?_, fun k stage kind busy unsurveyed more => ?_, ?_⟩⟩⟩
  · intro s e target x at_e _ _ v
    obtain ⟨site, ack, routes, ring, fixtures, loops, latch, applied, mode, legs⟩ := issueDrive_frame e target x s
    have engine := issueDrive_engine e target x s
    refine ⟨mayIssue_iff at_e, issueDrive_tx e target x s, ?_, fun f other => ?_, issueDrive_active e target x s, ?_, fun n other => ?_,
      ?_, fun _ => ?_, ⟨issueDrive_records e target x s, site, ack⟩, fun em flight => ?_, fun plain => ?_,
      fun f other => wearAt_issueDrive e target x s other, routes, ring, fixtures, loops, latch, applied, mode, legs⟩
    · exact (elemAt_issueDrive e target x s e).trans (if_pos rfl)
    · exact (elemAt_issueDrive e target x s f).trans (if_neg other)
    · rw [cardAt_issueDrive]
      cases em : isEm x.kind <;> simp
    · rw [cardAt_issueDrive, if_neg fun here => other here.2]
    · rw [wearAt_issued]
    · intro count due
      have dueIff : wearDue e (pulseBegun e x (driveBegun e target x s)) = true ↔ due := wearDue_iff e target x s
      refine ⟨fun yes => ?_, fun no => ?_⟩
      · rw [wearAt_issued, issueDrive_link, dueIff.2 yes, Bool.or_true]
        exact ⟨rfl, rfl⟩
      · rw [wearAt_issued, issueDrive_link, Bool.eq_false_iff.2 (mt dueIff.1 no), Bool.or_false]
        exact ⟨rfl, rfl⟩
    · rw [engine, lastEmTrans]
      simp [em, flight]
    · rw [engine, lastEmTrans]
      rcases plain with plain | plain <;> simp [plain]
  · intro d retry drives stage v
    have drives' : driveOf (s.setEngine { s.engine with due := l }) e = some d := drives
    have at_e' : elemAt (s.setEngine { s.engine with due := l }) e = some x := at_e
    simp only [issueSense, at_e', drives', stage]
    rfl
  · rw [exec_driveAcknowledged, execDriveAcknowledged, event_passes rfl]
    simp only [tx]
  · rw [exec_driveAcknowledged, execDriveAcknowledged, event_passes rfl]
    split
    · rename_i tx
      exact absurd tx (other _ _ _ _ _)
    · rfl
  · simp only [exec_pulseEnd known, pulseEnds, none]
  · simp only [exec_settleEnd known, settleEnds, none]
  · simp only [exec_retryDelayExpiry known, retryEnds, none]
  · simp only [exec_pulseEnd known, pulseEnds, drives, at_e, stage]
  · intro k stage kind v
    simp only [exec_settleEnd known, settleEnds, drives, at_e, stage, kind]
    rfl
  · rw [exec_settleEnd known, ← driveReached_eq (driveOf_spec drives).2 at_e]
    cases is : x.kind
    case latch => exact absurd is kind
    all_goals simp only [settleEnds, drives, at_e, stage, is]
  · have reached := driveReached_eq (driveOf_spec drives).2 at_e
    have still : advanceAll (driveReached d s) = driveReached d s :=
      advanceAll_moving (by rw [reached]; exact filter_other_ne_nil more) (by rw [reached]; exact busy)
        (by rw [reached]; exact unsurveyed)
    rw [exec_settleEnd known, ← reached]
    cases is : x.kind
    case latch => exact absurd is kind
    all_goals simp only [settleEnds, drives, at_e, stage, is, still]
  · intro k stage v
    simp only [exec_retryDelayExpiry known, retryEnds, drives, stage]
    rfl

end Sys2Proof.StepLaws

namespace Sys2Proof.StepLaws

open Sys2Proof.Machine Sys2Proof.Laws

variable {s t u v : State} {e : Nat} {x : Elem} {d : Drive}

/-! #### A readback (R96, R97, R109) -/

theorem bounded_eq (x : Elem) (got : Option Nat) : (got.bind fun k => if k ≤ x.n then some k else none) = bounded x got := by
  cases got <;> rfl

theorem senseReturns_readback {n c : Nat} {retry : Bool} (got : Option Nat) (tx : s.bus.tx = some (.sense n c e false))
    (at_e : elemAt s e = some x) (drives : driveOf s e = some d) (stage : d.stage = .sensing retry) :
    senseReturns got s = readback d retry (bounded x got) (setTx none s) := by
  have at_e' : elemAt (setTx none s) e = some x := at_e
  have drives' : driveOf (setTx none s) e = some d := drives
  simp only [senseReturns, tx, at_e', Bool.false_eq_true, if_false, drives', stage]

theorem senseReturns_survey {n c : Nat} (got : Option Nat) (tx : s.bus.tx = some (.sense n c e true))
    (at_e : elemAt s e = some x) (current : s.engine.survey.current = some e) :
    senseReturns got s = surveyed e (bounded x got) (setTx none s) := by
  have at_e' : elemAt (setTx none s) e = some x := at_e
  have current' : (setTx none s).engine.survey.current = some e := current
  simp only [senseReturns, tx, at_e', if_true, current']

theorem readback_reached {got : Option Nat} (retry : Bool) (reached : got = some d.target) : readback d retry got s
    = advanceAll (if retry then lateEvent d.elem (driveReached d s) else driveReached d s) := if_pos reached

theorem readback_retries {got : Option Nat} (missed : got ≠ some d.target) (delay : s.site.retryDelay ≠ 0) :
    readback d false got s = setStage d.elem (.retryWait s.site.retryDelay) s := by
  rw [readback, if_neg missed, if_pos (by simpa using Nat.pos_of_ne_zero delay)]

theorem readback_fails {retry : Bool} {got : Option Nat} (missed : got ≠ some d.target)
    (last : retry = true ∨ s.site.retryDelay = 0) :
    readback d retry got s = advanceAll (if stagingDrive s then stagingFailed d got s else readbackFailed d got s) := by
  rw [readback, if_neg missed, if_neg]
  rcases last with last | last <;> simp [last]

theorem stagingFailed_eq (got : Option Nat) (of_e : d.elem = e) (at_e : elemAt s e = some x) : stagingFailed d got s
    = (setElem e { x with pos := none } s).setEngine { s.engine with
        active := s.engine.active.filter fun d' => d'.elem != e
        holder := if s.engine.staging.discard then s.engine.holder
          else some { elem := e, commanded := d.target, indicated := got } } := by
  subst of_e
  have engine : (setElem d.elem { x with pos := none } s).engine = s.engine := by simp
  simp only [stagingFailed, updElem, at_e, engine]
  split <;> rfl

theorem routesWhere_any (s : State) (l : List Nat) (q : Route → Bool) :
    routesWhere s l q = l.filter fun r => (routeAt s r).any q :=
  List.filter_congr fun r _ => by cases routeAt s r <;> rfl

/-- The fault of a readback failure (R96, R185). -/
def missedFault (e target : Nat) (got : Option Nat) (r : Trans) (s : State) : FaultRec :=
  { plainFault .readback with
    elem := some e, commanded := some target, indicated := some got, number := some s.engine.number
    torn := sortNat (r.target.filter fun q => (routeAt s q).any fun y => y.hops.any fun h => h.elem == e) }

theorem readbackFailed_held {r : Trans} (got : Option Nat) (of_e : d.elem = e) (at_e : elemAt s e = some x)
    (mode : s.engine.mode = .breaking ∨ s.engine.mode = .making) (held : s.engine.trans = some r) : readbackFailed d got s
    = ((recordFault (missedFault e d.target got r s) (setElem e { x with pos := got, faulted := true } s)).setEngine
        { s.engine with
          active := s.engine.active.filter fun d' => d'.elem != e
          trans := some (noteFirst .readback { r with faultedElems := r.faultedElems ++ [e] }) }).setLatch
            (s.latch || r.muteNeeded) := by
  subst of_e
  have engine (f : FaultRec) : (recordFault f (setElem d.elem { x with pos := got, faulted := true } s)).engine = s.engine := by
    simp
  have latch (f : FaultRec) : (recordFault f (setElem d.elem { x with pos := got, faulted := true } s)).latch = s.latch := by
    simp
  have flight : flightNumber (setElem d.elem { x with pos := got, faulted := true } s) = some s.engine.number := by
    rcases mode with mode | mode <;> simp [flightNumber, inFlight, mode]
  have trans : (setElem d.elem { x with pos := got, faulted := true } s).engine.trans = some r := held
  have fault : ({ plainFault .readback with
      elem := some d.elem, commanded := some d.target, indicated := some got
      number := flightNumber (setElem d.elem { x with pos := got, faulted := true } s)
      torn := sortNat (routesWhere (setElem d.elem { x with pos := got, faulted := true } s) r.target fun q => claimsElem q d.elem) }
        : FaultRec) = missedFault d.elem d.target got r s := by
    rw [flight, routesWhere_any]
    rfl
  have needed : (noteFirst .readback { r with faultedElems := r.faultedElems ++ [d.elem] }).muteNeeded = r.muteNeeded := by
    unfold noteFirst
    split <;> rfl
  simp only [readbackFailed, updElem, at_e, trans, fault, updTrans_eq, engine, held, Option.map_some, State.setEngine_engine, needed]
  cases r.muteNeeded
  · rw [Bool.or_false, ← latch]
    rfl
  · rw [Bool.or_true]
    rfl

theorem readbackFailed_active (d : Drive) (got : Option Nat) (s : State) :
    (readbackFailed d got s).engine.active = s.engine.active.filter fun d' => d'.elem != d.elem := by
  rw [readbackFailed_eq, dropDrive, State.setEngine_engine]
  dsimp only
  congr 1
  split <;> simp [failureNoted]

/-! #### A survey's sense (R112) -/

/-- What a survey's sense writes. -/
def surveyWritten (e : Nat) (x : Elem) (got : Option Nat) (s : State) : State :=
  match got with
  | some k => setElem e { x with pos := some k } s
  | none => recordFault { plainFault .readback with elem := some e, indicated := some none }
      (setElem e { x with pos := none, faulted := true } s)

theorem surveyed_eq (got : Option Nat) (at_e : elemAt s e = some x) : surveyed e got s
    = advanceAll ((surveyWritten e x got s).setEngine { s.engine with
        survey := { s.engine.survey with current := none, returned := s.engine.survey.returned + 1 } }) := by
  have engine : (surveyWritten e x got s).engine = s.engine := by
    cases got <;> simp [surveyWritten]
  rw [← engine]
  cases got <;> simp only [surveyed, updElem, at_e, surveyWritten]

theorem elemAt_surveyWritten (got : Option Nat) (f : Nat) : elemAt (surveyWritten e x got s) f
    = if f = e then some { x with pos := got, faulted := x.faulted || got.isNone } else elemAt s f := by
  cases got with
  | some k =>
    rw [surveyWritten, elemAt_setElem, Option.isNone_some, Bool.or_false]
  | none =>
    have net (g : FaultRec) (w : State) : (recordFault g w).net = w.net := by simp
    rw [surveyWritten, elemAt, net, Option.isNone_none, Bool.or_true]
    exact elemAt_setElem e f _ _

theorem recordFault_records (f : FaultRec) (records : t.records = s.records) (ring : t.ring = s.ring) :
    (recordFault f t).records = (recordFault f s).records := by
  have kept (n : Notice) (v : State) : (notify n v).records = v.records := by simp
  unfold recordFault
  dsimp only
  rw [kept, kept, records, ring]
  cases s.records.fault <;> rfl

theorem surveyWritten_records (got : Option Nat) : (surveyWritten e x got s).records = if got = none then
    (recordFault { plainFault .readback with elem := some e, indicated := some none } s).records else s.records := by
  cases got with
  | some k => rfl
  | none => exact recordFault_records _ rfl rfl

theorem passOver_cards {l : List Nat} (elems : ∀ f, (elemAt t f).map (fun y => y.card) = (elemAt s f).map fun y => y.card)
    (cards : t.cards = s.cards) : passOver t l = passOver s l := by
  have enabled (n : Nat) : cardEnabled t n = cardEnabled s n := by unfold cardEnabled cardAt; rw [cards]
  induction l with
  | nil => rfl
  | cons f l ih =>
    have same := elems f
    unfold passOver
    cases at_t : elemAt t f with
    | none =>
      rw [at_t] at same
      rw [Option.map_eq_none_iff.1 same.symm]
      exact ih
    | some y =>
      rw [at_t] at same
      obtain ⟨z, at_s, card⟩ := Option.map_eq_some_iff.1 same.symm
      rw [at_s]
      dsimp only
      rw [card, enabled, ih]

theorem passOver_surveyWritten (got : Option Nat) (at_e : elemAt s e = some x) (g : Engine) (l : List Nat) :
    passOver ((surveyWritten e x got s).setEngine g) l = passOver s l := by
  refine passOver_cards (fun f => ?_) ?_
  · rw [show elemAt ((surveyWritten e x got s).setEngine g) f = elemAt (surveyWritten e x got s) f from rfl, elemAt_surveyWritten]
    split
    · rename_i here
      rw [here, at_e]
      rfl
    · rfl
  · cases got <;> simp [surveyWritten]

/-- Settles O32: a readback by its three answers, and a survey's sense by what it writes. -/
theorem sensesAreJudged : Obligations.SensesAreJudged := by
  intro s n e got x at_e sensed u
  have isSensed : sensed = bounded x got := bounded_eq x got
  have atU : elemAt u e = some x := at_e
  have exec_ (s : State) : exec (.senseResult got) s = .next (settle (senseReturns got s)) := rfl
  have sense {c : Nat} {d : Drive} {retry : Bool} (tx : s.bus.tx = some (.sense n c e false)) (drives : driveOf s e = some d)
      (stage : d.stage = .sensing retry) : senseReturns got s = readback d retry sensed u := by
    rw [isSensed]
    exact senseReturns_readback got tx at_e drives stage
  have survey {c : Nat} (tx : s.bus.tx = some (.sense n c e true)) (current : s.engine.survey.current = some e) :
      ∃ w, senseReturns got s = advanceAll w
        ∧ w.engine = { s.engine with survey := { s.engine.survey with
            current := none, returned := s.engine.survey.returned + 1 } }
        ∧ elemAt w e = some { x with pos := sensed, faulted := x.faulted || sensed.isNone }
        ∧ w.records = (if sensed = none then
            (recordFault { plainFault .readback with elem := some e, indicated := some none } s).records else s.records)
        ∧ passOver w w.engine.survey.todo = passOver s s.engine.survey.todo := by
    refine ⟨(surveyWritten e x sensed u).setEngine { u.engine with
      survey := { u.engine.survey with current := none, returned := u.engine.survey.returned + 1 } }, ?_, rfl, ?_, ?_, ?_⟩
    · rw [senseReturns_survey got tx at_e current, ← isSensed, surveyed_eq sensed atU]
    · exact (elemAt_surveyWritten sensed e).trans (if_pos rfl)
    · rw [State.setEngine_records, surveyWritten_records]
      split
      · exact recordFault_records _ rfl rfl
      · rfl
    · rw [passOver_surveyWritten sensed atU]
      exact passOver_congr (fun _ _ => rfl) rfl
  refine ⟨fun tx => ?_, fun c d retry tx drives of_e stage => ⟨fun missed first delay => ?_, fun mode more => ?_⟩,
    fun c d retry tx drives of_e stage reached => ?_, fun c d retry tx drives of_e stage missed last => ?_,
    fun c tx mode current over_ drop => ?_, fun c l tx mode current left some => ?_⟩
  · rw [exec_]
    simp only [senseReturns, tx]
  · subst first
    rw [exec_, sense tx drives stage, readback_retries (s := u) missed delay, of_e]
    rfl
  · intro rest
    have moving : rest ≠ [] := filter_other_ne_nil more
    have unstill : s.engine.mode ≠ .idle ∧ s.engine.mode ≠ .survey := by
      rcases mode with mode | mode | mode <;> simp [mode]
    refine ⟨fun reached => ?_, fun missed last => ?_⟩
    · have still (w : State) (engine : w.engine = { s.engine with active := rest }) : advanceAll w = w :=
        advanceAll_moving (by rw [engine]; exact moving) (by rw [engine]; exact unstill.1) (by rw [engine]; exact unstill.2)
      rw [exec_, sense tx drives stage, readback_reached retry reached, driveReached_eq of_e atU, of_e, still]
      · rfl
      · cases retry <;> simp [rest, u]
    · have still (w : State) (active : w.engine.active = rest) (mode : w.engine.mode = s.engine.mode) : advanceAll w = w :=
        advanceAll_moving (by rw [active]; exact moving) (by rw [mode]; exact unstill.1) (by rw [mode]; exact unstill.2)
      by_cases staging : s.engine.mode = .staging
      · have drive : stagingDrive u = true := by simp [stagingDrive, u, staging]
        have failed := stagingFailed_eq sensed of_e atU
        refine ⟨stagingFailed d sensed u, ?_, by rw [failed]; rfl, fun _ => ⟨?_, by rw [failed]; rfl, by rw [failed]; rfl,
          by rw [failed]; rfl⟩, fun t other => absurd staging other⟩
        · rw [exec_, sense tx drives stage, readback_fails (s := u) missed last, if_pos drive, still]
          · rw [failed]; rfl
          · rw [failed]; rfl
        · rw [failed]
          exact (elemAt_setElem e e _ _).trans (if_pos rfl)
      · have moves : ¬stagingDrive u = true := by
          rcases mode with mode | mode | mode <;> (simp [stagingDrive, u, mode]; try exact staging mode)
        have mode' : u.engine.mode = .breaking ∨ u.engine.mode = .making := by
          rcases mode with mode | mode | mode
          · exact .inl mode
          · exact .inr mode
          · exact absurd mode staging
        have fails : senseReturns got s = advanceAll (readbackFailed d sensed u) := by
          rw [sense tx drives stage, readback_fails (s := u) missed last, if_neg moves]
        have active : (readbackFailed d sensed u).engine.active = rest := by
          rw [readbackFailed_active, of_e]
          rfl
        have same : (readbackFailed d sensed u).engine.mode = s.engine.mode := by simp [u]
        refine ⟨readbackFailed d sensed u, by rw [exec_, fails, still _ active same], active, fun other => absurd other staging,
          fun t _ held => ?_⟩
        have failed := readbackFailed_held (s := u) sensed of_e atU mode' held
        rw [failed]
        refine ⟨?_, rfl, rfl, fun none => ?_⟩
        · have net (f : FaultRec) (w : State) : (recordFault f w).net = w.net := by simp
          rw [elemAt, State.setLatch_net, State.setEngine_net, net]
          exact (elemAt_setElem e e _ _).trans (if_pos rfl)
        · have none' : (setElem e { x with pos := sensed, faulted := true } u).records.fault = Option.none := none
          have kept := recordFault_fault (missedFault e d.target sensed t u) (setElem e { x with pos := sensed, faulted := true } u)
          rw [none', Option.getD_none] at kept
          exact ⟨_, kept, rfl, rfl, rfl, rfl⟩
  · rw [exec_, sense tx drives stage, readback_reached retry reached, driveReached_eq of_e atU, of_e]
    rfl
  · intro rest
    refine ⟨fun mode => ?_, fun t mode held => ?_⟩
    · have staging : stagingDrive u = true := by
        rcases mode with mode | mode <;> simp [stagingDrive, u, mode]
      rw [exec_, sense tx drives stage, readback_fails (s := u) missed last, if_pos staging, stagingFailed_eq sensed of_e atU]
      rfl
    · intro recorded
      have moves : ¬stagingDrive u = true := by
        rcases mode with mode | mode <;> simp [stagingDrive, u, mode]
      rw [exec_, sense tx drives stage, readback_fails (s := u) missed last, if_neg moves,
        readbackFailed_held (s := u) sensed of_e atU mode held]
      rfl
  · obtain ⟨w, returns, engine, at_w, records, passes⟩ := survey tx current
    have idle := (advance_survey (s := w) (by rw [engine]; exact mode)).2.2 (by rw [engine]) (by rw [passes, over_])
    rw [engine] at idle
    refine ⟨opEnded .survey (w.setEngine { s.engine with mode := .idle, survey := surveyReset }), ?_, ?_, ?_, by simp⟩
    · rw [exec_, returns, advanceAll_eq, idle, followUp_rest, takeHeldDrop_idle]
      intro held
      simp [drop] at held
    · rw [← at_w]
      simp [elemAt]
    · rw [← records]
      simp
  · obtain ⟨w, returns, engine, at_w, records, passes⟩ := survey tx current
    have goes := (advance_survey (s := w) (by rw [engine]; exact mode)).2.1 (by rw [engine]) (by rw [passes, left]; exact some)
    rw [passes, left, engine] at goes
    refine ⟨w.setEngine { s.engine with
        survey := { s.engine.survey with current := Option.none, returned := s.engine.survey.returned + 1, todo := l } }, ?_, at_w,
      records, rfl, mode⟩
    rw [exec_, returns, advanceAll_eq, goes, followUp_rest, takeHeldDrop_engaged]
    simp [mode]

end Sys2Proof.StepLaws

/-! ### HALT and SURVEY (O34, O35) -/

namespace Sys2Proof.StepLaws

open Sys2Proof.Machine Sys2Proof.Laws

variable {s t u v : State} {r : Trans}

/-! #### Ends with nothing torn -/

theorem haltRing_unstaged (c : HaltCause) (d : Val) (h : s.engine.mode ≠ .staging) :
    haltRing c d s = notify (.halted c s.ring.ptr) (s.setRing (ringHalted c d s.ring)) := by
  have unstaged : endStaging false (s.setRing (ringHalted c d s.ring)) = s.setRing (ringHalted c d s.ring) := by
    simp [endStaging, h]
  rw [haltRing, unstaged]
  rfl

/-- A transition that ends short of MAKE's end with nothing noted, faulted or lost: it is closed, and a ring that was
entering halts. -/
theorem endTransition_unclean (held : s.engine.trans = some r) (elems : r.notedElems = []) (fixtures : r.notedFixtures = [])
    (faulted : r.faultedElems = []) (hot : r.stop ≠ some .hot) (permit : r.stop ≠ some .permit)
    (unclean : (outcomeOf r).1 ≠ .clean) : endTransition false s
      = (setMode .idle (if r.origin = .step ∧ s.ring.state = .entering
          then haltRing (haltOfEnd (outcomeOf r).2) (vnum r.number) (closeTransition r false s)
          else closeTransition r false s), .nothing) := by
  have torn : appliedTears s r = [] := appliedTears_nil elems fixtures
  have lost : targetTears s r (enteringRoutes s r false) = [] := targetTears_nil elems fixtures faulted hot permit _
  have before : endedBefore r false s = closeTransition r false s := by
    unfold endedBefore
    simp only [torn, lost]
    rfl
  have tears : allTears r false s = [] := by rw [allTears, torn, lost]; rfl
  obtain ⟨-, -, -, ring, -⟩ := (within_closeTransition r false s).rest
  rw [endTransition_eq' false held, tears, before]
  by_cases entry : r.origin = .step
  · by_cases entering : s.ring.state = .entering
    · have told : tellOutcome r (closeTransition r false s)
          = (haltRing (haltOfEnd (outcomeOf r).2) (vnum r.number) (closeTransition r false s), .nothing) := by
        rw [tellOutcome, if_pos entry]
        exact ringOutcome_unclean _ (by rw [ring]; exact entering) unclean
      rw [told, if_pos ⟨entry, entering⟩]
      rfl
    · have told : tellOutcome r (closeTransition r false s) = (closeTransition r false s, .nothing) := by
        rw [tellOutcome, if_pos entry]
        exact ringOutcome_ignored _ _ _ (by rw [ring]; exact entering)
      rw [told, if_neg fun both => entering both.2]
      rfl
  · rw [tellOutcome_other entry, if_neg fun both => entry both.1]
    rfl

/-- What such an end leaves. -/
theorem endTransition_unclean_fields (held : s.engine.trans = some r) (elems : r.notedElems = [])
    (fixtures : r.notedFixtures = []) (faulted : r.faultedElems = []) (hot : r.stop ≠ some .hot)
    (permit : r.stop ≠ some .permit) (unclean : (outcomeOf r).1 ≠ .clean) (mode : s.engine.mode ≠ .staging) :
    let v := (endTransition false s).1
    v.engine = { s.engine with
      mode := .idle, mute := false, muteTimer := none, trans := some { r with outcome := some (outcomeOf r) } }
    ∧ v.latch = s.latch ∧ v.net = s.net
    ∧ v.ring = if r.origin = .step ∧ s.ring.state = .entering
        then ringHalted (haltOfEnd (outcomeOf r).2) (vnum r.number) s.ring else s.ring := by
  obtain ⟨net, -, -, ring, -⟩ := (within_closeTransition r false s).rest
  have engine : (closeTransition r false s).engine = { s.engine with
      mute := false, muteTimer := none, trans := some { r with outcome := some (outcomeOf r) } } := by
    rw [closeTransition_engine, held]
    rfl
  have latch : (closeTransition r false s).latch = s.latch := by
    rw [closeTransition_latch, if_neg unclean, Bool.or_false]
  rw [endTransition_unclean held elems fixtures faulted hot permit unclean]
  dsimp only
  split
  · have halted (c : HaltCause) (d : Val) : (haltRing c d (closeTransition r false s)).engine = (closeTransition r false s).engine := by
      rw [haltRing_engine, endedStaging_unstaged (by rw [engine]; exact mode)]
    refine ⟨?_, ?_, ?_, ?_⟩
    · rw [setMode, State.setEngine_engine, halted, engine]
    · simp [latch]
    · simp [net]
    · rw [← ring]
      exact haltRing_ring _ _ _
  · exact ⟨by rw [setMode, State.setEngine_engine, engine], latch, net, ring⟩

/-- A stopped transition with nothing left to issue ends when nothing of it is in progress. -/
theorem advanceAll_emptied (held : s.engine.trans = some r) (stop : r.stop ≠ none) (brk : r.brkTodo = []) (mak : r.makTodo = [])
    (mode : s.engine.mode = .breaking ∨ s.engine.mode = .making) (still : s.engine.active = []) :
    advanceAll s = followUp rounds (endTransition (s.engine.mode == .making) s) := by
  obtain ⟨-, breaking, making⟩ := phaseAdvance_held held
  rcases mode with mode | mode
  · have is : advance s = phaseAdvance s := by simp only [advance, mode]
    rw [advanceAll_eq, is, (breaking still mode).2.1 brk (.inl stop), mode]
    rfl
  · have is : advance s = phaseAdvance s := by simp only [advance, mode]
    rw [advanceAll_eq, is, (making still mode).2 mak, mode]
    rfl

/-! #### A waiting request abandoned (R100, R102) -/

/-- The waiting request taken back and its end told. -/
def abandoned (c : EndCause) (q : Request) (s : State) : State :=
  opEnded .transition (notify (.done none q.origin .halted (some c)) (s.setEngine { s.engine with waiting := none }))

theorem abandonWaiting_none (c : EndCause) (h : s.engine.waiting = none) : abandonWaiting c s = s := by
  simp only [abandonWaiting, h]

theorem abandonWaiting_some {q : Request} (c : EndCause) (h : s.engine.waiting = some q) :
    (q.origin = .command → abandonWaiting c s = answerGo (er .permit) (abandoned c q s))
    ∧ (q.origin = .step → abandonWaiting c s = ringRefused (haltOfEnd (some c)) .dash (abandoned c q s))
    ∧ (q.origin = .drop → abandonWaiting c s = abandoned c q s) := by
  refine ⟨fun origin => ?_, fun origin => ?_, fun origin => ?_⟩ <;>
    simp only [abandonWaiting, h, origin, abandoned]

theorem abandoned_engine (c : EndCause) (q : Request) (s : State) :
    (abandoned c q s).engine = { s.engine with waiting := none } := by
  simp [abandoned]

theorem abandoned_ring (c : EndCause) (q : Request) (s : State) : (abandoned c q s).ring = s.ring := by simp [abandoned]

theorem abandoned_goWait (c : EndCause) (q : Request) (s : State) (plus : Bool) :
    (abandoned c q s).link.hold = some (.goWait plus) ↔ s.link.hold = some (.goWait plus) := by
  rw [abandoned, opEnded_goWait]
  simp

theorem ringRefused_entering (c : HaltCause) (d : Val) (h : s.ring.state = .entering) : ringRefused c d s = haltRing c d s :=
  if_pos (by simp [h])

theorem ringRefused_ignored (c : HaltCause) (d : Val) (h : s.ring.state ≠ .entering) : ringRefused c d s = s :=
  if_neg (by simpa using h)

/-! #### Staging ended by HALT (R110) -/

theorem endStaging_moving (mode : s.engine.mode = .staging) (moving : s.engine.active ≠ []) :
    endStaging false s = s.setEngine { s.engine with staging := quitStaging s.engine.staging } := by
  simp [endStaging, mode, moving, quitStaging]

theorem endStaging_still (mode : s.engine.mode = .staging) (still : s.engine.active = []) :
    endStaging false s = (s.setEngine (stagedOut s.engine)).setLink (opEnded .staging s).link := by
  have is : endStaging false s = if s.engine.mode == .staging
      then if s.engine.active.isEmpty then setMode .idle (stagingOver (s.setEngine { s.engine with staging :=
        { quitStaging s.engine.staging with discard := (quitStaging s.engine.staging).discard || false } }))
        else s.setEngine { s.engine with staging :=
          { quitStaging s.engine.staging with discard := (quitStaging s.engine.staging).discard || false } }
      else s := rfl
  rw [is, if_pos (by simp [mode]), if_pos (by simp [still]), stagingOver_idle]
  exact opEnded_eq .staging (s := s) rfl

theorem haltEngine_survey (mode : s.engine.mode = .survey) : haltEngine s
    = advanceAll (s.setEngine { s.engine with survey := { s.engine.survey with todo := [] } }) := by
  unfold haltEngine
  split
  case h_7 => rfl
  all_goals simp_all

/-- Settles O34: HALT by the engine's state. -/
theorem haltStopsWhatRuns : Obligations.HaltStopsWhatRuns := by
  intro plus s u taken g
  have hold := hold_of_takes taken
  refine ⟨command_of_takes taken plus _, fun mode => ?_, fun mode moving none => ?_, fun q mode moving waits => ?_,
    fun mode moving => ?_, fun mode still => ?_, fun t mode moving held => ⟨fun before => ?_, fun new => ?_⟩,
    fun t mode still held new => ?_, fun t mode held new elems fixtures faulted drop => ?_, fun e mode current => ?_,
    fun mode current drop => ?_⟩
  · simp only [haltEngine, mode]
  · simp only [haltEngine, mode, abandonWaiting_none .halt none]
    exact advanceAll_moving moving (by simp [mode]) (by simp [mode])
  · intro v
    have is_v : abandoned .halt q u = v := rfl
    have engine : v.engine = { u.engine with waiting := none } := abandoned_engine .halt q u
    have ring : v.ring = u.ring := abandoned_ring .halt q u
    have stays (w : State) (same : w.engine = v.engine) : advanceAll w = w :=
      advanceAll_moving (by rw [same, engine]; exact moving) (by rw [same, engine]; simp [mode])
        (by rw [same, engine]; simp [mode])
    have is : haltEngine u = advanceAll (abandonWaiting .halt u) := by simp only [haltEngine, mode]
    obtain ⟨command, step, drop⟩ := abandonWaiting_some .halt waits
    rw [is]
    cases origin : q.origin with
    | command =>
      rw [command origin, answerGo_other fun p => ?_, is_v, stays v rfl, if_neg (by simp)]
      · rw [Ne, abandoned_goWait, hold]
        exact fun h => nomatch h
    | drop =>
      rw [drop origin, is_v, stays v rfl, if_neg (by simp)]
    | step =>
      rw [step origin]
      by_cases entering : u.ring.state = .entering
      · have unstaged : v.engine.mode ≠ .staging := by rw [engine]; simp [mode]
        rw [if_pos ⟨rfl, entering⟩, ringRefused_entering _ _ (by rw [abandoned_ring]; exact entering),
          is_v, haltRing_unstaged _ _ unstaged, stays _ (by simp), ring]
        rfl
      · rw [if_neg fun both => entering both.2, ringRefused_ignored _ _ (by rw [abandoned_ring]; exact entering), is_v, stays v rfl]
  · simp only [haltEngine, mode, endStaging_moving mode moving]
    rfl
  · simp only [haltEngine, mode, endStaging_still mode still]
    rfl
  · have same : stopTransition .halt u = u := by
      rw [stopTransition_eq, held, if_pos (by simpa [Option.isSome_iff_ne_none] using before)]
    rcases mode with is | is <;> simp only [haltEngine, is, same]
    · exact advanceAll_busy (.inl is) moving
    · exact advanceAll_busy (.inr is) moving
  · have is : haltEngine u = advanceAll (stopTransition .halt u) := by
      rcases mode with is | is <;> simp only [haltEngine, is]
    rw [is, stopTransition_new .halt held new]
    exact advanceAll_busy mode moving
  · have is : haltEngine u = advanceAll (stopTransition .halt u) := by
      rcases mode with is | is <;> simp only [haltEngine, is]
    rw [is, stopTransition_new .halt held new]
    exact advanceAll_emptied (r := stopped .halt t) rfl (by simp [stopped]) rfl rfl mode still
  · have stop : updTrans (fun r => { r with stop := some (r.stop.getD .halt) }) u
        = u.setEngine { u.engine with trans := some { t with stop := some .halt } } := by
      rw [updTrans_eq, held, Option.map_some, new]
      rfl
    have is : haltEngine u = followUp rounds (endTransition false
        (u.setEngine { u.engine with trans := some { t with stop := some .halt } })) := by
      simp only [haltEngine, mode, stopMuting, stop]
    have out : outcomeOf { t with stop := some .halt } = (.halted, some .halt) := rfl
    obtain ⟨engine, latch, net, ring⟩ := endTransition_unclean_fields
      (s := u.setEngine { u.engine with trans := some { t with stop := some .halt } }) (r := { t with stop := some .halt }) rfl
      elems fixtures faulted (by simp) (by simp) (by simp [out]) (by simp [mode])
    have asks : (endTransition false
        (u.setEngine { u.engine with trans := some { t with stop := some .halt } })).2 = .nothing := by
      rw [endTransition_unclean (r := { t with stop := some .halt }) rfl elems fixtures faulted (by simp) (by simp)
        (by simp [out])]
    have whole : haltEngine u = (endTransition false
        (u.setEngine { u.engine with trans := some { t with stop := some .halt } })).1 := by
      rw [is]
      have pair (p : State × Ask) (nothing : p.2 = .nothing) : p = (p.1, .nothing) := Prod.ext rfl nothing
      rw [pair _ asks, followUp_rest, takeHeldDrop_idle]
      rw [engine]
      simp [drop]
    rw [whole]
    exact ⟨engine, latch, net, ring⟩
  · rw [haltEngine_survey mode]
    obtain ⟨sensing, -, -⟩ := advance_survey
      (s := u.setEngine { u.engine with survey := { u.engine.survey with todo := [] } }) mode
    rw [advanceAll_eq, sensing (by simp [current]), followUp_rest, takeHeldDrop_engaged (by simp [mode])]
  · rw [haltEngine_survey mode]
    obtain ⟨-, -, last⟩ := advance_survey
      (s := u.setEngine { u.engine with survey := { u.engine.survey with todo := [] } }) mode
    rw [advanceAll_eq, last current rfl, followUp_rest, takeHeldDrop_idle]
    · exact opEnded_eq .survey (s := u) rfl
    · simp [drop]

/-! #### SURVEY (R112) -/

theorem ascending_tkeys {α : Type} {t : Table α} (wf : tableWf t = true) (q : Nat → α → Bool) :
    (tkeys q t).Pairwise fun a b => a < b := by
  rw [tableWf_iff] at wf
  exact List.pairwise_map.2 (wf.filter _)

theorem beginSurvey_some {l : List Nat} (h : l ≠ []) (s : State) : beginSurvey l s = s.setEngine { s.engine with
    mode := .survey, survey := { total := l.length, returned := 0, todo := l, current := none } } := if_neg (by simpa using h)

/-- Settles O35. -/
theorem surveysListUnknownLatches : Obligations.SurveysListUnknownLatches := by
  intro plus s u taken
  refine ⟨fun busy => ?_, fun mode ring wf => ⟨tkeys (fun _ x => surveyable u x) u.net.elems, ascending_tkeys wf _, fun e => ?_,
    fun none => ?_, fun some => ?_⟩⟩
  · refine (command_of_takes taken plus _).trans ?_
    rw [if_pos (by simpa using busy)]
    rfl
  · simp only [tkeys, List.mem_map, List.mem_filter]
    constructor
    · rintro ⟨⟨_, x⟩, ⟨mem, may⟩, rfl⟩
      exact ⟨x, mem, by simpa [surveyable, elemUsable, and_assoc] using may⟩
    · rintro ⟨x, mem, may⟩
      exact ⟨(e, x), ⟨mem, by simpa [surveyable, elemUsable, and_assoc] using may⟩, rfl⟩
  · refine (command_of_takes taken plus _).trans ?_
    rw [if_neg (by simp [mode, ring]), none]
    rfl
  · refine (command_of_takes taken plus _).trans ?_
    rw [if_neg (by simp [mode, ring])]
    exact congrArg (fun w => Host.Outcome.next (settle (answer plus (ok [.bare (vnum _)]) w))) (beginSurvey_some some u)

end Sys2Proof.StepLaws

/-! ### Queries (O50, O51) -/

namespace Sys2Proof.StepLaws

open Sys2Proof.Machine Sys2Proof.Laws

variable {s t u v : State}

theorem bit_eq (b : Bool) : bit b = vnum (if b then 1 else 0) := by
  cases b <;> rfl

/-- A query is its fields; the state it finds is the state it leaves. -/
theorem ok_congr (plus : Bool) (u : State) {a b : List Field} (same : a = b) :
    (.next (settle (answer plus (ok a) u)) : Result) = .next (replied plus (ok b) u) := by
  rw [same]
  rfl

theorem dwellToRun_some {d : Nat} (h : s.ring.dwellTimer = some d) : dwellToRun s = some (min (Config.dwellLeft s.free) d) := by
  rw [dwellToRun, h]
  rfl

/-- What RING? gives of the dwell, by the ring's state (R139). -/
theorem dwellVal_dwelling (h : s.ring.state = .dwelling) : dwellVal s = optNum (dwellToRun s) := by
  simp only [dwellVal, h]

theorem dwellVal_held (h : s.ring.state = .held) : dwellVal s = optNum s.ring.keptDwell := by
  simp only [dwellVal, h]

theorem dwellVal_else (dwelling : s.ring.state ≠ .dwelling) (held : s.ring.state ≠ .held) : dwellVal s = .dash := by
  unfold dwellVal
  split
  case h_1 is => exact absurd is dwelling
  case h_2 is => exact absurd is held
  case h_3 => rfl

/-- The fields of RING? with the given dwell. -/
def ringFieldsWith (g : Ring) (dwell : Val) : List Field :=
  [.keyed "S" (.word (ringName g.state)), .keyed "L" (vnum g.len), .keyed "I" (vnum g.ptr), .keyed "V" (vnum g.visit),
   .keyed "PASS" (vnum g.pass), .keyed "DWELL" dwell, .keyed "TRIG" (vnum (if g.pendingTrig then 1 else 0)),
   .keyed "OVR" (vnum (if g.overrun then 1 else 0)), .keyed "HOLD" (vnum (if g.holdPending then 1 else 0)),
   .keyed "CAUSE" (match g.halt with | some h => .word (haltName h.1) | none => .dash),
   .keyed "DETAIL" (match g.halt with | some h => h.2 | none => .dash)]

theorem ringFields_eq (s : State) : ringFields s = ringFieldsWith s.ring (dwellVal s) := by
  simp only [ringFields, ringFieldsWith, bit_eq] <;> rfl

theorem ringQuery_next {plus : Bool} (taken : Takes (.ringQuery plus) s u) : exec (.ringQuery plus) s
    = .next (settle (answer plus (ok (ringFields u)) (if u.ring.state = .dwelling then dwellRead u else u))) :=
  command_of_takes taken plus _

/-- Settles O50, query by query: each is its fields. -/
theorem queriesAnswerFromTheState : Obligations.QueriesAnswerFromTheState := by
  refine ⟨fun plus n a s u => ?_, fun plus n s u => ?_⟩
  · refine ⟨fun taken => ?_, fun taken => ⟨fun undef => ?_, fun x at_n => ?_⟩, fun taken => ⟨fun undef => ?_, fun q at_n => ?_⟩,
      fun taken => ⟨fun undef => ?_, fun defined above => ?_, fun defined within => ?_⟩, fun taken => ?_, fun taken => ?_⟩ <;>
      refine (command_of_takes taken plus _).trans ?_
    · exact ok_congr plus u (by simp only [statFields, bit_eq] <;> rfl)
    · simp only [undef]
      rfl
    · simp only [at_n]
      refine ok_congr plus u ?_
      simp only [elemFields, bit_eq]
      cases x.pulse <;> rfl
    · simp only [undef]
      rfl
    · simp only [at_n]
      exact ok_congr plus u rfl
    · rw [if_pos undef]
      rfl
    · rw [if_neg (by simp [defined]), if_pos above]
      rfl
    · rw [if_neg (by simp [defined]), if_neg (by simp [within])]
      exact ok_congr plus u rfl
    · exact ok_congr plus u (by simp only [bit_eq] <;> rfl)
    · rfl
  · refine ⟨fun taken => ⟨fun free => ?_, fun x at_n => ?_⟩, fun taken => ?_, fun q taken => ?_, fun taken => ?_, fun taken => ?_,
      fun taken => ⟨fun undef => ?_, fun x at_n => ?_⟩, fun taken => ?_,
      fun taken => ⟨fun d dwelling running => ?_, fun dwelling stopped => ?_, fun held => ?_, fun dwelling held => ?_⟩⟩
    · refine (command_of_takes taken plus _).trans (ok_congr plus u ?_)
      rw [free]
      rfl
    · refine (command_of_takes taken plus _).trans (ok_congr plus u ?_)
      rw [at_n]
      simp only [routeFields, bit_eq] <;> rfl
    · exact (command_of_takes taken plus _).trans (ok_congr plus u rfl)
    · exact (command_of_takes taken plus _).trans (ok_congr plus u rfl)
    · refine (command_of_takes taken plus _).trans (ok_congr plus u ?_)
      cases u.engine.trans with
      | none => rfl
      | some t =>
        simp only [transFields, bit_eq] <;> rfl
    · refine (command_of_takes taken plus _).trans (ok_congr plus u ?_)
      cases u.engine.holder <;> rfl
    · refine (command_of_takes taken plus _).trans ?_
      simp only [undef]
      rfl
    · refine (command_of_takes taken plus _).trans ?_
      simp only [at_n]
      exact ok_congr plus u rfl
    · refine (command_of_takes taken plus _).trans (ok_congr plus u ?_)
      cases u.ring.report with
      | none => rfl
      | some p =>
        simp only [reportFields, bit_eq] <;> rfl
    · rw [ringQuery_next taken, if_pos dwelling, dwellRead, if_pos (by simp [running])]
      refine ⟨min (Config.dwellLeft u.free) d, Nat.min_le_right _ _, ok_congr plus _ ?_⟩
      rw [ringFields_eq, dwellVal_dwelling dwelling, dwellToRun_some running]
      rfl
    · rw [ringQuery_next taken, if_pos dwelling, dwellRead, if_neg (by simp [stopped])]
      refine ok_congr plus _ ?_
      rw [ringFields_eq, dwellVal_dwelling dwelling, dwellToRun, stopped]
      rfl
    · rw [ringQuery_next taken, if_neg (by simp [held])]
      refine ok_congr plus _ ?_
      rw [ringFields_eq, dwellVal_held held]
      cases u.ring.keptDwell <;> rfl
    · rw [ringQuery_next taken, if_neg dwelling]
      refine ok_congr plus _ ?_
      rw [ringFields_eq, dwellVal_else dwelling held]
      rfl

/-- Settles O51. -/
theorem unitQueriesAnswer : Obligations.UnitQueriesAnswer := by
  intro plus n s u
  refine ⟨fun taken => ?_, fun taken => ?_, fun taken => ?_, fun taken => ?_, fun taken => ?_,
    fun taken => ⟨?_, ?_⟩, fun taken => ⟨fun none => ?_, fun f some => ?_⟩, fun taken => ?_, fun taken => ?_⟩
  · refine (command_of_takes taken plus _).trans (ok_congr plus u ?_)
    simp only [cardFields, bit_eq] <;> rfl
  · exact (command_of_takes taken plus _).trans (ok_congr plus u rfl)
  · refine (command_of_takes taken plus _).trans (ok_congr plus u ?_)
    simp only [fixFields, bit_eq]
    cases (fixtureAt u n).identity <;> rfl
  · exact (command_of_takes taken plus _).trans (ok_congr plus u rfl)
  · refine (command_of_takes taken plus _).trans (ok_congr plus u ?_)
    have loops (m : Nat) : loopVal u m = .word (if (loopAt u m).closed = false then "OPEN"
        else if (loopAt u m).confirmed then "CONF" else "CLOSED") := by
      unfold loopVal loopReport
      cases (loopAt u m).closed <;> cases (loopAt u m).confirmed <;> rfl
    simp only [bit_eq, loops] <;> rfl
  · refine (command_of_takes taken plus _).trans (ok_congr plus u ?_)
    simp only [bit_eq] <;> rfl
  · have running : u.phase = .running := by
      obtain ⟨is, -, running, -⟩ := lineFor_spec taken.1
      rw [is]
      exact running
    simp [muteReq, running, or_assoc]
  · refine (command_of_takes taken plus _).trans (ok_congr plus u ?_)
    rw [none]
    rfl
  · refine (command_of_takes taken plus _).trans (ok_congr plus u ?_)
    rw [some]
    obtain ⟨cause, elem, commanded, indicated, number, step, torn⟩ := f
    rcases indicated with _ | _ | k <;> rfl
  · exact (command_of_takes taken plus _).trans (ok_congr plus u rfl)
  · refine (command_of_takes taken plus _).trans (ok_congr plus u ?_)
    simp only [bit_eq]
    cases elemAt u n <;> rfl

end Sys2Proof.StepLaws

/-! ### Faults, records and the ring's edits (O49, O38) -/

namespace Sys2Proof.StepLaws

open Sys2Proof.Machine Sys2Proof.Laws

variable {s t u v : State}

/-- A notice touches the link alone, and is decided by the link and the mask alone. -/
theorem notify_eq (n : Notice) (same : t.link = s.link) : notify n t = t.setLink (notify n s).link := by
  refine (notify_spec n t).1.trans ?_
  rw [notify_link same]

/-- The fault as it is recorded: with the step at the pointer of a ring that is not IDLE. -/
def filedFault (f : FaultRec) (s : State) : Records := match s.records.fault with
  | none => { s.records with fault := some { f with step := if s.ring.state = .idle then none else some s.ring.ptr } }
  | some _ => { s.records with more := min (s.records.more + 1) 255 }

theorem recordFault_eq (f : FaultRec) (s : State) :
    recordFault f s = (s.setRecords (filedFault f s)).setLink (notify (.fault f.cause f.elem) s).link := by
  have step : (if (s.ring.state == .idle) = true then (none : Option Nat) else some s.ring.ptr)
      = if s.ring.state = .idle then none else some s.ring.ptr := by
    by_cases idle : s.ring.state = .idle <;> simp [idle]
  have more : (if s.records.more < 255 then s.records.more + 1 else 255) = min (s.records.more + 1) 255 := by
    split <;> omega
  unfold recordFault
  dsimp only
  rw [step, more]
  refine (notify_eq _ (s := s) ?_).trans (congrArg (fun w => State.setLink w _) ?_)
  · split <;> rfl
  · unfold filedFault
    cases held : s.records.fault <;> simp only [held]

/-- The late counts after a late event (R188). -/
def lateCounted (e : Nat) (s : State) : Records :=
  { s.records with
    late := min (s.records.late + 1) 65535
    wear := bput wearZero s.records.wear e { wearAt s e with late := min ((wearAt s e).late + 1) 65535 } }

theorem lateEvent_eq (e : Nat) (device : s.records.late ≤ 65535) (elem : (wearAt s e).late ≤ 65535) :
    let d := min (s.records.late + 1) 65535
    lateEvent e s = (s.setRecords (lateCounted e s)).setLink
      (if s.site.lateLimit ≠ 0 ∧ s.records.late < d ∧ d = s.site.lateLimit then (notify (.late d) s).link else s.link) := by
  have step {n : Nat} (h : n ≤ 65535) : (if n < 65535 then n + 1 else 65535) = min (n + 1) 65535 := by split <;> omega
  unfold lateEvent
  simp only [step device, step elem, State.setRecords_site, Bool.and_eq_true, decide_eq_true_eq, beq_iff_eq, and_assoc,
    Nat.pos_iff_ne_zero, gt_iff_lt, ne_eq]
  split
  · exact notify_eq _ rfl
  · rfl

/-- ECLR's effect on an element record (R184). -/
def cleared (x : Elem) : Elem := if x.faulted then { x with faulted := false, pos := none } else x

/-- ECLR's effect on the ahead-fault holder (R184). -/
def heldBesides (e : Nat) : Option Ahead → Option Ahead
  | some a => if a.elem = e then none else some a
  | none => none

theorem clearElem_eq (e : Nat) (s : State) : clearElem e s
    = (updElem e cleared s).setEngine { s.engine with holder := heldBesides e s.engine.holder } := by
  have engine : (updElem e cleared s).engine = s.engine := by simp
  have same {h : Option Ahead} (is : s.engine.holder = h) :
      updElem e cleared s = (updElem e cleared s).setEngine { s.engine with holder := h } := by
    rw [← is]
    exact congrArg (State.setEngine (updElem e cleared s)) engine
  unfold clearElem
  dsimp only
  rw [show (fun x : Elem => if x.faulted then { x with faulted := false, pos := none } else x) = cleared from rfl, engine]
  cases held : s.engine.holder with
  | none => exact same held
  | some a =>
    by_cases is : a.elem = e
    · rw [heldBesides, if_pos is]
      exact if_pos is
    · rw [heldBesides, if_neg is]
      exact (if_neg is).trans (same held)

theorem updElem_whole (e : Nat) (f : Elem → Elem) (s : State) :
    updElem e f s = s.setNet { s.net with elems := (updElem e f s).net.elems } := by
  unfold updElem
  split <;> rfl

theorem ackCard_reset : ackCard cardReset = cardReset := rfl
theorem ackFixture_reset : ackFixture fixtureReset = fixtureReset := rfl

/-- Settles O49. -/
theorem faultsAndRecordsAreKept : Obligations.FaultsAndRecordsAreKept := by
  refine ⟨⟨fun f s => ?_, fun e s wf => ?_⟩, fun plus e k s u => ⟨fun taken => ⟨fun undef => ?_, fun defined engaged => ?_,
    fun r defined free applied => ?_, fun x at_e free applied => ?_⟩, fun taken => ?_, fun taken wf => ?_, fun taken wf => ?_,
    fun n taken wf => ?_, fun n taken wf => ?_⟩⟩
  · intro v
    have is : v = _ := recordFault_eq f s
    have records : v.records = filedFault f s := by rw [is]; rfl
    exact ⟨records, by rw [records]; exact is⟩
  · intro v d device elem
    have is : v = _ := lateEvent_eq e device elem
    have records : v.records = lateCounted e s := by rw [is]; rfl
    have link : v.link = (if s.site.lateLimit ≠ 0 ∧ s.records.late < d ∧ d = s.site.lateLimit
        then (notify (.late d) s).link else s.link) := by rw [is]; rfl
    have at_ (f : Nat) : wearAt v f = bget wearZero (lateCounted e s).wear f := by rw [wearAt, records]
    refine ⟨by rw [records]; rfl, ?_, ?_, fun f other => ?_, link, by rw [records, link]; exact is⟩
    · rw [at_, lateCounted, bget_bput_same _ _ _ wf]
    · rw [at_, lateCounted, bget_bput_same _ _ _ wf]
    · rw [at_, lateCounted, bget_bput_other _ _ _ _ _ other]
      rfl
  · refine (command_of_takes taken plus _).trans ?_
    simp only [eclrRefusal, undef]
    rfl
  · refine (command_of_takes taken plus _).trans ?_
    have is : eclrRefusal u e = some (er .busy) := by simp [eclrRefusal, defined, engaged]
    simp only [is]
    rfl
  · refine (command_of_takes taken plus _).trans ?_
    have is : eclrRefusal u e = some (erWith .inuse (vnum r)) := by simp [eclrRefusal, defined, free, applied]
    simp only [is]
    rfl
  · have none : eclrRefusal u e = none := by simp [eclrRefusal, at_e, free, applied]
    refine ⟨clearElem e u, (command_of_takes taken plus _).trans ?_, ?_, fun f other => ?_, ?_, ?_⟩
    · simp only [none]
      rfl
    · rw [clearElem_eq]
      refine (elemAt_updElem e e cleared u).trans ?_
      rw [if_pos rfl, at_e]
      rfl
    · rw [clearElem_eq]
      exact (elemAt_updElem e f cleared u).trans (if_neg other)
    · rw [clearElem_eq]
      cases u.engine.holder <;> rfl
    · rw [clearElem_eq]
      exact congrArg (fun w => State.setEngine w _) (updElem_whole e cleared u)
  · exact command_of_takes taken plus _
  · exact ⟨_, command_of_takes taken plus _, rfl,
      fun f => bget_bmap wearZero (fun w => { w with late := 0 }) rfl wf f, rfl⟩
  · exact ⟨_, command_of_takes taken plus _, bget_bput_same _ _ _ wf, fun f other => bget_bput_other _ _ _ _ _ other, rfl⟩
  · cases n with
    | none =>
      refine ⟨_, command_of_takes taken plus _, fun m => ?_, rfl⟩
      rw [if_pos (.inl rfl)]
      exact bget_bmap _ _ ackCard_reset wf m
    | some n =>
      refine ⟨_, command_of_takes taken plus _, fun m => ?_, rfl⟩
      rw [cardAt_setCard wf]
      by_cases is : m = n
      · subst is
        simp [ackCard]
      · rw [if_neg is, if_neg (by simp [Ne.symm is])]
  · cases n with
    | none =>
      refine ⟨_, command_of_takes taken plus _, fun m => ?_, rfl⟩
      rw [if_pos (.inl rfl)]
      exact bget_bmap _ _ ackFixture_reset wf m
    | some n =>
      refine ⟨_, command_of_takes taken plus _, fun m => ?_, rfl⟩
      rw [fixtureAt_setFixture wf]
      by_cases is : m = n
      · subst is
        simp [ackFixture]
      · rw [if_neg is, if_neg (by simp [Ne.symm is])]

/-! #### The ring's edits (R117 to R120) -/

/-- What a step edit leads to, by what the ring stood at before it (R119). -/
theorem afterStepEdit_eq (i : Nat) (t : Table StepRec) (u : State) :
    let w := u.setRing { u.ring with steps := t }
    afterStepEdit i (setSteps t u) =
      if (u.ring.state = .idle ∨ u.ring.state = .halted) ∧ i = u.ring.ptr then w.setRing { w.ring with visit := 1 }
      else if (u.ring.state = .dwelling ∨ u.ring.state = .held) ∧ i = (u.ring.ptr + 1) % u.ring.len ∧ i ≠ u.ring.ptr
        then endStaging true w
      else w := by
  intro w
  have state : (setSteps t u).ring.state = u.ring.state := rfl
  unfold afterStepEdit
  rw [state]
  cases u.ring.state <;> simp <;> rfl

/-- Settles O38. -/
theorem stepCommandsEditTheRing : Obligations.StepCommandsEditTheRing := by
  intro plus i s u edited
  have used : stepInUse u i = true ↔ ringRuns u = true ∧ u.ring.ptr = i := by simp [stepInUse]
  refine ⟨fun dwell rep freq flags ids taken => ⟨fun runs at_i => ?_, fun free => ⟨fun r again => ?_, fun once => ?_⟩⟩,
    fun taken => ⟨fun runs at_i => ?_, fun free => ⟨fun undef => ?_, fun defined => ?_⟩⟩, fun taken => ⟨fun runs => ?_, fun runs => ?_⟩⟩ <;>
    refine (command_of_takes taken plus _).trans ?_
  · rw [if_pos (used.2 ⟨runs, at_i⟩)]
    rfl
  · rw [if_neg (fun is => free (used.1 is)), again]
    rfl
  · rw [if_neg (fun is => free (used.1 is)), once]
    exact congrArg (fun w => (.next (settle (answer plus (ok [.bare (vnum i), .bare (vnum ids.length)]) w)) : Result))
      (afterStepEdit_eq i _ u)
  · rw [if_pos (used.2 ⟨runs, at_i⟩)]
    rfl
  · rw [if_neg (fun is => free (used.1 is)), if_pos (by simp [undef])]
    rfl
  · rw [if_neg (fun is => free (used.1 is)), if_neg (by simpa using defined)]
    exact congrArg (fun w => (.next (settle (answer plus (ok [.bare (vnum i)]) w)) : Result)) (afterStepEdit_eq i _ u)
  · rw [if_pos runs]
    rfl
  · rw [if_neg (by simp [runs])]
    rfl

end Sys2Proof.StepLaws

/-! ### Entries, visits and triggers (O40, O39) -/

namespace Sys2Proof.StepLaws

open Sys2Proof.Machine Sys2Proof.Laws

variable {s t u v w : State}

/-! #### Staging ended by the ring (R110) -/

/-- The holder after the ring's request to end staging. -/
def holderLeft (empty : Bool) (g : Engine) : Option Ahead := if empty then none else g.holder

/-- Staging with what waits taken off the list. -/
def stagingCut (empty : Bool) (g : Engine) : Staging :=
  { quitStaging g.staging with discard := (quitStaging g.staging).discard || empty }

/-- What that request does first: the holder alone. -/
theorem endStaging_unfold (empty : Bool) (s : State) : endStaging empty s
    = let h := s.setEngine { s.engine with holder := holderLeft empty s.engine }
      let c := h.setEngine { h.engine with staging := stagingCut empty s.engine }
      if s.engine.mode = .staging then if s.engine.active = [] then setMode .idle (stagingOver c) else c else h := by
  have same : s = s.setEngine { s.engine with holder := s.engine.holder } := rfl
  have mode : (s.engine.mode == .staging) = true ↔ s.engine.mode = .staging := beq_iff_eq
  have still : s.engine.active.isEmpty = true ↔ s.engine.active = [] := List.isEmpty_iff
  cases empty
  · exact ite_congr (propext mode) (fun _ => ite_congr (propext still) (fun _ => rfl) fun _ => rfl) fun _ => same
  · exact ite_congr (propext mode) (fun _ => ite_congr (propext still) (fun _ => rfl) fun _ => rfl) fun _ => rfl

theorem endStaging_outside (empty : Bool) (mode : s.engine.mode ≠ .staging) :
    endStaging empty s = s.setEngine { s.engine with holder := holderLeft empty s.engine } := by
  rw [endStaging_unfold]
  exact if_neg mode

theorem endStaging_cut (empty : Bool) (mode : s.engine.mode = .staging) (moving : s.engine.active ≠ []) :
    endStaging empty s = s.setEngine { s.engine with
      holder := holderLeft empty s.engine, staging := stagingCut empty s.engine } := by
  rw [endStaging_unfold]
  exact (if_pos mode).trans (if_neg moving)

theorem endStaging_over (empty : Bool) (mode : s.engine.mode = .staging) (still : s.engine.active = []) :
    endStaging empty s = (s.setEngine { s.engine with
      mode := .idle, holder := holderLeft empty s.engine, staging := stagingReset }).setLink (opEnded .staging s).link := by
  rw [endStaging_unfold]
  refine ((if_pos mode).trans (if_pos still)).trans ?_
  rw [stagingOver_idle]
  exact opEnded_eq .staging (s := s) rfl

/-! #### The beginning of an entry (R123, R124) -/

/-- The ring ENTERING the step at its pointer. -/
def enteringRing (g : Ring) : Ring :=
  { g with
    state := .entering, visit := 1, pendingTrig := false, overrun := false, holdPending := false,
    dwellTimer := none, keptDwell := none }

/-- The request of an entry of `st`. -/
def entryRequest (st : StepRec) : Request := { origin := .step, target := st.group, plus := false }

theorem beginEntry_undef (h : stepAt s s.ring.ptr = none) : beginEntry s = (haltRing .undef .dash s, false) := by
  simp only [beginEntry, h]

theorem beginEntry_waits {st : StepRec} (at_ptr : stepAt s s.ring.ptr = some st)
    (waits : takeRequest (entryRequest st) (s.setRing (enteringRing s.ring)) = (t, .waiting)) : beginEntry s = (t, false) := by
  unfold entryRequest enteringRing at waits
  simp only [beginEntry, at_ptr, waits]

theorem promoteHolder_ring (s : State) : (promoteHolder s).ring = s.ring := by simp

theorem promoteHolder_mode (s : State) : (promoteHolder s).engine.mode = s.engine.mode := by simp

/-- An entry whose request is decided from `w`: refused, and the ring halts, or passed. -/
theorem beginEntry_decides {st : StepRec} (at_ptr : stepAt s s.ring.ptr = some st)
    (takes : takeRequest (entryRequest st) (s.setRing (enteringRing s.ring)) = decideRequest (entryRequest st) w)
    (mode : w.engine.mode = .idle) (ring : w.ring.state = .entering) :
    (∀ f, checkSet (promoteHolder w) (entryRequest st) = some f →
      beginEntry s = (haltRing (haltOfCode f.1) f.2 (promoteHolder w), false))
    ∧ (checkSet (promoteHolder w) (entryRequest st) = none →
      beginEntry s = (accept (entryRequest st) (promoteHolder w), true)) := by
  have decides : decideRequest (entryRequest st) w = match checkSet (promoteHolder w) (entryRequest st) with
      | some f => (promoteHolder w, .refused f)
      | none => (accept (entryRequest st) (promoteHolder w), .accepted) := by
    simp only [decideRequest, setMode_self mode]
    rfl
  unfold entryRequest enteringRing at takes
  refine ⟨fun f fails => ?_, fun passes => ?_⟩
  · rw [fails] at decides
    unfold entryRequest at decides
    simp only [beginEntry, at_ptr, takes, decides]
    rw [ringRefused_entering _ _ (by rw [promoteHolder_ring]; exact ring)]
  · rw [passes] at decides
    unfold entryRequest at decides ⊢
    simp only [beginEntry, at_ptr, takes, decides]

/-- A held staging failure becomes a fault of its element (R111). -/
theorem promoteHolder_some {a : Ahead} (h : s.engine.holder = some a) : promoteHolder s = recordFault { plainFault .ahead with
    elem := some a.elem, commanded := some a.commanded, indicated := some a.indicated }
      ((updElem a.elem (fun x => { x with faulted := true }) s).setEngine { s.engine with holder := none }) := by
  have engine (f : Elem → Elem) : (updElem a.elem f s).engine = s.engine := by simp
  simp only [promoteHolder, h, engine]

theorem promoteHolder_none (h : s.engine.holder = none) : promoteHolder s = s := by
  simp only [promoteHolder, h]

/-! #### Visits and triggers (R128, R129) -/

/-- One more visit of the step. -/
def visitAgain (st : StepRec) (u : State) : State := u.setRing { u.ring with
  visit := u.ring.visit + 1, dwellTimer := if st.dwell = 0 then none else some st.dwell }

theorem followUp_stays (h : w.engine.dropHeld = true → w.engine.mode ≠ .idle) :
    followUp rounds (continueEntry (w, false)) = w := takeHeldDrop_idle h

theorem visitEnds_again {st : StepRec} (h : s.ring.visit < st.rep) : visitEnds st s = (visitAgain st s, false) := if_pos h

theorem visitEnds_leaves {st : StepRec} (h : st.rep ≤ s.ring.visit) : visitEnds st s = beginEntry (leaveStep s) :=
  if_neg (Nat.not_lt.2 h)

theorem dwellEnds_quiet (h : s.ring.state ≠ .dwelling ∨ s.ring.dwellTimer = none) : dwellEnds s = (s, false) := by
  unfold dwellEnds
  split
  · exact if_neg (by rcases h with h | h <;> simp [h])
  · rfl

theorem dwellEnds_visit {st : StepRec} {d : Nat} (dwelling : s.ring.state = .dwelling) (runs : s.ring.dwellTimer = some d)
    (at_ptr : stepAt s s.ring.ptr = some st) : dwellEnds s = visitEnds st s := by
  simp only [dwellEnds, at_ptr]
  exact if_pos (by simp [dwelling, runs])

theorem takeTrigger_timed {st : StepRec} (dwelling : s.ring.state = .dwelling) (at_ptr : stepAt s s.ring.ptr = some st)
    (timed : st.dwell ≠ 0) : takeTrigger s = ((s, false), .ignored) := by
  simp only [takeTrigger, dwelling, at_ptr, if_neg timed]

theorem takeTrigger_taken {st : StepRec} (dwelling : s.ring.state = .dwelling) (at_ptr : stepAt s s.ring.ptr = some st)
    (triggered : st.dwell = 0) : takeTrigger s = (visitEnds st s, .taken) := by
  simp only [takeTrigger, dwelling, at_ptr, if_pos triggered]

theorem takeTrigger_pending (entering : s.ring.state = .entering) (clear : s.ring.pendingTrig = false) :
    takeTrigger s = ((s.setRing { s.ring with pendingTrig := true }, false), .pending) := by
  unfold takeTrigger
  split
  case h_2 => exact if_neg (by simp [clear])
  all_goals simp_all

theorem takeTrigger_overrun (entering : s.ring.state = .entering) (set : s.ring.pendingTrig = true) :
    takeTrigger s = ((s.setRing { s.ring with overrun := true }, false), .overrun) := by
  unfold takeTrigger
  split
  case h_2 => exact if_pos set
  all_goals simp_all

theorem takeTrigger_idle (h : s.ring.state = .idle ∨ s.ring.state = .held ∨ s.ring.state = .halted) :
    takeTrigger s = ((s, false), .ignored) := by
  rcases h with h | h | h <;> simp only [takeTrigger, h]

theorem exec_dwellExpiry (s : State) : exec .dwellExpiry s = .next (settle (followUp rounds (continueEntry (dwellEnds s)))) := by
  have is : exec .dwellExpiry s = execDwellExpiry s := rfl
  rw [is, execDwellExpiry, event_passes rfl]

theorem exec_trigIn (s : State) : exec .trigIn s = .next (settle (followUp rounds (continueEntry (takeTrigger s).1))) := by
  have is : exec .trigIn s = execTrigIn s := rfl
  rw [is, execTrigIn, event_passes rfl]

/-- TRIG with the trigger it takes: its reply is formed once the entry has begun. -/
theorem exec_trig {plus b : Bool} {g : Trigger} {word : String} (name : triggerName g = word) (taken : Takes (.trig plus) s u)
    (takes : takeTrigger u = ((w, b), g)) : exec (.trig plus) s
      = .next (settle (followUp rounds (continueEntry (answer plus (ok [.bare (.word word)]) w, b)))) := by
  refine (command_of_takes taken plus _).trans ?_
  rw [trigTaken, takes, name]

/-- TRIG that begins no entry. -/
theorem exec_trig_stays {plus : Bool} {g : Trigger} {word : String} (name : triggerName g = word)
    (taken : Takes (.trig plus) s u) (takes : takeTrigger u = ((w, false), g)) (still : w.engine = u.engine)
    (quiet : u.engine.dropHeld = true → u.engine.mode ≠ .idle) :
    exec (.trig plus) s = .next (replied plus (ok [.bare (.word word)]) w) := by
  have engine (r : Reply) : (answer plus r w).engine = u.engine := by rw [← still]; simp
  rw [exec_trig name taken takes, followUp_stays (by rw [engine]; exact quiet)]
  rfl

/-- TRIG's word, and what the trigger does (R129). -/
theorem trig_answers {plus : Bool} (taken : Takes (.trig plus) s u) (quiet : s.engine.dropHeld = true → s.engine.mode ≠ .idle) :
    let word (w : String) : Reply := ok [.bare (.word w)]
    (∀ st, s.ring.state = .dwelling → stepAt s s.ring.ptr = some st →
      (st.dwell ≠ 0 → exec (.trig plus) s = .next (replied plus (word "IGNORED") u))
      ∧ (st.dwell = 0 → s.ring.visit < st.rep → exec (.trig plus) s = .next (replied plus (word "TAKEN") (visitAgain st u)))
      ∧ (st.dwell = 0 → st.rep ≤ s.ring.visit → exec (.trig plus) s = .next (settle
          (let r := beginEntry (leaveStep u)
           followUp rounds (continueEntry (answer plus (word "TAKEN") r.1, r.2))))))
    ∧ (s.ring.state = .entering →
      (s.ring.pendingTrig = false → exec (.trig plus) s = .next (replied plus (word "PENDING")
        (u.setRing { u.ring with pendingTrig := true })))
      ∧ (s.ring.pendingTrig = true → exec (.trig plus) s = .next (replied plus (word "OVERRUN")
        (u.setRing { u.ring with overrun := true }))))
    ∧ (s.ring.state = .idle ∨ s.ring.state = .held ∨ s.ring.state = .halted →
      exec (.trig plus) s = .next (replied plus (word "IGNORED") u)) := by
  intro word
  obtain ⟨is, -⟩ := lineFor_spec taken.1
  have ring : s.ring = u.ring := by rw [is]; rfl
  have engine : s.engine = u.engine := by rw [is]; rfl
  have at_ptr : stepAt s s.ring.ptr = stepAt u u.ring.ptr := by rw [stepAt, stepAt, ring]
  rw [engine] at quiet
  rw [at_ptr, ring]
  refine ⟨fun st dwelling at_ptr => ⟨fun timed => ?_, fun triggered more => ?_, fun triggered last => ?_⟩,
    fun entering => ⟨fun clear => ?_, fun set => ?_⟩, fun off => ?_⟩
  · exact exec_trig_stays rfl taken (takeTrigger_timed dwelling at_ptr timed) rfl quiet
  · exact exec_trig_stays (w := visitAgain st u) rfl taken
      ((takeTrigger_taken dwelling at_ptr triggered).trans (by rw [visitEnds_again more])) rfl quiet
  · have takes := takeTrigger_taken dwelling at_ptr triggered
    rw [visitEnds_leaves last] at takes
    generalize beginEntry (leaveStep u) = r at takes ⊢
    exact exec_trig rfl taken takes
  · exact exec_trig_stays rfl taken (takeTrigger_pending entering clear) rfl quiet
  · exact exec_trig_stays rfl taken (takeTrigger_overrun entering set) rfl quiet
  · exact exec_trig_stays rfl taken (takeTrigger_idle off) rfl quiet

/-- Settles O40. -/
theorem visitsEndByDwellOrTrigger : Obligations.VisitsEndByDwellOrTrigger := by
  refine ⟨fun s => ?_, fun s quiet => ?_⟩
  · intro ring promoted
    have same (x : State) : promoted x = promoteHolder x := by
      unfold promoted
      cases held : x.engine.holder with
      | none => exact (promoteHolder_none held).symm
      | some a =>
        exact (promoteHolder_some held).symm
    refine ⟨beginEntry_undef, fun st at_ptr => ?_⟩
    intro q x ended asked
    have asks {y : State} (takes : takeRequest q (s.setRing (enteringRing s.ring)) = decideRequest q y)
        (mode : y.engine.mode = .idle) (entering : y.ring.state = .entering) : beginEntry s = asked y := by
      obtain ⟨refused, passed⟩ := beginEntry_decides at_ptr takes mode entering
      simp only [asked, same]
      cases checked : checkSet (promoteHolder y) q with
      | some f => exact refused f checked
      | none => exact passed checked
    refine ⟨fun mode => asks ?_ mode rfl, fun mode still => ?_, fun mode moving => ?_⟩
    · have mode' : (s.setRing (enteringRing s.ring)).engine.mode = .idle := mode
      simp only [takeRequest, mode']
      rfl
    · exact asks (takeRequest_staged (s := x) mode still) (by simp [ended]) (by simp [ended, x, ring])
    · exact beginEntry_waits at_ptr (takeRequest_waits (s := x) mode moving)
  · intro again
    refine ⟨fun off => ?_, fun st d dwelling runs at_ptr => ⟨fun more => ?_, fun last => ?_⟩,
      fun st dwelling at_ptr => ⟨fun timed => ?_, fun triggered more => ?_, fun triggered last => ?_⟩,
      fun entering => ⟨fun clear => ?_, fun set => ?_⟩, fun off => ?_, fun plus u taken => ?_⟩
    · rw [exec_dwellExpiry, dwellEnds_quiet off, followUp_stays quiet]
    · rw [exec_dwellExpiry, dwellEnds_visit dwelling runs at_ptr, visitEnds_again more, followUp_stays (w := visitAgain st s) quiet]
      rfl
    · rw [exec_dwellExpiry, dwellEnds_visit dwelling runs at_ptr, visitEnds_leaves last]
    · rw [exec_trigIn, takeTrigger_timed dwelling at_ptr timed, followUp_stays quiet]
    · rw [exec_trigIn, takeTrigger_taken dwelling at_ptr triggered, visitEnds_again more, followUp_stays (w := visitAgain st s) quiet]
      rfl
    · rw [exec_trigIn, takeTrigger_taken dwelling at_ptr triggered, visitEnds_leaves last]
    · rw [exec_trigIn, takeTrigger_pending entering clear,
        followUp_stays (w := s.setRing { s.ring with pendingTrig := true }) quiet]
    · rw [exec_trigIn, takeTrigger_overrun entering set,
        followUp_stays (w := s.setRing { s.ring with overrun := true }) quiet]
    · rw [exec_trigIn, takeTrigger_idle off, followUp_stays quiet]
    · exact trig_answers taken quiet

/-! #### RUN (R122) -/

/-- The ring aimed at step `i`. -/
def aimedRing (i : Nat) (g : Ring) : Ring :=
  { g with pass := 0, ptr := i, visit := 1, pendingTrig := false, overrun := false, holdPending := false, halt := none }

theorem aimRing_idle (i : Nat) (mode : s.engine.mode = .idle) : aimRing i s
    = (s.setRing (aimedRing i s.ring)).setEngine { s.engine with holder := none } :=
  endStaging_outside (s := s.setRing (aimedRing i s.ring)) true (by simp [mode])

theorem aimRing_moving (i : Nat) (mode : s.engine.mode = .staging) (moving : s.engine.active ≠ []) : aimRing i s
    = (s.setRing (aimedRing i s.ring)).setEngine { s.engine with
        holder := none, staging := { quitStaging s.engine.staging with discard := true } } := by
  refine (endStaging_cut (s := s.setRing (aimedRing i s.ring)) true mode moving).trans ?_
  rw [stagingCut, Bool.or_true]
  rfl

theorem aimRing_staged (i : Nat) (mode : s.engine.mode = .staging) (still : s.engine.active = []) (free : s.link.hold = none) :
    aimRing i s = (s.setRing (aimedRing i s.ring)).setEngine { s.engine with
      mode := .idle, holder := none, staging := stagingReset } := by
  refine (endStaging_over (s := s.setRing (aimedRing i s.ring)) true mode still).trans ?_
  rw [opEnded_free .staging (s := s.setRing (aimedRing i s.ring)) free]
  rfl

theorem exec_run {plus : Bool} {i : Nat} (taken : Takes (.run plus i) s u) (inside : i < u.ring.len) (rests : ringRuns u = false)
    (mode : u.engine.mode = .idle ∨ u.engine.mode = .staging) : exec (.run plus i) s = .next (settle (startRun plus i u)) := by
  refine (command_of_takes taken plus _).trans ?_
  rw [if_neg (Nat.not_le.2 inside), if_neg (by simp [rests]), if_neg]
  rcases mode with mode | mode <;> simp [engineEngaged, inFlight, mode]

/-- RUN whose entry does not pass CHECK at once: its reply follows, and no more. -/
theorem startRun_stays {plus : Bool} {i : Nat} (begins : beginEntry (aimRing i u) = (w, false))
    (quiet : w.engine.dropHeld = true → w.engine.mode ≠ .idle) :
    startRun plus i u = answer plus (ok [.bare (vnum i)]) w := by
  have engine (r : Reply) : (answer plus r w).engine = w.engine := by simp
  rw [startRun, begins]
  exact followUp_stays (by rw [engine]; exact quiet)

theorem startRun_passes {plus : Bool} {i : Nat} (begins : beginEntry (aimRing i u) = (w, true)) :
    startRun plus i u = followUp rounds (proceed (answer plus (ok [.bare (vnum i)]) w)) := by
  rw [startRun, begins]
  rfl

/-- RUN answers and leaves the ring halted at step `i` on its first visit, with the engine `g` and nothing else named
touched. -/
def RunHalts (plus : Bool) (i : Nat) (s u : State) (g : Engine) (c : HaltCause) (d : Val) : Prop :=
  ∃ w, exec (.run plus i) s = .next (replied plus (ok [.bare (vnum i)]) w)
    ∧ w.ring.state = .halted ∧ w.ring.halt = some (c, d) ∧ w.ring.ptr = i ∧ w.ring.visit = 1 ∧ w.ring.pass = 0
    ∧ w.routes = u.routes ∧ w.net = u.net ∧ w.engine = g

/-- RUN whose entry halts the ring at once, from a state `v` aimed at the step. -/
theorem run_halts {plus : Bool} {i : Nat} {c : HaltCause} {d : Val} (exec_is : exec (.run plus i) s = .next (settle (startRun plus i u)))
    (begins : beginEntry (aimRing i u) = (haltRing c d v, false)) (unstaged : v.engine.mode ≠ .staging)
    (quiet : v.engine.dropHeld = false) (ptr : v.ring.ptr = i) (visit : v.ring.visit = 1) (pass : v.ring.pass = 0)
    (routes : v.routes = u.routes) (net : v.net = u.net) : RunHalts plus i s u v.engine c d := by
  have engine : (haltRing c d v).engine = v.engine := by rw [haltRing_engine, endedStaging_unstaged unstaged]
  have ring : (haltRing c d v).ring = ringHalted c d v.ring := haltRing_ring c d v
  refine ⟨haltRing c d v, ?_, by rw [ring]; rfl, by rw [ring]; rfl, by rw [ring]; exact ptr, by rw [ring]; exact visit,
    by rw [ring]; exact pass, by simp [routes], by simp [net], engine⟩
  rw [exec_is, startRun_stays begins (by rw [engine, quiet]; simp)]
  rfl

/-- RUN once no staging drive is in progress: `v` is the state whose checks are made. -/
theorem run_checked {plus : Bool} {i : Nat} (exec_is : exec (.run plus i) s = .next (settle (startRun plus i u)))
    (entering : (aimRing i u).setRing (enteringRing (aimRing i u).ring) = v)
    (at_i : (aimRing i u).ring = aimedRing i u.ring) (mode : v.engine.mode = .idle) (holder : v.engine.holder = none)
    (quiet : v.engine.dropHeld = false) (routes : v.routes = u.routes) (net : v.net = u.net) :
    (stepAt u i = none → RunHalts plus i s u v.engine .undef .dash)
    ∧ ∀ st, stepAt u i = some st →
      (∀ c d, checkSet v (entryRequest st) = some (c, d) → RunHalts plus i s u v.engine (haltOfCode c) d)
      ∧ (checkSet v (entryRequest st) = none → exec (.run plus i) s = .next (settle (followUp rounds (proceed
          (answer plus (ok [.bare (vnum i)]) (accept (entryRequest st) v)))))) := by
  have engine : (aimRing i u).engine = v.engine := by rw [← entering]; rfl
  have step : stepAt (aimRing i u) (aimRing i u).ring.ptr = stepAt u i := by rw [stepAt, stepAt, at_i]; rfl
  have ring : v.ring = enteringRing (aimedRing i u.ring) := by rw [← entering, ← at_i]; rfl
  have ptr : v.ring.ptr = i := by rw [ring]; rfl
  have visit : v.ring.visit = 1 := by rw [ring]; rfl
  have pass : v.ring.pass = 0 := by rw [ring]; rfl
  have unstaged : v.engine.mode ≠ .staging := by rw [mode]; simp
  refine ⟨fun undef => ?_, fun st defined => ?_⟩
  · rw [← engine] at unstaged quiet ⊢
    exact run_halts exec_is (beginEntry_undef (step.trans undef)) unstaged quiet (by rw [at_i]; rfl) (by rw [at_i]; rfl)
      (by rw [at_i]; rfl) (by rw [← routes, ← entering]; rfl) (by rw [← net, ← entering]; rfl)
  · have takes : takeRequest (entryRequest st) ((aimRing i u).setRing (enteringRing (aimRing i u).ring))
        = decideRequest (entryRequest st) v := by
      rw [entering]
      simp only [takeRequest, mode]
    obtain ⟨refused, passed⟩ := beginEntry_decides (step.trans defined) takes mode (by rw [ring]; rfl)
    rw [promoteHolder_none holder] at refused passed
    refine ⟨fun c d fails => ?_, fun passes => ?_⟩
    · exact run_halts exec_is (refused (c, d) fails) unstaged quiet ptr visit pass routes net
    · rw [exec_is, startRun_passes (passed passes)]

/-- Settles O39. -/
theorem runEntersItsStep : Obligations.RunEntersItsStep := by
  intro plus i s u taken v ended haltsWith
  have free := hold_of_takes taken
  refine ⟨fun outside => ?_, fun inside runs => ?_, fun inside rests busy => ?_, fun inside rests mode quiet => ?_,
    fun inside rests mode still quiet => ?_, fun st inside rests mode moving defined => ?_,
    fun inside rests mode moving undef => ?_⟩
  · refine (command_of_takes taken plus _).trans ?_
    rw [if_pos outside]
    rfl
  · refine (command_of_takes taken plus _).trans ?_
    rw [if_neg (Nat.not_le.2 inside), if_pos runs]
    rfl
  · refine (command_of_takes taken plus _).trans ?_
    rw [if_neg (Nat.not_le.2 inside), if_neg (by simp [rests]), if_pos (by simpa using busy)]
    rfl
  · have aimed := aimRing_idle i mode
    have unstaged : (if u.engine.mode = .staging then ended.engine else v.engine) = v.engine := if_neg (by simp [mode])
    unfold haltsWith
    rw [unstaged]
    exact run_checked (exec_run taken inside rests (.inl mode)) (by rw [aimed]; rfl) (by rw [aimed]; rfl)
      mode rfl quiet rfl rfl
  · have aimed := aimRing_staged i mode still free
    have staged : (if u.engine.mode = .staging then ended.engine else v.engine) = ended.engine := if_pos mode
    unfold haltsWith
    rw [staged]
    exact run_checked (exec_run taken inside rests (.inr mode)) (by rw [aimed]; rfl) (by rw [aimed]; rfl)
      rfl rfl quiet rfl rfl
  · have aimed := aimRing_moving i mode moving
    have at_i : stepAt (aimRing i u) (aimRing i u).ring.ptr = some st := by rw [aimed]; exact defined
    have begins := beginEntry_waits at_i (takeRequest_waits (by rw [aimed]; exact mode) (by rw [aimed]; exact moving))
    rw [exec_run taken inside rests (.inr mode), startRun_stays begins (by simp)]
    rw [aimed]
    rfl
  · have aimed := aimRing_moving i mode moving
    have at_i : stepAt (aimRing i u) (aimRing i u).ring.ptr = none := by rw [aimed]; exact undef
    have begins := beginEntry_undef at_i
    have ring : (haltRing .undef .dash (aimRing i u)).ring = ringHalted .undef .dash (aimedRing i u.ring) := by
      rw [haltRing_ring, aimed]
      rfl
    have engine : (haltRing .undef .dash (aimRing i u)).engine = { u.engine with
        holder := none, staging := { quitStaging u.engine.staging with discard := true } } := by
      rw [haltRing_engine, aimed, endedStaging]
      exact (if_pos mode).trans (if_neg moving)
    refine ⟨haltRing .undef .dash (aimRing i u), ?_, by rw [ring]; rfl, by rw [ring]; rfl, by rw [ring]; rfl, engine⟩
    rw [exec_run taken inside rests (.inr mode), startRun_stays begins (by rw [engine]; simp [mode])]
    rfl

end Sys2Proof.StepLaws

/-! ### Holding, resuming, stopping and the end of an entry (O41, O42) -/

namespace Sys2Proof.StepLaws

open Sys2Proof.Machine Sys2Proof.Laws

variable {s t u v w : State}

/-! #### The elements staged (R107) -/

/-- A usable route of the group requires position `j` of element `e`. -/
def Requires (s : State) (group : List Nat) (e j : Nat) : Prop :=
  ∃ r ∈ group, ∃ y, routeAt s r = some y ∧ (y.state = .ready ∨ y.state = .applied) ∧ ∃ h ∈ y.hops, h.elem = e ∧ h.pos = j

theorem mem_stagedPositions (s : State) (group : List Nat) (e j : Nat) :
    j ∈ stagedPositions s group e ↔ Requires s group e j := by
  unfold stagedPositions Requires
  rw [List.mem_flatMap]
  refine exists_congr fun r => and_congr_right fun _ => ?_
  cases routeAt s r with
  | none => simp
  | some y =>
    by_cases usable : y.state = .ready ∨ y.state = .applied
    · simp [usable, and_assoc]
    · simp [usable]

/-- The further conditions of R107 on an element to be staged to `k`. -/
def Stageable (s : State) (e : Nat) (x : Elem) (k : Nat) : Prop :=
  cardEnabled s x.card = true ∧ x.faulted = false ∧ (x.guarded = true → e ∈ s.net.released)
    ∧ (x.pos = some (restOf x.kind) ∨ x.pos = none) ∧ x.pos ≠ some k

theorem stageElem_iff (s : State) (group : List Nat) (e : Nat) (x : Elem) (k : Nat) : stageElem s group e x = some k
    ↔ Stageable s e x k ∧ appliedClaims s e = false ∧ (Requires s group e k ∧ ∀ j, Requires s group e j → j = k) := by
  simp only [← mem_stagedPositions]
  unfold stageElem Stageable
  cases stagedPositions s group e with
  | nil => simp
  | cons i l =>
    have released : (!x.guarded || s.net.released.contains e) = true ↔ (x.guarded = true → e ∈ s.net.released) := by
      cases x.guarded <;> simp
    dsimp only
    rw [Option.ite_none_right_eq_some]
    simp only [Bool.and_eq_true, released, elemUsable, List.all_eq_true, beq_iff_eq, Bool.not_eq_true', Bool.or_eq_true,
      bne_iff_ne, Option.some.injEq]
    constructor
    · rintro ⟨⟨⟨⟨⟨⟨same, free⟩, usable⟩, guard⟩, pos⟩, moved⟩, rfl⟩
      refine ⟨⟨usable.1, usable.2, guard, pos, moved⟩, free, List.mem_cons_self, fun j mem => ?_⟩
      rcases List.mem_cons.1 mem with rfl | mem
      · rfl
      · exact same j mem
    · rintro ⟨⟨card, sound, guard, pos, moved⟩, free, mem, only⟩
      obtain rfl := only i List.mem_cons_self
      exact ⟨⟨⟨⟨⟨⟨fun j mem => only j (List.mem_cons_of_mem _ mem), free⟩, card, sound⟩, guard⟩, pos⟩, moved⟩, rfl⟩

/-- The elements staged for a group, each with its position. -/
def stageList (s : State) (group : List Nat) : List (Nat × Nat) :=
  s.net.elems.filterMap fun p => (stageElem s group p.1 p.2).map fun k => (p.1, k)

theorem mem_stageList (wf : tableWf s.net.elems = true) (group : List Nat) (e k : Nat) :
    (e, k) ∈ stageList s group ↔ ∃ x, elemAt s e = some x ∧ stageElem s group e x = some k := by
  unfold stageList
  rw [List.mem_filterMap]
  constructor
  · rintro ⟨⟨f, x⟩, mem, is⟩
    obtain ⟨j, staged, same⟩ := Option.map_eq_some_iff.1 is
    obtain ⟨rfl, rfl⟩ := Prod.mk.inj same
    exact ⟨x, tget_of_mem wf mem, staged⟩
  · rintro ⟨x, at_e, staged⟩
    exact ⟨(e, x), mem_of_tget at_e, by rw [staged]; rfl⟩

theorem ascending_stageList (wf : tableWf s.net.elems = true) (group : List Nat) :
    (stageList s group).Pairwise fun a b => a.1 < b.1 := by
  rw [tableWf_iff] at wf
  refine wf.filterMap _ fun p q rises a is b is' => ?_
  obtain ⟨_, -, rfl⟩ := Option.map_eq_some_iff.1 is
  obtain ⟨_, -, rfl⟩ := Option.map_eq_some_iff.1 is'
  exact rises

theorem stageList_nil (s : State) : stageList s [] = [] := List.filterMap_eq_nil_iff.2 fun _ _ => rfl

theorem stageNext_quiet (h : s.engine.mode ≠ .idle ∨ ∀ st, stepAt s (nextStep s) = some st → st.group = []) : stageNext s = s := by
  unfold stageNext
  split
  · rfl
  · rename_i st at_next
    split
    · rfl
    · rename_i members
      rcases h with engaged | empty
      · exact if_neg (by simpa using engaged)
      · exact absurd (empty st at_next) (by simpa using members)

theorem stageNext_stages {st : StepRec} (at_next : stepAt s (nextStep s) = some st) (mode : s.engine.mode = .idle) :
    stageNext s = if stageList s st.group = [] then s else s.setEngine { s.engine with
      mode := .staging
      staging := { total := (stageList s st.group).length, todo := stageList s st.group, cut := 0, discard := false } } := by
  have stages : stageGroup st.group s = if stageList s st.group = [] then s else s.setEngine { s.engine with
      mode := .staging
      staging := { total := (stageList s st.group).length, todo := stageList s st.group, cut := 0, discard := false } } :=
    (if_pos (by simp [mode])).trans (ite_congr (propext List.isEmpty_iff) (fun _ => rfl) fun _ => rfl)
  simp only [stageNext, at_next]
  by_cases empty : st.group = []
  · rw [empty, stageList_nil]
    rfl
  · rw [if_neg (by simpa using empty), stages]

/-! #### HOLD, RESUME and STOP (R131, R132) -/

theorem answerRing_eq {x : RingState} {word : String} (plus : Bool) (state : w.ring.state = x) (name : ringName x = word) :
    answerRing plus w = answer plus (ok [.bare (.word word)]) w := by
  rw [answerRing, state, name]

theorem exec_hold {plus : Bool} {x : RingState} {word : String} (taken : Takes (.hold plus) s u) (is : holdRing u = w)
    (state : w.ring.state = x) (name : ringName x = word) :
    exec (.hold plus) s = .next (replied plus (ok [.bare (.word word)]) w) := by
  refine (command_of_takes taken plus _).trans ?_
  rw [is, answerRing_eq plus state name]
  rfl

theorem exec_resume {plus : Bool} {x : RingState} {word : String} (taken : Takes (.resume plus) s u) (is : resumeRing u = w)
    (state : w.ring.state = x) (name : ringName x = word) :
    exec (.resume plus) s = .next (replied plus (ok [.bare (.word word)]) w) := by
  refine (command_of_takes taken plus _).trans ?_
  rw [is, answerRing_eq plus state name]
  rfl

theorem exec_stop {plus : Bool} (taken : Takes (.stop plus) s u) (is : stopRing u = w) (state : w.ring.state = .idle) :
    exec (.stop plus) s = .next (replied plus (ok [.bare (.word "IDLE")]) w) := by
  refine (command_of_takes taken plus _).trans ?_
  rw [is, answerRing_eq plus state rfl]
  rfl

theorem holdRing_dwelling (h : s.ring.state = .dwelling) : holdRing s = endStaging false ((dwellRead s).setRing { s.ring with
    state := .held, keptDwell := dwellToRun s, dwellTimer := none }) := by
  simp only [holdRing, h]

theorem holdRing_entering (h : s.ring.state = .entering) : holdRing s = s.setRing { s.ring with holdPending := true } := by
  unfold holdRing
  split <;> simp_all

theorem holdRing_other (h : s.ring.state = .idle ∨ s.ring.state = .held ∨ s.ring.state = .halted) : holdRing s = s := by
  rcases h with h | h | h <;> simp only [holdRing, h]

theorem resumeRing_held {st : StepRec} (h : s.ring.state = .held) (at_ptr : stepAt s s.ring.ptr = some st) :
    let v := s.setRing { s.ring with
      state := .dwelling, pendingTrig := false, keptDwell := none,
      dwellTimer := if st.dwell = 0 then none else some (s.ring.keptDwell.getD st.dwell) }
    resumeRing s = if st.ahead then stageNext v else v := by
  intro v
  have again : stepAt (s.setRing { s.ring with pendingTrig := false }) s.ring.ptr = some st := at_ptr
  simp only [resumeRing, h]
  unfold resumeHeld
  dsimp only [State.setRing_ring]
  simp only [again]
  rfl

theorem resumeRing_entering (h : s.ring.state = .entering) : resumeRing s = s.setRing { s.ring with holdPending := false } := by
  unfold resumeRing
  split <;> simp_all

theorem resumeRing_other (h : s.ring.state = .idle ∨ s.ring.state = .dwelling ∨ s.ring.state = .halted) : resumeRing s = s := by
  rcases h with h | h | h <;> simp only [resumeRing, h]

theorem stopRing_runs (h : ringRuns s = true) : stopRing s = endStaging true (s.setRing { s.ring with
    state := .idle, dwellTimer := none, keptDwell := none, pendingTrig := false, overrun := false,
    holdPending := false }) := by
  unfold stopRing
  split
  case h_1 idle => simp [ringRuns, idle] at h
  case h_2 halted => simp [ringRuns, halted] at h
  case h_3 => rfl

theorem endStaging_ring (empty : Bool) (s : State) : (endStaging empty s).ring = s.ring := by simp

theorem stageNext_ring (s : State) : (stageNext s).ring = s.ring := by simp

/-- Settles O41. -/
theorem holdResumeAndStopActByState : Obligations.HoldResumeAndStopActByState := by
  refine ⟨fun s wf => ⟨fun quiet => stageNext_quiet quiet, fun st at_next mode => ?_⟩, fun empty s => ?_, fun plus s u => ?_⟩
  · refine ⟨stageList s st.group, stageNext_stages at_next mode, ascending_stageList wf _, fun e k => ?_⟩
    rw [mem_stageList wf]
    simp only [stageElem_iff, Stageable, Requires]
    constructor
    · rintro ⟨x, at_e, ⟨card, sound, guard, pos, moved⟩, free, required⟩
      exact ⟨⟨x, at_e, card, sound, guard, pos, moved⟩, free, required⟩
    · rintro ⟨⟨x, at_e, card, sound, guard, pos, moved⟩, free, required⟩
      exact ⟨x, at_e, ⟨card, sound, guard, pos, moved⟩, free, required⟩
  · exact ⟨endStaging_outside empty, endStaging_cut empty, endStaging_over empty, rfl, rfl, rfl⟩
  · refine ⟨fun taken => ⟨fun dwelling stopped => ?_, fun d dwelling runs => ?_, fun entering => ?_, fun other => ?_⟩,
      fun taken => ⟨fun st held at_ptr => ?_, fun entering => ?_, fun other => ?_⟩,
      fun taken => ⟨fun runs => ?_, fun halted => ?_, fun idle => ?_⟩, ?_⟩
    · refine exec_hold (x := .held) taken ((holdRing_dwelling dwelling).trans ?_) (by rw [endStaging_ring]; rfl) rfl
      rw [dwellRead, dwellToRun, stopped]
      rfl
    · refine ⟨min (Config.dwellLeft u.free) d, Nat.min_le_right _ _,
        exec_hold (x := .held) taken ((holdRing_dwelling dwelling).trans ?_) (by rw [endStaging_ring]; rfl) rfl⟩
      rw [dwellRead, dwellToRun_some runs, runs]
      rfl
    · exact exec_hold taken (holdRing_entering entering) entering rfl
    · exact exec_hold taken (holdRing_other other) rfl rfl
    · refine exec_resume (x := .dwelling) taken (resumeRing_held held at_ptr) ?_ rfl
      split
      · rw [stageNext_ring]
        rfl
      · rfl
    · exact exec_resume taken (resumeRing_entering entering) entering rfl
    · exact exec_resume taken (resumeRing_other other) rfl rfl
    · exact exec_stop taken (stopRing_runs runs) (by rw [endStaging_ring]; rfl)
    · exact exec_stop taken (by simp only [stopRing, halted]) rfl
    · exact exec_stop taken (by simp only [stopRing, idle]) idle
    · have is : exec .markTimerExpiry s = execMarkTimerExpiry s := rfl
      rw [is, execMarkTimerExpiry, event_passes rfl]

/-! #### A CLEAN entry (R125) -/

theorem enqueue_eq (n : Notice) (link : t.link = s.link) : enqueue n t = t.setLink (enqueue n s).link := by
  unfold enqueue
  rw [link]
  split <;> rfl

theorem enqueue_site (n : Notice) (s : State) : (enqueue n s).site = s.site := by simp

/-- A STEP notice touches the link alone, and is decided by the link and the settings alone. -/
theorem stepEntry_eq (i p : Nat) (link : t.link = s.link) (site : t.site = s.site) :
    stepEntry i p t = t.setLink (stepEntry i p s).link := by
  have self : t = t.setLink s.link := by rw [← link]; rfl
  unfold stepEntry
  rw [link]
  split
  · exact self
  · split
    · dsimp only
      rw [enqueue_eq _ link, enqueue_site, State.setLink_site, site]
      split <;> rfl
    · rfl

theorem notify_setRing (n : Notice) (g : Ring) (s : State) : notify n (s.setRing g) = (notify n s).setRing g :=
  (notify_eq n (s := s) (t := s.setRing g) rfl).trans (congrArg (fun w => State.setRing w g) (notify_eq n (s := s) (t := s) rfl).symm)

theorem stepEntry_setRing (i p : Nat) (g : Ring) (s : State) : stepEntry i p (s.setRing g) = (stepEntry i p s).setRing g :=
  (stepEntry_eq i p (s := s) (t := s.setRing g) rfl rfl).trans (congrArg (fun w => State.setRing w g) (stepEntry_eq i p (s := s) (t := s) rfl rfl).symm)

/-- The report of a CLEAN entry, and the state with its `!BAL` sent. -/
def entryReport (st : StepRec) (number : Nat) (s : State) : Report := formReport (wipeAdvance s) st s.ring.ptr s.ring.pass number

def balanced (st : StepRec) (number : Nat) (s : State) : State :=
  if (entryReport st number s).balance then notify (.bal s.ring.ptr (entryReport st number s).spread) (wipeAdvance s)
  else wipeAdvance s

/-- That state with its `!STEP` sent. -/
def stepSent (st : StepRec) (number : Nat) (s : State) : State :=
  if st.notice then stepEntry s.ring.ptr s.ring.pass (balanced st number s) else balanced st number s

theorem wipeAdvance_ring (s : State) : (wipeAdvance s).ring = s.ring := by simp

theorem reported_eq (st : StepRec) (number : Nat) (s : State) :
    reported st number s = (balanced st number s).setRing { s.ring with report := some (entryReport st number s) } := by
  unfold reported balanced entryReport
  dsimp only
  rw [wipeAdvance_ring]
  split
  · exact notify_setRing _ _ _
  · rfl

/-- The state in which a CLEAN entry comes to its hold, trigger or dwell (R125 step 5). -/
def entered (st : StepRec) (number : Nat) (s : State) : State := (stepSent st number s).setRing { s.ring with
  report := some (entryReport st number s), markTimer := s.ring.markTimer || st.mark }

theorem announced_eq (st : StepRec) (number : Nat) (s : State) :
    announced st (reported st number s) = entered st number s := by
  rw [reported_eq]
  have marked : (if st.mark then ((balanced st number s).setRing { s.ring with report := some (entryReport st number s) }).setRing
        { s.ring with report := some (entryReport st number s), markTimer := true }
      else (balanced st number s).setRing { s.ring with report := some (entryReport st number s) })
      = (balanced st number s).setRing { s.ring with
          report := some (entryReport st number s), markTimer := s.ring.markTimer || st.mark } := by
    cases st.mark
    · rw [Bool.or_false]
      rfl
    · rw [Bool.or_true]
      rfl
  unfold announced entered stepSent
  dsimp only [State.setRing_ring]
  rw [marked]
  split
  · exact stepEntry_setRing _ _ _ _
  · rfl

theorem endStaging_link (empty : Bool) (link : t.link = s.link) (engine : t.engine = s.engine) :
    (endStaging empty t).link = (endStaging empty s).link := by
  by_cases mode : s.engine.mode = .staging
  · by_cases still : s.engine.active = []
    · rw [endStaging_over empty mode still, endStaging_over empty (by rw [engine]; exact mode) (by rw [engine]; exact still)]
      exact opEnded_link .staging link
    · rw [endStaging_cut empty mode still, endStaging_cut empty (by rw [engine]; exact mode) (by rw [engine]; exact still)]
      exact link
  · rw [endStaging_outside empty mode, endStaging_outside empty (by rw [engine]; exact mode)]
    exact link

/-- The pointer moves on within the pass, or wraps with `!ROLL`. -/
theorem leaveStep_within (h : s.ring.ptr + 1 < s.ring.len) :
    leaveStep s = s.setRing { s.ring with ptr := s.ring.ptr + 1, visit := 1, dwellTimer := none } := if_pos h

theorem leaveStep_wraps (h : s.ring.len ≤ s.ring.ptr + 1) : leaveStep s
    = notify (.roll ((s.ring.pass + 1) % 65536)) (s.setRing { s.ring with
        ptr := 0, visit := 1, pass := (s.ring.pass + 1) % 65536, dwellTimer := none }) := if_neg (Nat.not_lt.2 h)

theorem notify_ring (n : Notice) (s : State) : (notify n s).ring = s.ring := by simp

/-- A pending hold: the ring is HELD (R125 step 5). -/
theorem afterNotice_held (st : StepRec) (h : s.ring.holdPending = true) : afterNotice st s = (s.setRing { s.ring with
    state := .held, visit := 1, keptDwell := if st.dwell = 0 then none else some st.dwell,
    holdPending := false, pendingTrig := false }, .nothing) := if_pos h

/-- The ring's pending-trigger mark cleared. -/
def unmarked (s : State) : State := s.setRing { s.ring with pendingTrig := false }

/-- A pending trigger ends the one visit of a trigger step (R125 step 6). -/
theorem afterNotice_leaves (st : StepRec) (h : s.ring.holdPending = false) (trig : s.ring.pendingTrig = true)
    (triggered : st.dwell = 0) (one : st.rep ≤ 1) :
    afterNotice st s = (leaveStep (unmarked s), .enter) :=
  (if_neg (by simp [h])).trans ((if_pos (by simp [trig, triggered])).trans (if_pos one))

/-- Otherwise the ring dwells, in its second visit when a pending trigger has ended the first (R125 steps 6 and 7). -/
theorem afterNotice_dwells (st : StepRec) (h : s.ring.holdPending = false)
    (stays : ¬(s.ring.pendingTrig = true ∧ st.dwell = 0 ∧ st.rep ≤ 1)) :
    afterNotice st s = (beginDwell st st.dwell (s.setRing { s.ring with
      pendingTrig := false, visit := if s.ring.pendingTrig = true ∧ st.dwell = 0 then 2 else s.ring.visit }), dwellAsk st) := by
  refine (if_neg (by simp [h])).trans ?_
  by_cases trig : s.ring.pendingTrig = true ∧ st.dwell = 0
  · rw [if_pos trig]
    exact (if_pos (by simp [trig])).trans (if_neg fun one => stays ⟨trig.1, trig.2, one⟩)
  · rw [if_neg trig]
    exact if_neg (by simpa using trig)

theorem leaveStep_timer (s : State) :
    (leaveStep s).ring.report = s.ring.report ∧ (leaveStep s).ring.markTimer = s.ring.markTimer := by
  rcases Nat.lt_or_ge (s.ring.ptr + 1) s.ring.len with within | wraps
  · rw [leaveStep_within within]
    exact ⟨rfl, rfl⟩
  · rw [leaveStep_wraps wraps, notify_ring]
    exact ⟨rfl, rfl⟩

theorem leaveStep_visit (s : State) : (leaveStep s).ring.visit = 1 ∧ (leaveStep s).ring.state = s.ring.state := by
  rcases Nat.lt_or_ge (s.ring.ptr + 1) s.ring.len with within | wraps
  · rw [leaveStep_within within]
    exact ⟨rfl, rfl⟩
  · rw [leaveStep_wraps wraps, notify_ring]
    exact ⟨rfl, rfl⟩

theorem afterNotice_timer (st : StepRec) (s : State) : (afterNotice st s).1.ring.report = s.ring.report
    ∧ (afterNotice st s).1.ring.markTimer = s.ring.markTimer := by
  by_cases hold : s.ring.holdPending = true
  · rw [afterNotice_held st hold]
    exact ⟨rfl, rfl⟩
  · have hold : s.ring.holdPending = false := by simpa using hold
    by_cases leaves : s.ring.pendingTrig = true ∧ st.dwell = 0 ∧ st.rep ≤ 1
    · rw [afterNotice_leaves st hold leaves.1 leaves.2.1 leaves.2.2]
      exact leaveStep_timer _
    · rw [afterNotice_dwells st hold leaves]
      exact ⟨rfl, rfl⟩

/-- Settles O42. -/
theorem cleanEntriesFormTheReport : Obligations.CleanEntriesFormTheReport := by
  refine ⟨fun c d s => ⟨rfl, ite_congr (propext (by simp)) (fun _ => rfl) fun _ => rfl, fun number out cause other => ringOutcome_ignored _ _ _ other,
    fun number out cause entering unclean => ?_, fun number cause entering undef => ?_,
    fun number cause st entering at_ptr => ?_⟩, fun st number s => ?_⟩
  · rw [ringOutcome_unclean _ entering unclean]
    cases cause <;> rfl
  · unfold ringOutcome
    simp only [entering, undef, beq_self_eq_true, if_true]
  · unfold ringOutcome
    simp only [entering, at_ptr, beq_self_eq_true, if_true]
  · intro w r v report b n
    have overrun : (reported st number s).ring.overrun = s.ring.overrun := by rw [reported_ring]
    have is : r = if s.ring.overrun then (haltRing .overrun .dash (reported st number s), .nothing)
        else afterNotice st (announced st (reported st number s)) := by
      rw [← overrun]
      exact entryClean_eq st number s
    rw [reported_eq] at is
    have going (no : s.ring.overrun = false) : r = afterNotice st (entered st number s) := by
      rw [is, if_neg (by simp [no]), ← reported_eq, announced_eq]
    have stopped (yes : s.ring.overrun = true) : r = (haltRing .overrun .dash
        ((balanced st number s).setRing { s.ring with report := some report }), .nothing) := by
      rw [is, if_pos yes]
      rfl
    refine ⟨?_, fun yes => ?_, fun no => ⟨?_, fun hold => ?_, fun hold trig triggered one => ?_, fun hold stays => ?_⟩, ?_⟩
    · unfold v
      cases over_ : s.ring.overrun with
      | true =>
        rw [stopped over_, haltRing_ring]
        rfl
      | false =>
        rw [going over_]
        exact (afterNotice_timer st _).1
    · have ring : v.ring = ringHalted .overrun .dash { s.ring with report := some report } := by
        unfold v
        rw [stopped yes]
        exact haltRing_ring _ _ _
      refine ⟨by rw [ring]; rfl, by rw [ring]; rfl, by rw [ring]; rfl, by rw [ring]; rfl, by rw [stopped yes], ?_⟩
      unfold v
      rw [stopped yes]
      exact notify_link (endStaging_link false rfl rfl)
    · unfold v
      rw [going no]
      exact (afterNotice_timer st _).2
    · unfold v
      rw [going no, afterNotice_held (s := entered st number s) st hold]
      exact ⟨rfl, rfl, rfl, rfl, rfl, rfl, rfl⟩
    · unfold v
      rw [going no, afterNotice_leaves (s := entered st number s) st hold trig triggered one]
      refine ⟨rfl, ?_, ?_, fun within => ?_, fun wraps => ?_⟩
      · exact (leaveStep_visit _).1
      · exact (leaveStep_visit _).2
      · rw [leaveStep_within (s := unmarked (entered st number s)) within]
        exact ⟨rfl, rfl, rfl⟩
      · rw [leaveStep_wraps (s := unmarked (entered st number s)) wraps, notify_ring]
        exact ⟨rfl, rfl, notify_link rfl⟩
    · unfold v
      rw [going no, afterNotice_dwells (s := entered st number s) st hold stays]
      exact ⟨rfl, rfl, rfl, rfl, rfl, rfl, rfl⟩
    · exact ⟨by simp [v, r], by simp [v, r], by simp [v, r]⟩

end Sys2Proof.StepLaws

/-! ### Polls and restarts (O43, O44) -/

namespace Sys2Proof.StepLaws

open Sys2Proof.Machine Sys2Proof.Laws

variable {s t u v w : State}

/-! #### Tables -/

/-- Tables in their canonical form are equal when they hold equal records. -/
theorem table_ext {α : Type} {a b : Table α} (wfA : tableWf a = true) (wfB : tableWf b = true)
    (same : ∀ k, tget a k = tget b k) : a = b := by
  have mem (p : Nat × α) : p ∈ a ↔ p ∈ b := by
    obtain ⟨k, x⟩ := p
    exact ⟨fun h => mem_of_tget (by rw [← same]; exact tget_of_mem wfA h),
      fun h => mem_of_tget (by rw [same]; exact tget_of_mem wfB h)⟩
  rw [tableWf_iff] at wfA wfB
  have distinct {l : Table α} (rises : l.Pairwise fun p q => p.1 < q.1) : l.Nodup :=
    rises.imp fun lt eq => absurd (congrArg Prod.fst eq) (Nat.ne_of_lt lt)
  exact ((List.perm_ext_iff_of_nodup (distinct wfA) (distinct wfB)).2 mem).eq_of_pairwise
    (fun p q _ _ lt gt => absurd lt (Nat.lt_asymm gt)) wfA wfB

theorem tget_bput {α : Type} [DecidableEq α] (d : α) {t : Table α} (wf : tableWf t = true) (k j : Nat) (x : α) :
    tget (bput d t k x) j = if j = k then (if x = d then none else some x) else tget t j := by
  unfold bput
  by_cases here : j = k
  · subst here
    rw [if_pos rfl]
    split
    · exact tget_tdel_same j wf
    · rw [tget_tput, if_pos rfl]
  · rw [if_neg here]
    split
    · exact tget_tdel_other t k j here
    · rw [tget_tput, if_neg here]

theorem bput_bput {α : Type} [DecidableEq α] (d : α) {t : Table α} (wf : tableWf t = true) (k : Nat) (x y : α) :
    bput d (bput d t k x) k y = bput d t k y := by
  have wf' : tableWf (bput d t k x) = true := tableWf_bput _ _ _ wf
  refine table_ext (tableWf_bput _ _ _ wf') (tableWf_bput _ _ _ wf) fun j => ?_
  rw [tget_bput d wf', tget_bput d wf, tget_bput d wf]
  by_cases here : j = k
  · rw [if_pos here, if_pos here]
  · rw [if_neg here, if_neg here, if_neg here]

theorem setCard_setCard (wf : tableWf s.cards = true) (n : Nat) (a b : Card) : setCard n b (setCard n a s) = setCard n b s :=
  congrArg s.setCards (bput_bput cardReset wf n a b)

/-! #### Cards -/

theorem setLast_eq (n : Nat) (p : PollResult) (s : State) : setLast n p s = setCard n { cardAt s n with last := some p } s := rfl

theorem cardAt_setLast (wf : tableWf s.cards = true) (n : Nat) (p : PollResult) :
    cardAt (setLast n p s) n = { cardAt s n with last := some p } := by
  rw [setLast_eq, cardAt_setCard wf, if_pos rfl]

theorem changeCard_same {n : Nat} {new : CardState} (h : (cardAt s n).state = new) : changeCard n new s = s := if_pos h

theorem changeCard_discovery {n : Nat} {new : CardState} (h : (cardAt s n).state ≠ new) (phase : s.phase = .discovery) :
    changeCard n new s = setCard n { cardAt s n with state := new } s := (if_neg h).trans (if_pos (by simp [phase]))

theorem changeCard_presence {n : Nat} {new : CardState} (h : (cardAt s n).state ≠ new) (phase : s.phase ≠ .discovery)
    (presence : (cardAt s n).state = .absent ∨ new = .absent) : changeCard n new s
      = notify (.card n new) (setCard n { cardAt s n with state := new, presenceChg := true } s) := by
  have away : ((cardAt s n).state == .absent || new == .absent) = true := by simpa using presence
  refine (if_neg h).trans ((if_neg (by simp [phase])).trans ?_)
  simp only [away, Bool.not_true, Bool.or_true, Bool.or_false]

theorem changeCard_flag {n : Nat} {new : CardState} (h : (cardAt s n).state ≠ new) (phase : s.phase ≠ .discovery)
    (before : (cardAt s n).state ≠ .absent) (after : new ≠ .absent) : changeCard n new s
      = notify (.card n new) (setCard n { cardAt s n with state := new, stateChg := true } s) := by
  have stays : ((cardAt s n).state == .absent || new == .absent) = false := by simp [before, after]
  refine (if_neg h).trans ((if_neg (by simp [phase])).trans ?_)
  simp only [stays, Bool.not_false, Bool.or_true, Bool.or_false]

theorem notify_setCards (m : Notice) (c : Table Card) (s : State) :
    notify m (s.setCards c) = (s.setCards (notify m (s.setCards c)).cards).setLink (notify m (s.setCards c)).link := by
  have cards : (notify m (s.setCards c)).cards = c := by simp
  rw [cards]
  exact (notify_spec m _).1

/-- What a change of state leaves but the card and its notice. -/
theorem changeCard_rest (n : Nat) (new : CardState) (s : State) :
    changeCard n new s = (s.setCards (changeCard n new s).cards).setLink (changeCard n new s).link := by
  unfold changeCard
  dsimp only
  split
  · rfl
  · split
    · rfl
    · exact notify_setCards _ _ s

theorem changeCard_link {n : Nat} {new : CardState} (h : (cardAt s n).state ≠ new) (phase : s.phase ≠ .discovery) :
    (changeCard n new s).link = (notify (.card n new) s).link := by
  refine (congrArg State.link ((if_neg h).trans (if_neg (by simp [phase])))).trans ?_
  exact notify_link rfl

theorem cards_leaveEnabled (n : Nat) (s : State) : (leaveEnabled n s).cards = (setPulses n (fun _ => 0) s).cards := by
  simp [leaveEnabled]

theorem cardAt_leaveEnabled (wf : tableWf s.cards = true) (n : Nat) :
    cardAt (leaveEnabled n s) n = { cardAt s n with pulses := 0 } := by
  rw [cardAt, cards_leaveEnabled]
  exact (cardAt_setCard wf n n _).trans (if_pos rfl)

/-! #### Poll rounds (R149, R150) -/

theorem notRestarting_none {fuel k : Nat} (all : ∀ j, k ≤ j → j < k + fuel → (cardAt s j).state = .restarting) :
    notRestarting s fuel k = none := by
  induction fuel generalizing k with
  | zero => rfl
  | succ fuel ih =>
    rw [notRestarting, if_pos (all k (Nat.le_refl k) (by omega))]
    exact ih fun j low high => all j (by omega) (by omega)

theorem notRestarting_first {fuel k j : Nat} (low : k ≤ j) (high : j < k + fuel) (here : (cardAt s j).state ≠ .restarting)
    (before : ∀ m, k ≤ m → m < j → (cardAt s m).state = .restarting) : notRestarting s fuel k = some j := by
  induction fuel generalizing k with
  | zero => omega
  | succ fuel ih =>
    by_cases is : k = j
    · subst is
      rw [notRestarting, if_neg here]
    · rw [notRestarting, if_pos (before k (Nat.le_refl k) (by omega))]
      exact ih (by omega) (by omega) fun m low' high' => before m (by omega) high'

theorem roundAt_over {k : Nat} (all : ∀ j, k ≤ j → j < 12 → (cardAt s j).state = .restarting) :
    roundAt k s = s.setBus { s.bus with round := none, pollTimer := some s.site.pollGap } := by
  have none : notRestarting s (Config.cards - k) k = none :=
    notRestarting_none fun j low high => all j low (by simp only [Config.cards] at high; omega)
  simp only [roundAt, none]

theorem roundAt_first {k j : Nat} (low : k ≤ j) (high : j < 12) (here : (cardAt s j).state ≠ .restarting)
    (before : ∀ m, k ≤ m → m < j → (cardAt s m).state = .restarting) : roundAt k s = s.setBus { s.bus with round := some j } := by
  have first : notRestarting s (Config.cards - k) k = some j :=
    notRestarting_first low (by simp only [Config.cards]; omega) here before
  simp only [roundAt, first]

theorem pollDone_quiet {p : PollResult} (h : ∀ n, s.bus.tx ≠ some (.pollRound n) ∧ s.bus.tx ≠ some (.pollDiscovery n)) :
    pollDone p s = s := by
  unfold pollDone
  split
  case h_1 n is => exact absurd is (h n).1
  case h_2 n is => exact absurd is (h n).2
  case h_3 => rfl

/-- The judgement of a round's POLL by the state its card has (R150, R151). -/
theorem roundPolled_eq (wf : tableWf s.cards = true) (n : Nat) (p : PollResult) :
    ((cardAt s n).state = .absent → (p = .silent → roundPolled n p s = setLast n p s)
      ∧ (p ≠ .silent → roundPolled n p s = changeCard n .disabled (setLast n p s)))
    ∧ ((cardAt s n).state = .disabled → (p = .silent → roundPolled n p s = changeCard n .absent (setLast n p s))
      ∧ (p ≠ .silent → roundPolled n p s = setLast n p s))
    ∧ ((cardAt s n).state = .restarting → roundPolled n p s = setLast n p s)
    ∧ ((cardAt s n).state = .enabled → (p = .good → roundPolled n p s = setLast n p s)
      ∧ (p = .silent → roundPolled n p s = loseCard n (setLast n p s))
      ∧ (p = .bad ∨ p = .oc → roundPolled n p s = disableCard n (setLast n p s))) := by
  have state : (cardAt (setLast n p s) n).state = (cardAt s n).state := by rw [cardAt_setLast wf]
  refine ⟨fun is => ?_, fun is => ?_, fun is => ?_, fun is => ?_⟩
  · rw [is] at state
    unfold roundPolled
    simp only [state]
    cases p <;> simp
  · rw [is] at state
    unfold roundPolled
    simp only [state]
    cases p <;> simp
  · rw [is] at state
    unfold roundPolled
    simp only [state]
  · rw [is] at state
    unfold roundPolled
    simp only [state]
    cases p <;> simp

/-- A card that leaves use is recorded with the transition in flight and the applied routes it tears (R151, R185). -/
theorem cardFault_eq (c : FaultCause) (n : Nat) (engine : t.engine = s.engine) (routes : t.routes = s.routes)
    (net : t.net = s.net) : cardFault c n t = recordFault { plainFault c with
      number := if inFlight s then some s.engine.number else none
      torn := s.engine.applied.filter fun r =>
        (routeAt s r).any fun x => x.hops.any fun h => (elemsOnCard s n).contains h.elem } t := by
  have number : flightNumber t = if inFlight s then some s.engine.number else none := by
    unfold flightNumber inFlight
    rw [engine]
  have record (r : Nat) : routeAt t r = routeAt s r := by
    unfold routeAt
    rw [routes]
  have on : elemsOnCard t n = elemsOnCard s n := by
    unfold elemsOnCard
    rw [net]
  unfold cardFault
  simp only [number, engine, routesWhere_claims, on, record]

theorem cardFault_fault (c : FaultCause) (n : Nat) (clear : s.records.fault = none) :
    ∃ f, (cardFault c n s).records.fault = some f ∧ f.cause = c ∧ f.elem = none := by
  unfold cardFault
  rw [recordFault_fault, clear]
  exact ⟨_, rfl, rfl, rfl⟩

theorem changedCard_last (new : CardState) (discovery : Bool) (c : Card) : (changedCard new discovery c).last = c.last := by
  unfold changedCard
  split
  · rfl
  · split <;> rfl

/-- An ENABLED card disabled on its supply (R151). -/
theorem cardAt_disableCard (wf : tableWf s.cards = true) (n : Nat) : cardAt (disableCard n s) n
    = { changedCard .disabled (s.phase == .discovery) { cardAt s n with coilFault := true } with pulses := 0 } := by
  let a := setCard n { cardAt s n with coilFault := true } s
  let b := cardFault .cardOc n (changeCard n .disabled a)
  have wfA : tableWf a.cards = true := tableWf_bput _ _ _ wf
  have cards : b.cards = (changeCard n .disabled a).cards := by simp [b, cardFault]
  have wfB : tableWf b.cards = true := by
    rw [cards]
    exact tableWf_changeCard n .disabled wfA
  have at_a : cardAt a n = { cardAt s n with coilFault := true } := (cardAt_setCard wf n n _).trans (if_pos rfl)
  have at_b : cardAt b n = changedCard .disabled (s.phase == .discovery) { cardAt s n with coilFault := true } := by
    rw [cardAt, cards, ← cardAt, cardAt_changeCard wfA, if_pos rfl, at_a]
    rfl
  have is : cardAt (disableCard n s) n = { cardAt b n with pulses := 0 } := cardAt_leaveEnabled wfB n
  rw [is, at_b]

theorem disableCard_fault (n : Nat) (clear : s.records.fault = none) :
    ∃ f, (disableCard n s).records.fault = some f ∧ f.cause = .cardOc ∧ f.elem = none := by
  let b := changeCard n .disabled (setCard n { cardAt s n with coilFault := true } s)
  have clear : b.records.fault = none := by
    unfold b
    rw [changeCard_rest]
    exact clear
  obtain ⟨f, filed, cause⟩ := cardFault_fault .cardOc n clear
  exact ⟨f, ((Keeps.refl _).leaveEnabled n).fault f filed, cause⟩

theorem exec_pollAnswer (good oc : Bool) (s : State) :
    exec (.pollAnswer good oc) s = .next (settle (pollDone (pollClass good oc) s)) := by
  have is : exec (.pollAnswer good oc) s = execPollAnswer good oc s := rfl
  rw [is, execPollAnswer, event_passes rfl]

theorem exec_pollGapExpiry (s : State) : exec .pollGapExpiry s = .next (settle
    (if s.bus.pollTimer.isSome then roundAt 0 (s.setBus { s.bus with pollTimer := none }) else s)) := by
  have is : exec .pollGapExpiry s = execPollGapExpiry s := rfl
  rw [is, execPollGapExpiry, event_passes rfl]

theorem pollClass_answered (good oc : Bool) : pollClass good oc ≠ .silent := by
  cases good <;> cases oc <;> simp [pollClass]

/-- What an answered POLL of a round leaves of its card (R150, R151). -/
theorem pollAnswer_card (wf : tableWf s.cards = true) (n : Nat) {p : PollResult} (answered : p ≠ .silent) :
    let v := roundPolled n p s
    (cardAt v n).last = some p
    ∧ ((cardAt s n).state = .absent → (cardAt v n).state = .disabled)
    ∧ ((cardAt s n).state = .disabled → (cardAt v n).state = .disabled)
    ∧ ((cardAt s n).state = .restarting → (cardAt v n).state = .restarting)
    ∧ ((cardAt s n).state = .enabled → p = .good → (cardAt v n).state = .enabled)
    ∧ ((cardAt s n).state = .enabled → p ≠ .good → s.phase = .running →
        (cardAt v n).state = .disabled ∧ (cardAt v n).coilFault = true ∧ (cardAt v n).stateChg = true
        ∧ (cardAt v n).pulses = 0
        ∧ (s.records.fault = none → ∃ f, v.records.fault = some f ∧ f.cause = .cardOc ∧ f.elem = none)) := by
  obtain ⟨absent, disabled, restarting, enabled⟩ := roundPolled_eq wf n p
  have wf' : tableWf (setLast n p s).cards = true := tableWf_bput _ _ _ wf
  have polled := cardAt_setLast wf n p
  cases is : (cardAt s n).state with
  | absent =>
    dsimp only
    rw [(absent is).2 answered, cardAt_changeCard wf', if_pos rfl, polled, changedCard_last, changedCard_state]
    simp
  | disabled =>
    dsimp only
    rw [(disabled is).2 answered, polled]
    simp [is]
  | restarting =>
    dsimp only
    rw [restarting is, polled]
    simp [is]
  | enabled =>
    by_cases good : p = .good
    · dsimp only
      rw [(enabled is).1 good, polled]
      simp [is, good]
    · have off : p = .bad ∨ p = .oc := by cases p <;> simp_all
      dsimp only
      rw [(enabled is).2.2 off, cardAt_disableCard wf', polled]
      refine ⟨changedCard_last _ _ _, by simp, by simp, by simp, fun _ yes => absurd yes good, fun _ _ phase => ?_⟩
      have running : ((setLast n p s).phase == .discovery) = false := by simp [setLast, phase]
      rw [running]
      refine ⟨changedCard_state _ _ _, by simp [changedCard, is], by simp [changedCard, is], rfl, fun clear => ?_⟩
      exact disableCard_fault (s := setLast n p s) n clear

/-- Settles O43. -/
theorem pollsAreJudged : Obligations.PollsAreJudged := by
  intro s
  refine ⟨fun stopped => ?_, fun runs => ?_, fun k all => roundAt_over all,
    fun k j low high here before => roundAt_first low high here before, fun good oc => ?_⟩
  · rw [exec_pollGapExpiry, if_neg (by simp [stopped])]
  · rw [exec_pollGapExpiry, if_pos (Option.isSome_iff_ne_none.2 runs)]
  · intro p
    refine ⟨fun quiet => ?_, fun n tx => ?_, fun n tx => ?_, fun n new => ?_, fun n p => ?_⟩
    · rw [exec_pollAnswer, pollDone_quiet quiet]
    · intro v
      refine ⟨?_, fun wf => pollAnswer_card (s := setTx none s) wf n (pollClass_answered good oc)⟩
      rw [exec_pollAnswer]
      simp only [pollDone, tx]
      rfl
    · rw [exec_pollAnswer]
      simp only [pollDone, tx, if_neg (pollClass_answered good oc)]
      rfl
    · intro c
      exact ⟨changeCard_same, changeCard_discovery, fun away phase => ⟨changeCard_presence away phase, changeCard_flag away phase⟩⟩
    · intro polled left wf
      obtain ⟨absent, disabled, restarting, enabled⟩ := roundPolled_eq wf n p
      refine ⟨rfl, absent, disabled, restarting, fun is => ?_⟩
      obtain ⟨stays, lost, off⟩ := enabled is
      have rest (new : CardState) (x : State) : (changeCard n new x).engine = x.engine
          ∧ (changeCard n new x).routes = x.routes ∧ (changeCard n new x).net = x.net := by
        rw [changeCard_rest]
        exact ⟨rfl, rfl, rfl⟩
      refine ⟨stays, fun silent => (lost silent).trans ?_, fun either => (off either).trans ?_⟩
      · obtain ⟨engine, routes, net⟩ := rest .absent polled
        exact congrArg (leaveEnabled n) (cardFault_eq .cardLost n engine routes net)
      · obtain ⟨engine, routes, net⟩ := rest .disabled (setCard n { cardAt polled n with coilFault := true } polled)
        exact congrArg (leaveEnabled n) (cardFault_eq .cardOc n engine routes net)

end Sys2Proof.StepLaws

/-! ### Restarts of cards (O44) -/

namespace Sys2Proof.StepLaws

open Sys2Proof.Machine Sys2Proof.Laws

variable {s t u v w : State}

/-! #### What the network keeps -/

theorem takeRequest_net {q : Request} (origin : q.origin ≠ .step) (s : State) : (takeRequest q s).1.net = s.net := by
  have decided (v : State) : (decideRequest q v).1.net = v.net := by
    unfold decideRequest
    simp only [if_neg origin]
    split <;> simp
  unfold takeRequest
  dsimp only
  split
  · exact decided s
  · split
    · rw [decided]
      simp
    · simp
  · rfl

theorem makeDrop_net (s : State) : (makeDrop s).net = s.net := by
  unfold makeDrop
  dsimp only
  split
  · rfl
  · split
    · simp [takeRequest_net]
    · simp [takeRequest_net]

theorem takeHeldDrop_net (s : State) : (takeHeldDrop s).net = s.net := by
  unfold takeHeldDrop
  dsimp only
  split
  · split
    · rfl
    · exact makeDrop_net _
  · rfl

/-- An idle engine looks on and finds nothing of its own to do. -/
theorem advanceAll_idle (mode : s.engine.mode = .idle) : advanceAll s = takeHeldDrop s := by
  have quiet : advance s = (s, .nothing) := by simp only [advance, mode]
  rw [advanceAll_eq, quiet, followUp_rest]

/-! #### The restart sequence (R147, R148) -/

theorem restartRefusal_absent {n : Nat} (h : (cardAt s n).state = .absent) : restartRefusal s n = some (er .absent) := if_pos h

theorem restartRefusal_busy {n : Nat} (h : (cardAt s n).state = .restarting) : restartRefusal s n = some (er .busy) :=
  (if_neg (by simp [h])).trans (if_pos h)

theorem restartRefusal_engine {n : Nat} (h : (cardAt s n).state = .disabled ∨ (cardAt s n).state = .enabled)
    (mode : s.engine.mode ≠ .idle) : restartRefusal s n = some (erWith .busy (.word "ENGINE")) :=
  (if_neg (by rcases h with h | h <;> simp [h])).trans ((if_neg (by rcases h with h | h <;> simp [h])).trans (if_pos mode))

theorem restartRefusal_routes {n : Nat} (h : (cardAt s n).state = .disabled ∨ (cardAt s n).state = .enabled)
    (mode : s.engine.mode = .idle) : restartRefusal s n
      = (appliedWhere s fun r => claimsAny r (elemsOnCard s n)).map fun r => erWith .inuse (vnum r) :=
  (if_neg (by rcases h with h | h <;> simp [h])).trans
    ((if_neg (by rcases h with h | h <;> simp [h])).trans (if_neg (Classical.not_not.2 mode)))

theorem exec_restart_refused {plus : Bool} {n : Nat} {r : Reply} (taken : Takes (.cardRestart plus n) s u)
    (refused : restartRefusal u n = some r) : exec (.cardRestart plus n) s = .next (replied plus r u) := by
  refine (command_of_takes taken plus _).trans ?_
  simp only [refused]
  rfl

theorem exec_restart {plus : Bool} {n : Nat} (taken : Takes (.cardRestart plus n) s u) (passes : restartRefusal u n = none) :
    exec (.cardRestart plus n) s
      = .next (replied plus (ok [.bare (vnum n), .bare (.word "RESTARTING")]) (beginRestart n u)) := by
  refine (command_of_takes taken plus _).trans ?_
  simp only [passes]
  rfl

/-- A card's restart begun: it is RESTARTING, waits for its RESTART on the bus, and `!CARD` is sent (R147, R152). -/
def restartBegun (n : Nat) (u : State) : State := (setCard n { cardAt u n with
  state := .restarting, stateChg := true, restart := some .wantRestart } u).setLink (notify (.card n .restarting) u).link

theorem changeCard_restarting {n : Nat} (wf : tableWf s.cards = true) (before : (cardAt s n).state ≠ .restarting)
    (present : (cardAt s n).state ≠ .absent) (phase : s.phase ≠ .discovery) :
    let c := changeCard n .restarting s
    setCard n { cardAt c n with restart := some .wantRestart } c = restartBegun n s := by
  intro c
  have is : c = (setCard n { cardAt s n with state := .restarting, stateChg := true } s).setLink
      (notify (.card n .restarting) s).link :=
    (changeCard_flag before phase present (by simp)).trans (notify_eq _ rfl)
  have at_n : cardAt c n = { cardAt s n with state := .restarting, stateChg := true } := by
    rw [is]
    exact (cardAt_setCard wf n n { cardAt s n with state := .restarting, stateChg := true }).trans (if_pos rfl)
  rw [at_n, is]
  exact congrArg (fun v => State.setLink v (notify (.card n .restarting) s).link) (setCard_setCard wf n
    { cardAt s n with state := .restarting, stateChg := true }
    { cardAt s n with state := .restarting, stateChg := true, restart := some .wantRestart })

theorem beginRestart_eq {n : Nat} (wf : tableWf s.cards = true) (before : (cardAt s n).state ≠ .restarting)
    (present : (cardAt s n).state ≠ .absent) (phase : s.phase ≠ .discovery) : beginRestart n s
      = if cardEnabled s n then leaveEnabled n (restartBegun n s) else restartBegun n s := by
  unfold beginRestart
  dsimp only
  rw [changeCard_restarting wf before present phase]

theorem card_restartBegun (wf : tableWf s.cards = true) (n : Nat) : cardAt (restartBegun n s) n
    = { cardAt s n with state := .restarting, stateChg := true, restart := some .wantRestart } :=
  (cardAt_setCard wf n n { cardAt s n with
    state := .restarting, stateChg := true, restart := some .wantRestart }).trans (if_pos rfl)

/-- A card that leaves ENABLED under an idle engine and no applied route parks its elements, and nothing more of them
(R104). -/
theorem elemAt_leaveEnabled {n : Nat} (mode : s.engine.mode = .idle)
    (unused : appliedWhere s (fun x => claimsAny x (elemsOnCard s n)) = none) (e : Nat) : elemAt (leaveEnabled n s) e
      = (elemAt s e).map fun x => if x.card = n
          then { x with pos := positionOff ((s.engine.active.map fun d => d.elem).contains e) x } else x := by
  have still : inFlight s = false := by simp [inFlight, mode]
  have parked : (dropCardDrives n (setPulses n (fun _ => 0) s)).engine.mode = .idle := by rw [dropCardDrives_eq]; exact mode
  rw [leaveEnabled_still n still, ← routesWhere_claims, List.head?_eq_none_iff.1 unused]
  have untorn (v : State) : tearAll .card [] v = v := rfl
  rw [untorn, advanceAll_idle parked, elemAt, takeHeldDrop_net, ← elemAt, elemAt_dropCardDrives]
  rfl

/-! #### The restart's POLL (R147 step 5) -/

theorem changedCard_presence (new : CardState) (c : Card) (discovery : Bool) (before : c.state ≠ .absent) (after : new ≠ .absent) :
    (changedCard new discovery c).presenceChg = c.presenceChg
    ∧ (changedCard new discovery c).stateChg = if c.state = new ∨ discovery = true then c.stateChg else true := by
  unfold changedCard
  by_cases same : c.state = new
  · simp [same]
  · cases discovery <;> simp [same, before, after]

/-- A restart's answered POLL: the card with its last poll and coil fault written, changed to its new state (R147). -/
theorem restartPolled_answered {p : PollResult} (wf : tableWf s.cards = true) (n : Nat) (answered : p ≠ .silent) :
    restartPolled n p s = endRestart n (if p = .good then .enabled else .disabled)
      (setCard n { cardAt s n with last := some p, coilFault := decide (p ≠ .good) } s) := by
  have twice (b : Bool) : setCard n { cardAt (setLast n p s) n with coilFault := b } (setLast n p s)
      = setCard n { cardAt s n with last := some p, coilFault := b } s := by
    rw [cardAt_setLast wf]
    exact setCard_setCard wf n _ _
  cases p with
  | silent => exact absurd rfl answered
  | good => exact congrArg (endRestart n .enabled) (twice false)
  | bad => exact congrArg (endRestart n .disabled) (twice true)
  | oc => exact congrArg (endRestart n .disabled) (twice true)

theorem endRestart_rest (n : Nat) (new : CardState) (s : State) :
    endRestart n new s = (s.setCards (endRestart n new s).cards).setLink (endRestart n new s).link := by
  let c := changeCard n new s
  let x : Card := { cardAt c n with restart := none }
  have whole : endRestart n new s = (setCard n x c).setLink (endRestart n new s).link := opEnded_eq (.restart n) rfl
  have cards : (endRestart n new s).cards = (setCard n x c).cards := by rw [whole]; rfl
  rw [cards]
  exact whole.trans (congrArg (fun w => State.setLink (w.setCards (setCard n x c).cards) (endRestart n new s).link)
    (changeCard_rest n new s))

theorem endRestart_link (n : Nat) (new : CardState) (s : State) :
    (endRestart n new s).link = (opEnded (.restart n) (changeCard n new s)).link :=
  opEnded_link (.restart n) rfl

theorem changedCard_coil (new : CardState) (discovery : Bool) (c : Card) :
    (changedCard new discovery c).coilFault = c.coilFault := by
  unfold changedCard
  split
  · rfl
  · split <;> rfl

/-- A card's record with a restart's POLL written in. -/
def polledCard (p : PollResult) (c : Card) : Card := { c with last := some p, coilFault := decide (p ≠ .good) }

/-- What a restart's answered POLL leaves of its card, and on the link (R147, R152). -/
theorem restartPolled_card {p : PollResult} (wf : tableWf s.cards = true) (n : Nat) (answered : p ≠ .silent) :
    let v := restartPolled n p s
    let new : CardState := if p = .good then .enabled else .disabled
    cardAt v n = { changedCard new (s.phase == .discovery) (polledCard p (cardAt s n)) with restart := none }
    ∧ v.link = (opEnded (.restart n) (changeCard n new (setCard n (polledCard p (cardAt s n)) s))).link := by
  intro v new
  have wf' : tableWf (setCard n (polledCard p (cardAt s n)) s).cards = true := tableWf_bput _ _ _ wf
  have polled : cardAt (setCard n (polledCard p (cardAt s n)) s) n = polledCard p (cardAt s n) :=
    (cardAt_setCard wf n n _).trans (if_pos rfl)
  have is : v = endRestart n new (setCard n (polledCard p (cardAt s n)) s) := restartPolled_answered wf n answered
  rw [is]
  exact ⟨by rw [cardAt_endRestart wf' n n new, if_pos rfl, polled]; rfl, endRestart_link n new _⟩

/-- A restart's change of state: its flag and notice outside discovery, neither in it (R146, R152). -/
theorem restartPolled_told {p : PollResult} (wf : tableWf s.cards = true) (n : Nat) (answered : p ≠ .silent)
    (restarting : (cardAt s n).state = .restarting) : let v := restartPolled n p s
    (cardAt v n).presenceChg = (cardAt s n).presenceChg
    ∧ (s.phase = .discovery → (cardAt v n).stateChg = (cardAt s n).stateChg ∧ v.link = (opEnded (.restart n) s).link)
    ∧ (s.phase ≠ .discovery → (cardAt v n).stateChg = true
      ∧ v.link = (opEnded (.restart n) (notify (.card n (cardAt v n).state) s)).link) := by
  intro v
  obtain ⟨card, link⟩ := restartPolled_card wf n answered
  have polled : cardAt (setCard n (polledCard p (cardAt s n)) s) n = polledCard p (cardAt s n) :=
    (cardAt_setCard wf n n _).trans (if_pos rfl)
  let new : CardState := if p = .good then .enabled else .disabled
  have present : new ≠ .absent := by simp only [new]; split <;> simp
  have before : (polledCard p (cardAt s n)).state ≠ new := by
    simp only [new, polledCard, restarting]
    split <;> simp
  have away : (cardAt (setCard n (polledCard p (cardAt s n)) s) n).state ≠ new := by rw [polled]; exact before
  obtain ⟨presence, flag⟩ := changedCard_presence new (polledCard p (cardAt s n)) (s.phase == .discovery)
    (by simp [polledCard, restarting]) present
  have state : (cardAt v n).state = new := by rw [card]; exact changedCard_state new _ _
  rw [state, card, link]
  refine ⟨presence, fun discovery => ⟨flag.trans (if_pos (.inr (by simp [discovery]))), ?_⟩,
    fun other => ⟨flag.trans (if_neg (by simp [before, other])), ?_⟩⟩
  · refine opEnded_link (.restart n) ?_
    rw [changeCard_discovery away discovery]
    rfl
  · refine opEnded_link (.restart n) ?_
    rw [changeCard_link away other]
    exact notify_link rfl

theorem exec_restartAck (s : State) : exec .restartAck s = execRestartAck s := rfl
theorem exec_restartWaitExpiry (n : Nat) (s : State) : exec (.restartWaitExpiry n) s = execRestartWaitExpiry n s := rfl
theorem exec_restartPollAnswer (good oc : Bool) (s : State) :
    exec (.restartPollAnswer good oc) s = execRestartPollAnswer good oc s := rfl

/-- Settles O44. -/
theorem restartsRunTheirSequence : Obligations.RestartsRunTheirSequence := by
  intro plus n s u
  refine ⟨fun taken => ?_, fun tx => ?_, fun other => ?_, fun known waits => ?_, fun known other => ?_,
    fun good oc => ⟨fun other => ?_, fun tx => ?_⟩⟩
  · intro c
    refine ⟨fun absent => exec_restart_refused taken (restartRefusal_absent absent),
      fun busy => exec_restart_refused taken (restartRefusal_busy busy), fun usable =>
      ⟨fun mode => exec_restart_refused taken (restartRefusal_engine usable mode), fun mode => ⟨fun r used => ?_, fun unused => ?_⟩⟩⟩
    · exact exec_restart_refused taken (by rw [restartRefusal_routes usable mode, used]; rfl)
    · have passes : restartRefusal u n = none := by rw [restartRefusal_routes usable mode, unused]; rfl
      have phase : u.phase ≠ .discovery := by
        obtain ⟨is, -, running, -⟩ := lineFor_spec taken.1
        rw [is]
        simp [running]
      have before : (cardAt u n).state ≠ .restarting := by rcases usable with h | h <;> simp [h]
      have present : (cardAt u n).state ≠ .absent := by rcases usable with h | h <;> simp [h]
      refine ⟨beginRestart n u, exec_restart taken passes, fun wf => ?_, fun wf => ⟨fun disabled => ?_, fun enabled => ⟨?_, fun e x at_e => ?_⟩⟩⟩
      · have wf' : tableWf (restartBegun n u).cards = true :=
          tableWf_bput cardReset n { cardAt u n with state := .restarting, stateChg := true, restart := some .wantRestart } wf
        have begun := card_restartBegun wf n
        rw [beginRestart_eq wf before present phase]
        split
        · rw [cardAt_leaveEnabled wf', begun]
          exact ⟨rfl, rfl, rfl⟩
        · rw [begun]
          exact ⟨rfl, rfl, rfl⟩
      · rw [beginRestart_eq wf before present phase, if_neg (by simp [cardEnabled, disabled])]
        rfl
      · rw [beginRestart_eq wf before present phase, if_pos (by simp [cardEnabled, enabled])]
        rfl
      · rw [beginRestart_eq wf before present phase, if_pos (by simp [cardEnabled, enabled]),
          elemAt_leaveEnabled (s := restartBegun n u) mode unused, show elemAt (restartBegun n u) e = some x from at_e, Option.map_some]
        have moving : ((restartBegun n u).engine.active.map fun d => d.elem).contains e = u.engine.active.any fun d => d.elem == e := by
          rw [Bool.eq_iff_iff]
          simp [restartBegun]
        rw [moving]
        obtain ⟨kind⟩ := x
        cases kind <;> rfl
  · rw [exec_restartAck, execRestartAck, event_passes rfl]
    simp only [tx]
  · rw [exec_restartAck, execRestartAck, event_passes rfl]
    split
    case h_1 m is => exact absurd is (other m)
    case h_2 => rfl
  · rw [exec_restartWaitExpiry, execRestartWaitExpiry, event_passes (i := .restartWaitExpiry n) (if_pos (by simpa [within] using known)), if_pos waits]
  · rw [exec_restartWaitExpiry, execRestartWaitExpiry, event_passes (i := .restartWaitExpiry n) (if_pos (by simpa [within] using known)), if_neg other]
  · rw [exec_restartPollAnswer, execRestartPollAnswer, event_passes rfl]
    split
    case h_1 m is => exact absurd is (other m)
    case h_2 => rfl
  · let p := pollClass good oc
    have is : exec (.restartPollAnswer good oc) s = .next (settle (restartPolled n p (setTx none s))) := by
      rw [exec_restartPollAnswer, execRestartPollAnswer, event_passes rfl]
      simp only [tx]
      rfl
    refine ⟨restartPolled n p (setTx none s), is, by simp [setTx], by simp [setTx], by simp [setTx], by simp [setTx],
      fun wf => ?_⟩
    have answered : p ≠ .silent := pollClass_answered good oc
    have polled : p = if oc then .oc else if good then .good else .bad := rfl
    have wf : tableWf (setTx none s).cards = true := wf
    obtain ⟨card, -⟩ := restartPolled_card wf n answered
    refine ⟨by rw [card], ?_, fun fine cold => ?_, fun bad => ?_, fun restarting => ?_⟩
    · rw [card, ← polled]
      exact changedCard_last _ _ _
    · have is : p = .good := by rw [polled, cold, fine]; rfl
      rw [card, is]
      exact ⟨changedCard_state _ _ _, changedCard_coil _ _ _⟩
    · have is : p ≠ .good := by
        rw [polled]
        rcases bad with bad | bad <;> rw [bad]
        · cases oc <;> simp
        · simp
      rw [card]
      refine ⟨(changedCard_state _ _ _).trans (if_neg is), (changedCard_coil _ _ _).trans ?_⟩
      simp [polledCard, is]
    · obtain ⟨presence, discovery, other⟩ := restartPolled_told wf n answered restarting
      refine ⟨presence, fun phase => ⟨(discovery phase).1, (discovery phase).2.trans ?_⟩,
        fun phase => ⟨(other phase).1, (other phase).2.trans ?_⟩⟩
      · exact opEnded_link (.restart n) rfl
      · exact opEnded_link (.restart n) (notify_link rfl)

end Sys2Proof.StepLaws

/-! ### Fixtures: presence (O45) -/

namespace Sys2Proof.StepLaws

open Sys2Proof.Machine Sys2Proof.Laws

variable {s t u v w : State} {n : Nat} {f : Fixture}

/-! #### Changes of a fixture record (R158, R169, R170) -/

/-- A change of state, or a handoff, that stays on one side of EMPTY: the state-change flag and `!FIXT`. -/
theorem changeFixture_flag (changes : f.state ≠ (fixtureAt s n).state ∨ f.owner ≠ (fixtureAt s n).owner)
    (inside : f.state = (fixtureAt s n).state ∨ (fixtureAt s n).state ≠ .empty ∧ f.state ≠ .empty) :
    changeFixture n f s
      = (setFixture n { f with stateChg := true } s).setLink (notify (.fixt n f.state f.owner) s).link := by
  have presence : ((fixtureAt s n).state != f.state && ((fixtureAt s n).state == .empty || f.state == .empty)) = false := by
    rcases inside with same | ⟨before, after⟩
    · simp [same]
    · simp [before, after]
  have moved : ((fixtureAt s n).state != f.state || (fixtureAt s n).owner != f.owner) = true := by
    rcases changes with state | owner
    · simp [Ne.symm state]
    · simp [Ne.symm owner]
  unfold changeFixture
  simp only [presence, Bool.not_false, Bool.and_true, Bool.or_false, moved, Bool.or_true, if_true]
  exact notify_eq _ rfl

/-- A change of state into or out of EMPTY: the presence-change flag and `!FIXT`. -/
theorem changeFixture_presence (changes : f.state ≠ (fixtureAt s n).state)
    (through : (fixtureAt s n).state = .empty ∨ f.state = .empty) (owner : f.owner = (fixtureAt s n).owner) :
    changeFixture n f s
      = (setFixture n { f with presenceChg := true } s).setLink (notify (.fixt n f.state f.owner) s).link := by
  have moved : ((fixtureAt s n).state != f.state) = true := by simp [Ne.symm changes]
  have presence : ((fixtureAt s n).state == .empty || f.state == .empty) = true := by simpa using through
  have same : ((fixtureAt s n).owner != f.owner) = false := by simp [owner]
  unfold changeFixture
  simp only [moved, presence, same, Bool.and_true, Bool.true_and, Bool.not_true, Bool.or_false, Bool.or_true, if_true]
  exact notify_eq _ rfl

theorem notify_setFixtures (m : Notice) (c : Table Fixture) (s : State) :
    notify m (s.setFixtures c) = (s.setFixtures (notify m (s.setFixtures c)).fixtures).setLink (notify m (s.setFixtures c)).link := by
  have fixtures : (notify m (s.setFixtures c)).fixtures = c := by simp
  rw [fixtures]
  exact (notify_spec m _).1

theorem changeFixture_rest (n : Nat) (f : Fixture) (s : State) :
    changeFixture n f s = (s.setFixtures (changeFixture n f s).fixtures).setLink (changeFixture n f s).link := by
  unfold changeFixture
  dsimp only
  split
  · exact notify_setFixtures _ _ s
  · rfl

theorem fixtureAt_written (wf : tableWf s.fixtures = true) (n : Nat) (f : Fixture) (l : Link) :
    fixtureAt ((setFixture n f s).setLink l) n = f := (fixtureAt_setFixture wf n n f).trans (if_pos rfl)

/-! #### A fixture in use, and leaving ADMITTED (R158) -/

theorem endsOnFixture_iff (x : Route) (n : Nat) :
    endsOnFixture s x n = true ↔ portFixture s x.src = some n ∨ portFixture s x.dst = some n := by
  simp [endsOnFixture]

theorem appliedWhere_some (q : Route → Bool) :
    (appliedWhere s q).isSome = true ↔ ∃ r ∈ s.engine.applied, ∃ x, routeAt s r = some x ∧ q x = true := by
  rw [appliedWhere, List.isSome_head?, ← routesWhere_nonempty]
  simp

theorem fixtureInUse_iff (s : State) (n : Nat) : fixtureInUse s n = true
    ↔ (∃ r ∈ s.engine.applied, ∃ x, routeAt s r = some x ∧ (portFixture s x.src = some n ∨ portFixture s x.dst = some n))
      ∨ (inFlight s = true ∧ ∃ t, s.engine.trans = some t ∧ n ∈ t.fixtures) := by
  unfold fixtureInUse
  rw [Bool.or_eq_true, appliedWhere_some, Bool.and_eq_true]
  simp only [endsOnFixture_iff]
  cases s.engine.trans with
  | none => simp
  | some t => simp

theorem fixtureLeft_still (still : inFlight s = false) : fixtureLeft n s = tearAll .fixture
    (s.engine.applied.filter fun r => (routeAt s r).any fun x => endsOnFixture s x n) s := by
  rw [← routesWhere_any]
  exact if_neg (by simp [still])

theorem fixtureLeft_inFlight {r : Trans} (flight : inFlight s = true) (held : s.engine.trans = some r) :
    fixtureLeft n s = s.setEngine { s.engine with trans := some (noteFixture n r) } := by
  refine (if_pos flight).trans ?_
  rw [updTrans_eq, held]
  rfl

theorem noteFixture_first {r : Trans} (clear : r.firstFault = none) (ends : n ∈ r.fixtures) :
    noteFixture n r = { r with notedFixtures := r.notedFixtures ++ [n], firstFault := some .fixture } := by
  unfold noteFixture
  simp only [List.contains_iff_mem, ends, if_true, noteFirst, clear]

theorem noteFixture_later {r : Trans} (h : r.firstFault ≠ none ∨ n ∉ r.fixtures) :
    noteFixture n r = { r with notedFixtures := r.notedFixtures ++ [n], firstFault := r.firstFault } := by
  by_cases ends : n ∈ r.fixtures
  · obtain ⟨c, fault⟩ := Option.ne_none_iff_exists'.1 (h.resolve_right (Classical.not_not.2 ends))
    unfold noteFixture
    simp only [List.contains_iff_mem, ends, if_true, noteFirst, fault]
  · exact if_neg (by simpa using ends)

/-- The fault of a fixture pulled in use (R158, R185). -/
def pulledFault (n : Nat) (s : State) : FaultRec :=
  { plainFault .fixturePulled with
    number := if inFlight s then some s.engine.number else none
    torn := s.engine.applied.filter fun r => (routeAt s r).any fun x => endsOnFixture s x n }

/-- A fixture leaves ADMITTED: its record is written, a judged leaving in use is recorded, and the engine is told. -/
theorem leaveAdmitted_eq (n : Nat) (f : Fixture) (judged : Bool) (s : State) :
    let w := changeFixture n { f with identity := none } s
    leaveAdmitted n f judged s
      = fixtureLeft n (if judged = true ∧ fixtureInUse s n = true then recordFault (pulledFault n s) w else w) := by
  intro w
  have is : w = (s.setFixtures w.fixtures).setLink w.link := changeFixture_rest n { f with identity := none } s
  have used : fixtureInUse w n = fixtureInUse s n := by rw [is]; rfl
  have fault : { plainFault .fixturePulled with
      number := flightNumber w, torn := routesWhere w w.engine.applied fun r => endsOnFixture w r n } = pulledFault n s := by
    rw [routesWhere_any, is]
    rfl
  unfold leaveAdmitted
  dsimp only
  rw [show changeFixture n { f with identity := none } s = w from rfl, used, fault]
  exact congrArg (fixtureLeft n) (ite_congr (propext (by simp)) (fun _ => rfl) fun _ => rfl)

theorem leaveAdmitted_records (n : Nat) (f : Fixture) (judged : Bool) (unused : judged = false ∨ fixtureInUse s n = false) :
    (leaveAdmitted n f judged s).records = s.records := by
  rw [leaveAdmitted_eq, if_neg (by rcases unused with h | h <;> simp [h]), changeFixture_rest]
  simp

theorem leaveAdmitted_fault (n : Nat) (f : Fixture) (used : fixtureInUse s n = true) (clear : s.records.fault = none) :
    ∃ x, (leaveAdmitted n f true s).records.fault = some x ∧ x.cause = .fixturePulled ∧ x.elem = none := by
  have still : (changeFixture n { f with identity := none } s).records.fault = none := by
    rw [changeFixture_rest]
    exact clear
  rw [leaveAdmitted_eq, if_pos ⟨rfl, used⟩]
  have records (w : State) : (fixtureLeft n w).records = w.records := by simp
  rw [records, recordFault_fault, still]
  exact ⟨_, rfl, rfl, rfl⟩

theorem leaveAdmitted_fixtures (n : Nat) (f : Fixture) (judged : Bool) (s : State) :
    (leaveAdmitted n f judged s).fixtures = (changeFixture n { f with identity := none } s).fixtures := by
  rw [leaveAdmitted_eq]
  split <;> simp

/-! #### Presence (R159 to R161) -/

theorem exec_fixturePresent (known : n ≤ 7) (s : State) : exec (.fixturePresent n) s = .next (settle (foundPresent n s)) :=
  event_passes (i := .fixturePresent n) (if_pos (by simpa [within] using known)) _ s

theorem exec_fixtureAbsent (known : n ≤ 7) (s : State) : exec (.fixtureAbsent n) s = .next (settle (foundAbsent n s)) :=
  event_passes (i := .fixtureAbsent n) (if_pos (by simpa [within] using known)) _ s

theorem foundPresent_quiet (h : ¬((fixtureAt s n).counting = true ∧ (fixtureAt s n).fpres = true ∧ (fixtureAt s n).present = false)) :
    foundPresent n s = s := if_neg (by simpa [and_assoc] using h)

theorem foundAbsent_quiet (h : ¬((fixtureAt s n).counting = true ∧ (fixtureAt s n).fpres = false ∧ (fixtureAt s n).present = true)) :
    foundAbsent n s = s := if_neg (by simpa [and_assoc] using h)

theorem foundPresent_empty (counting : (fixtureAt s n).counting = true) (fpres : (fixtureAt s n).fpres = true)
    (absent : (fixtureAt s n).present = false) (empty : (fixtureAt s n).state = .empty) : foundPresent n s
      = (setFixture n { fixtureAt s n with present := true, counting := false, state := .present, presenceChg := true }
        s).setLink (notify (.fixt n .present (fixtureAt s n).owner) s).link := by
  refine (if_pos (by simp [counting, fpres, absent])).trans ?_
  rw [if_pos empty]
  exact changeFixture_presence (f := { fixtureAt s n with present := true, counting := false, state := .present })
    (by simp [empty]) (.inl empty) rfl

/-- A fixture found absent: a leaving of ADMITTED, or an admission abandoned, or the record alone (R161). -/
theorem foundAbsent_eq (counting : (fixtureAt s n).counting = true) (fpres : (fixtureAt s n).fpres = false)
    (present : (fixtureAt s n).present = true) :
    let g := absentRecord (fixtureAt s n)
    ((fixtureAt s n).state = .admitted → foundAbsent n s = leaveAdmitted n g true s)
    ∧ ((fixtureAt s n).state = .admitting → foundAbsent n s = opEnded (.admission n) (changeFixture n g s))
    ∧ ((fixtureAt s n).state = .present ∨ (fixtureAt s n).state = .faulted → foundAbsent n s = changeFixture n g s) := by
  intro g
  unfold foundAbsent
  dsimp only
  rw [if_pos (by simp [counting, fpres, present])]
  refine ⟨fun is => ?_, fun is => ?_, fun is => ?_⟩
  · simp only [is]
    rfl
  · simp only [is]
    rfl
  · rcases is with is | is <;> simp only [is] <;> rfl

/-- The record of a fixture found absent, as it leaves ADMITTED with its identity gone or keeps it (R161, R170). -/
def goneRecord (f : Fixture) : Fixture :=
  { absentRecord f with presenceChg := true, identity := if f.state = .admitted then none else f.identity }

theorem changeFixture_absent (g : Fixture) (out : g.state = .empty) (owner : g.owner = (fixtureAt s n).owner)
    (defined : (fixtureAt s n).state ≠ .empty) : changeFixture n g s
      = (setFixture n { g with presenceChg := true } s).setLink (notify (.fixt n .empty (fixtureAt s n).owner) s).link := by
  have told : (notify (.fixt n .empty (fixtureAt s n).owner) s).link = (notify (.fixt n g.state g.owner) s).link := by
    rw [out, owner]
  rw [told]
  exact changeFixture_presence (by rw [out]; exact Ne.symm defined) (.inr out) owner

theorem fixtureAt_foundAbsent (wf : tableWf s.fixtures = true) (counting : (fixtureAt s n).counting = true)
    (fpres : (fixtureAt s n).fpres = false) (present : (fixtureAt s n).present = true) (defined : (fixtureAt s n).state ≠ .empty) :
    fixtureAt (foundAbsent n s) n = goneRecord (fixtureAt s n) := by
  obtain ⟨admitted, admitting, other⟩ := foundAbsent_eq counting fpres present
  have kept (away : (fixtureAt s n).state ≠ .admitted) :
      fixtureAt (changeFixture n (absentRecord (fixtureAt s n)) s) n = goneRecord (fixtureAt s n) := by
    rw [changeFixture_absent (absentRecord (fixtureAt s n)) rfl rfl defined, fixtureAt_written wf, goneRecord, if_neg away]
    rfl
  cases is : (fixtureAt s n).state with
  | empty => exact absurd is defined
  | present => rw [other (.inl is), kept (by simp [is])]
  | faulted => rw [other (.inr is), kept (by simp [is])]
  | admitting =>
    rw [admitting is, opEnded_spec]
    exact kept (by simp [is])
  | admitted =>
    rw [admitted is, fixtureAt, leaveAdmitted_fixtures, ← fixtureAt,
      changeFixture_absent { absentRecord (fixtureAt s n) with identity := none } rfl rfl defined, fixtureAt_written wf,
      goneRecord, if_pos is]

/-- Settles O45. -/
theorem presenceMovesTheFixture : Obligations.PresenceMovesTheFixture := by
  refine ⟨fun s n => ⟨fixtureInUse_iff s n, fixtureLeft_still, fun t flight held => ⟨fun clear ends => ?_, fun h => ?_⟩⟩,
    fun s n known => ⟨fun b => ?_, fun quiet => ?_, fun counting fpres absent empty => ?_, fun quiet => ?_,
      fun counting fpres present wf defined => ?_⟩⟩
  · rw [fixtureLeft_inFlight flight held, noteFixture_first clear ends]
  · rw [fixtureLeft_inFlight flight held, noteFixture_later h]
  · exact event_passes (i := .fpresChange n b) (if_pos (by simpa [within] using known)) _ s
  · rw [exec_fixturePresent known, foundPresent_quiet quiet]
  · exact ⟨_, exec_fixturePresent known s, foundPresent_empty counting fpres absent empty⟩
  · rw [exec_fixtureAbsent known, foundAbsent_quiet quiet]
  · obtain ⟨admitted, admitting, other⟩ := foundAbsent_eq counting fpres present
    have record := fixtureAt_foundAbsent wf counting fpres present defined
    have kept := changeFixture_absent (absentRecord (fixtureAt s n)) rfl rfl defined
    refine ⟨foundAbsent n s, exec_fixtureAbsent known s, by rw [record]; rfl, by rw [record]; rfl, by rw [record]; rfl,
      by rw [record]; rfl, by rw [record]; rfl, by rw [record]; rfl, by rw [fixturePower, record]; rfl, fun is => ?_,
      fun is => ⟨?_, fun used clear => ?_, fun unused => ?_⟩, fun away => ?_, fun is => ?_, fun is => ?_⟩
    · intro gone
      have left : changeFixture n { absentRecord (fixtureAt s n) with identity := none } s = gone :=
        changeFixture_absent { absentRecord (fixtureAt s n) with identity := none } rfl rfl defined
      rw [admitted is, leaveAdmitted_eq, left]
      exact ⟨fun unused => by rw [if_neg (by simp [unused])], fun used => by rw [if_pos ⟨rfl, used⟩]; rfl⟩
    · rw [record]
      exact if_pos is
    · rw [admitted is]
      exact leaveAdmitted_fault n _ used clear
    · rw [admitted is]
      exact leaveAdmitted_records n _ true (.inr unused)
    · cases is : (fixtureAt s n).state with
      | empty => exact absurd is defined
      | admitted => exact absurd is away
      | present =>
        rw [other (.inl is), kept]
        exact ⟨rfl, rfl, rfl⟩
      | faulted =>
        rw [other (.inr is), kept]
        exact ⟨rfl, rfl, rfl⟩
      | admitting =>
        rw [admitting is, kept, opEnded_spec]
        exact ⟨rfl, rfl, rfl⟩
    · rw [other is, kept]
      rfl
    · rw [admitting is, kept]
      rfl

end Sys2Proof.StepLaws

/-! ### Fixtures: admission, supply and owners (O46, O47) -/

namespace Sys2Proof.StepLaws

open Sys2Proof.Machine Sys2Proof.Laws

variable {s t u v w : State} {n : Nat} {f : Fixture}

/-! #### The identity record (R164) -/

theorem checkByte_iff (b0 b1 b2 b3 : Byte) :
    b3 = checkByte b0 b1 b2 ↔ b3.toNat = (256 - (b0.toNat + b1.toNat + b2.toNat) % 256) % 256 := by
  unfold checkByte
  rw [BitVec.toNat_eq]
  have zero : (0 : Byte).toNat = 0 := rfl
  simp only [BitVec.toNat_sub, BitVec.toNat_add, zero]
  omega

theorem judgeIdentity_iff (b0 b1 b2 b3 : Byte) :
    let good := b3.toNat = (256 - (b0.toNat + b1.toNat + b2.toNat) % 256) % 256
    let coupler := b1.toNat * 256 + b2.toNat
    (judgeIdentity b0 b1 b2 b3 = .check ↔ ¬good)
    ∧ (judgeIdentity b0 b1 b2 b3 = .kind ↔ good ∧ b0.toNat = 0)
    ∧ (judgeIdentity b0 b1 b2 b3 = .range ↔ good ∧ b0.toNat ≠ 0 ∧ 6000 < coupler)
    ∧ (judgeIdentity b0 b1 b2 b3 = .ok ↔ good ∧ b0.toNat ≠ 0 ∧ coupler ≤ 6000) := by
  intro good coupler
  have check : b3 = checkByte b0 b1 b2 ↔ good := checkByte_iff b0 b1 b2 b3
  have zero : b0 = 0 ↔ b0.toNat = 0 := by rw [BitVec.toNat_eq]; rfl
  unfold judgeIdentity
  by_cases sound : good
  · rw [if_neg (Classical.not_not.2 (check.2 sound))]
    by_cases kind : b0.toNat = 0
    · rw [if_pos (zero.2 kind)]
      simp [sound, kind]
    · rw [if_neg (mt zero.1 kind)]
      by_cases range : couplerOf b1 b2 > 6000
      · rw [if_pos range]
        have range : 6000 < coupler := range
        simp [sound, kind, range]
      · rw [if_neg range]
        have range : coupler ≤ 6000 := Nat.not_lt.1 range
        simp [sound, kind, range]
  · rw [if_pos (mt check.1 sound)]
    simp [sound]

/-! #### Ends of an admission (R163) -/

/-- The record of a fixture whose admission has ended. -/
def endedRecord (st : FixState) (r : AdmitResult) (id : Option (Nat × Nat)) (f : Fixture) : Fixture :=
  { f with state := st, stage := none, identity := id, last := some r, stateChg := true }

/-- An admission ended: its record written, `!FIXT` sent, and a SYNC released from it. -/
def admissionEnded (n : Nat) (st : FixState) (r : AdmitResult) (id : Option (Nat × Nat)) (s : State) : State :=
  opEnded (.admission n) ((setFixture n (endedRecord st r id (fixtureAt s n)) s).setLink
    (notify (.fixt n st (fixtureAt s n).owner) s).link)

theorem failAdmission_eq (admitting : (fixtureAt s n).state = .admitting) (r : AdmitResult) :
    failAdmission n r s = admissionEnded n .faulted r none s :=
  congrArg (opEnded (.admission n)) (changeFixture_flag (.inl (by simp [admitting])) (.inr ⟨by simp [admitting], by simp⟩))

theorem acceptIdentity_eq (admitting : (fixtureAt s n).state = .admitting) (b0 b1 b2 : Byte) : acceptIdentity n b0 b1 b2 s
    = admissionEnded n .admitted .ok (some (b0.toNat, b1.toNat * 256 + b2.toNat)) s :=
  congrArg (opEnded (.admission n)) (changeFixture_flag (.inl (by simp [admitting])) (.inr ⟨by simp [admitting], by simp⟩))

theorem fixtureAt_admissionEnded (wf : tableWf s.fixtures = true) (n : Nat) (st : FixState) (r : AdmitResult)
    (id : Option (Nat × Nat)) : fixtureAt (admissionEnded n st r id s) n = endedRecord st r id (fixtureAt s n) := by
  rw [admissionEnded, opEnded_spec]
  exact fixtureAt_written wf n _ _

theorem admissionEnded_rest (n : Nat) (st : FixState) (r : AdmitResult) (id : Option (Nat × Nat)) (s : State) :
    (admissionEnded n st r id s).records = s.records ∧ (admissionEnded n st r id s).fixtures
      = bput fixtureReset s.fixtures n (endedRecord st r id (fixtureAt s n)) := by
  rw [admissionEnded, opEnded_spec]
  exact ⟨rfl, rfl⟩

/-! #### Leaving ADMITTED, supply faults (R158, R166) -/

/-- A leaving of ADMITTED for a state that is neither ADMITTED nor EMPTY. -/
theorem changeFixture_left (admitted : (fixtureAt s n).state = .admitted) (away : f.state ≠ .admitted) (defined : f.state ≠ .empty) :
    changeFixture n { f with identity := none } s
      = (setFixture n { f with identity := none, stateChg := true } s).setLink (notify (.fixt n f.state f.owner) s).link :=
  changeFixture_flag (f := { f with identity := none }) (.inl (by rw [admitted]; exact away))
    (.inr ⟨by simp [admitted], defined⟩)

theorem fixtureAt_fixtureLeft (n m : Nat) (s : State) : fixtureAt (fixtureLeft n s) m = fixtureAt s m := by
  have fixtures : (fixtureLeft n s).fixtures = s.fixtures := by simp
  rw [fixtureAt, fixtures]
  rfl

theorem fixtureAt_leaveAdmitted (wf : tableWf s.fixtures = true) (admitted : (fixtureAt s n).state = .admitted)
    (away : f.state ≠ .admitted) (defined : f.state ≠ .empty) (judged : Bool) :
    fixtureAt (leaveAdmitted n f judged s) n = { f with identity := none, stateChg := true } := by
  rw [fixtureAt, leaveAdmitted_fixtures, ← fixtureAt, changeFixture_left admitted away defined, fixtureAt_written wf]

/-- A leaving of ADMITTED that is not judged: a handoff, or a new admission. -/
theorem leaveAdmitted_unjudged (admitted : (fixtureAt s n).state = .admitted) (away : f.state ≠ .admitted) (defined : f.state ≠ .empty) :
    leaveAdmitted n f false s = fixtureLeft n ((setFixture n { f with identity := none, stateChg := true } s).setLink
      (notify (.fixt n f.state f.owner) s).link) := by
  rw [leaveAdmitted_eq, if_neg (by simp), changeFixture_left admitted away defined]

/-- The record of a fixture with a supply fault (R166). -/
def suppliedRecord (f : Fixture) : Fixture :=
  { f with state := .faulted, identity := none, last := some .supply, stateChg := true }

theorem supplyFault_eq (admitted : (fixtureAt s n).state = .admitted) :
    let faulted := (setFixture n (suppliedRecord (fixtureAt s n)) s).setLink
      (notify (.fixt n .faulted (fixtureAt s n).owner) s).link
    supplyFault n s = fixtureLeft n
      (if fixtureInUse s n = true then recordFault (pulledFault n s) faulted else faulted) := by
  intro faulted
  have left : changeFixture n { fixtureAt s n with state := .faulted, last := some .supply, identity := none } s = faulted :=
    changeFixture_left (f := { fixtureAt s n with state := .faulted, last := some .supply }) admitted (by simp) (by simp)
  rw [supplyFault, leaveAdmitted_eq, left]
  exact congrArg (fixtureLeft n) (ite_congr (propext (by simp)) (fun _ => rfl) fun _ => rfl)

theorem fixtureAt_supplyFault (wf : tableWf s.fixtures = true) (admitted : (fixtureAt s n).state = .admitted) :
    fixtureAt (supplyFault n s) n = suppliedRecord (fixtureAt s n) :=
  fixtureAt_leaveAdmitted (f := { fixtureAt s n with state := .faulted, last := some .supply }) wf admitted (by simp) (by simp) true

theorem watchSupply_quiet (h : ¬((fixtureAt s n).state = .admitted ∧ (fixtureAt s n).fflt = true)) : watchSupply n s = s := if_neg h

theorem watchSupply_fault (admitted : (fixtureAt s n).state = .admitted) (fflt : (fixtureAt s n).fflt = true) :
    watchSupply n s = supplyFault n s := if_pos ⟨admitted, fflt⟩

/-! #### ADMIT and its events -/

theorem admitRefusal_empty (h : (fixtureAt s n).state = .empty) : admitRefusal s n = some (er .absent) := if_pos h

theorem admitRefusal_bench (h : (fixtureAt s n).state ≠ .empty) (owner : (fixtureAt s n).owner = .bench) :
    admitRefusal s n = some (er .unavail) := (if_neg h).trans (if_pos owner)

theorem admitRefusal_busy (h : (fixtureAt s n).state = .admitting) (owner : (fixtureAt s n).owner = .localOwner) :
    admitRefusal s n = some (er .busy) :=
  (if_neg (by simp [h])).trans ((if_neg (by simp [owner])).trans (if_pos h))

theorem admitRefusal_routes (h : (fixtureAt s n).state = .present ∨ (fixtureAt s n).state = .faulted ∨ (fixtureAt s n).state = .admitted)
    (owner : (fixtureAt s n).owner = .localOwner) : admitRefusal s n
      = (appliedWhere s fun r => endsOnFixture s r n).map fun r => erWith .inuse (vnum r) :=
  (if_neg (by rcases h with h | h | h <;> simp [h])).trans ((if_neg (by simp [owner])).trans
    (if_neg (by rcases h with h | h | h <;> simp [h])))

theorem exec_admit_refused {plus : Bool} {r : Reply} (taken : Takes (.admitFixture plus n) s u)
    (refused : admitRefusal u n = some r) : exec (.admitFixture plus n) s = .next (replied plus r u) := by
  refine (command_of_takes taken plus _).trans ?_
  simp only [refused]
  rfl

theorem exec_admit {plus : Bool} (taken : Takes (.admitFixture plus n) s u) (passes : admitRefusal u n = none) :
    exec (.admitFixture plus n) s
      = .next (replied plus (ok [.bare (vnum n), .bare (.word "ADMITTING")]) (beginAdmission n u)) := by
  refine (command_of_takes taken plus _).trans ?_
  simp only [passes]
  rfl

/-- The record of a fixture whose admission begins (R163 step 1). -/
def admittingRecord (wait : Nat) (f : Fixture) : Fixture :=
  { f with state := .admitting, stage := some (.wait wait), identity := none, stateChg := true }

theorem beginAdmission_eq (s : State) (n : Nat)
    (h : (fixtureAt s n).state = .present ∨ (fixtureAt s n).state = .faulted ∨ (fixtureAt s n).state = .admitted) :
    let begun := (setFixture n (admittingRecord s.site.admitWait (fixtureAt s n)) s).setLink
      (notify (.fixt n .admitting (fixtureAt s n).owner) s).link
    ((fixtureAt s n).state ≠ .admitted → beginAdmission n s = begun)
    ∧ ((fixtureAt s n).state = .admitted → beginAdmission n s = fixtureLeft n begun) := by
  refine ⟨fun away => (if_neg away).trans ?_, fun admitted => (if_pos admitted).trans ?_⟩
  · exact changeFixture_flag (f := { fixtureAt s n with
      state := .admitting, stage := some (.wait s.site.admitWait), identity := none })
      (.inl (by rcases h with h | h | h <;> simp [h])) (.inr ⟨by rcases h with h | h | h <;> simp [h], by simp⟩)
  · exact leaveAdmitted_unjudged (f := { fixtureAt s n with
      state := .admitting, stage := some (.wait s.site.admitWait), identity := none }) admitted (by simp) (by simp)

theorem exec_admitWaitExpiry (known : n ≤ 7) (s : State) : exec (.admitWaitExpiry n) s = .next (settle (admitWaitEnds n s)) :=
  event_passes (i := .admitWaitExpiry n) (if_pos (by simpa [within] using known)) _ s

theorem exec_identityReadTimeout (known : n ≤ 7) (s : State) : exec (.identityReadTimeout n) s
    = .next (settle (if (fixtureAt s n).stage = some .reading then failAdmission n .noid s else s)) :=
  event_passes (i := .identityReadTimeout n) (if_pos (by simpa [within] using known)) _ s

theorem exec_identityRecord (known : n ≤ 7) (b0 b1 b2 b3 : Byte) (s : State) :
    exec (.identityRecord n b0 b1 b2 b3) s = .next (settle (identityRead n b0 b1 b2 b3 s)) :=
  event_passes (i := .identityRecord n b0 b1 b2 b3) (if_pos (by simpa [within] using known)) _ s

theorem admitWaitEnds_quiet (h : ∀ ms, (fixtureAt s n).stage ≠ some (.wait ms)) : admitWaitEnds n s = s := by
  unfold admitWaitEnds
  dsimp only
  split
  case h_1 ms is => exact absurd is (h ms)
  case h_2 => rfl

theorem admitWaitEnds_eq {ms : Nat} (h : (fixtureAt s n).stage = some (.wait ms)) : admitWaitEnds n s
    = if (fixtureAt s n).fflt then failAdmission n .supply s else setFixture n { fixtureAt s n with stage := some .reading } s := by
  simp only [admitWaitEnds, h]

theorem identityRead_judged (b0 b1 b2 b3 : Byte) (reading : (fixtureAt s n).stage = some .reading) :
    (judgeIdentity b0 b1 b2 b3 = .ok → identityRead n b0 b1 b2 b3 s = watchSupply n (acceptIdentity n b0 b1 b2 s))
    ∧ (judgeIdentity b0 b1 b2 b3 ≠ .ok → identityRead n b0 b1 b2 b3 s = failAdmission n (judgeIdentity b0 b1 b2 b3) s) := by
  unfold identityRead
  rw [if_pos reading]
  refine ⟨fun good => ?_, fun bad => ?_⟩
  · simp only [good]
  · split
    · contradiction
    · rfl

/-- Settles O46. -/
theorem admissionsRunTheirSequence : Obligations.AdmissionsRunTheirSequence := by
  refine ⟨fun plus n s u wf => ?_, fun b0 b1 b2 b3 => ?_, by decide⟩
  · intro f c ended
    refine ⟨fun taken => ?_, fun known => ?_⟩
    · obtain ⟨is, -⟩ := lineFor_spec taken.1
      have fixtures : u.fixtures = s.fixtures := by rw [is]; rfl
      have same : fixtureAt u n = f := by rw [fixtureAt, fixtures]; rfl
      have wf : tableWf u.fixtures = true := by rw [fixtures]; exact wf
      rw [← same]
      refine ⟨fun h => exec_admit_refused taken (admitRefusal_empty h), fun h o => exec_admit_refused taken (admitRefusal_bench h o),
        fun h o => exec_admit_refused taken (admitRefusal_busy h o), fun h o => ⟨fun r used => ?_, fun unused => ?_⟩⟩
      · exact exec_admit_refused taken (by rw [admitRefusal_routes h o, used]; rfl)
      · obtain ⟨other, admitted⟩ := beginAdmission_eq u n h
        refine ⟨beginAdmission n u, exec_admit taken (by rw [admitRefusal_routes h o, unused]; rfl), ?_, other, admitted⟩
        by_cases is : (fixtureAt u n).state = .admitted
        · rw [admitted is]
          rw [fixtureAt_fixtureLeft]
          exact fixtureAt_written wf n _ _
        · rw [other is]
          exact fixtureAt_written wf n _ _
    · have result (st : FixState) (r : AdmitResult) (id : Option (Nat × Nat)) : ended st r id = admissionEnded n st r id s := rfl
      have written (st : FixState) (r : AdmitResult) (id : Option (Nat × Nat)) :
          (ended st r id).records = s.records ∧ fixtureAt (ended st r id) n = endedRecord st r id f :=
        ⟨(admissionEnded_rest n st r id s).1, fixtureAt_admissionEnded wf n st r id⟩
      refine ⟨fun quiet => ?_, fun ms waits clear => ?_, fun ms waits fflt admitting => ?_, fun other => ⟨?_, fun b0 b1 b2 b3 => ?_⟩,
        fun reading admitting => ⟨?_, fun b0 b1 b2 b3 => ⟨fun bad => ?_, fun good fflt => ?_, fun good clear => ?_⟩⟩⟩
      · rw [exec_admitWaitExpiry known, admitWaitEnds_quiet quiet]
      · rw [exec_admitWaitExpiry known, admitWaitEnds_eq waits, if_neg (by simp [f] at clear; simp [clear])]
      · refine ⟨_, exec_admitWaitExpiry known s, ?_⟩
        rw [admitWaitEnds_eq waits, if_pos fflt, failAdmission_eq admitting]
        exact ⟨rfl, written .faulted .supply none⟩
      · rw [exec_identityReadTimeout known, if_neg other]
      · rw [exec_identityRecord known, identityRead, if_neg other]
      · refine ⟨_, exec_identityReadTimeout known s, ?_⟩
        rw [if_pos reading, failAdmission_eq admitting]
        exact ⟨rfl, written .faulted .noid none⟩
      · refine ⟨_, exec_identityRecord known b0 b1 b2 b3 s, ?_⟩
        rw [(identityRead_judged b0 b1 b2 b3 reading).2 bad, failAdmission_eq admitting]
        exact ⟨rfl, written .faulted _ none⟩
      · refine ⟨_, exec_identityRecord known b0 b1 b2 b3 s, ?_⟩
        have at_n := fixtureAt_admissionEnded wf n .admitted .ok (some (b0.toNat, b1.toNat * 256 + b2.toNat))
        have wf' : tableWf (admissionEnded n .admitted .ok (some (b0.toNat, b1.toNat * 256 + b2.toNat)) s).fixtures = true := by
          rw [(admissionEnded_rest _ _ _ _ _).2]
          exact tableWf_bput _ _ _ wf
        have admitted : (fixtureAt (admissionEnded n .admitted .ok (some (b0.toNat, b1.toNat * 256 + b2.toNat)) s) n).state
            = .admitted := by rw [at_n]; rfl
        rw [(identityRead_judged b0 b1 b2 b3 reading).1 good, acceptIdentity_eq admitting,
          watchSupply_fault admitted (by rw [at_n]; exact fflt)]
        refine ⟨rfl, ?_⟩
        rw [fixtureAt_supplyFault wf' admitted, at_n]
        rfl
      · refine ⟨_, exec_identityRecord known b0 b1 b2 b3 s, ?_⟩
        have at_n := fixtureAt_admissionEnded wf n .admitted .ok (some (b0.toNat, b1.toNat * 256 + b2.toNat))
        rw [(identityRead_judged b0 b1 b2 b3 reading).1 good, acceptIdentity_eq admitting, watchSupply_quiet]
        · exact ⟨rfl, written .admitted .ok _⟩
        · rw [at_n]
          simp [endedRecord, f] at clear ⊢
          exact clear
  · intro good coupler
    obtain ⟨check, kind, range, ok⟩ := judgeIdentity_iff b0 b1 b2 b3
    refine ⟨check, kind, range, ok, ?_⟩
    have := b3.isLt
    simp only [good]
    omega

/-! #### FFLT and owners (R166 to R168) -/

theorem exec_ffltAsserted (known : n ≤ 7) (s : State) : exec (.ffltAsserted n) s
    = .next (settle (watchSupply n (setFixture n { fixtureAt s n with fflt := true } s))) := by
  have is : exec (.ffltAsserted n) s = execFfltAsserted n s := rfl
  rw [is, execFfltAsserted, event_passes (i := .ffltAsserted n) (if_pos (by simpa [within] using known))]

theorem exec_ffltDeasserted (known : n ≤ 7) (s : State) : exec (.ffltDeasserted n) s
    = .next (settle (setFixture n { fixtureAt s n with fflt := false } s)) :=
  event_passes (i := .ffltDeasserted n) (if_pos (by simpa [within] using known)) _ s

theorem exec_ownerBench_refused {plus : Bool} {r : Nat} (taken : Takes (.ownerBench plus n) s u)
    (used : appliedOnFixture u n = some r) : exec (.ownerBench plus n) s = .next (replied plus (erWith .inuse (vnum r)) u) := by
  refine (command_of_takes taken plus _).trans ?_
  simp only [used]
  rfl

theorem exec_ownerBench {plus : Bool} (taken : Takes (.ownerBench plus n) s u) (unused : appliedOnFixture u n = none) :
    exec (.ownerBench plus n) s = .next (replied plus (ok [.bare (vnum n), .bare (.word "BENCH")])
      (if (fixtureAt u n).owner = .bench then u else toBench n u)) := by
  refine (command_of_takes taken plus _).trans ?_
  simp only [unused]
  rfl

/-- The record of a fixture handed to the bench: what it held is given up (R167). -/
def benchRecord (f : Fixture) : Fixture :=
  if f.state = .empty then { f with owner := .bench, stateChg := true }
  else { f with
    owner := .bench, state := .present, stage := none, stateChg := true
    identity := if f.state = .admitted then none else f.identity }

theorem toBench_empty (is : (fixtureAt s n).state = .empty) :
    toBench n s = changeFixture n { fixtureAt s n with owner := .bench } s := by
  unfold toBench
  dsimp only
  split
  case h_1 => rfl
  all_goals rename_i other; rw [is] at other; contradiction

/-- The handoff of a LOCAL fixture, by its state (R167). -/
theorem toBench_eq (owner : (fixtureAt s n).owner = .localOwner) :
    let kept := (setFixture n { fixtureAt s n with owner := .bench, state := .present, stage := none, stateChg := true }
      s).setLink (notify (.fixt n .present .bench) s).link
    ((fixtureAt s n).state = .empty → toBench n s
      = (setFixture n { fixtureAt s n with owner := .bench, stateChg := true } s).setLink (notify (.fixt n .empty .bench) s).link)
    ∧ ((fixtureAt s n).state = .present ∨ (fixtureAt s n).state = .faulted → toBench n s = kept)
    ∧ ((fixtureAt s n).state = .admitting → toBench n s = opEnded (.admission n) kept)
    ∧ ((fixtureAt s n).state = .admitted → toBench n s = leaveAdmitted n
        { fixtureAt s n with owner := .bench, state := .present, stage := none } false s) := by
  intro kept
  have handed (defined : (fixtureAt s n).state ≠ .empty) :
      changeFixture n { fixtureAt s n with owner := .bench, state := .present, stage := none } s = kept :=
    changeFixture_flag (.inr (by simp [owner])) (.inr ⟨defined, by simp⟩)
  refine ⟨fun is => ?_, fun is => ?_, fun is => ?_, fun is => ?_⟩
  · have told : (notify (.fixt n .empty .bench) s).link = (notify (.fixt n (fixtureAt s n).state .bench) s).link := by rw [is]
    rw [told, toBench_empty is]
    exact changeFixture_flag (f := { fixtureAt s n with owner := .bench }) (.inr (by simp [owner])) (.inl rfl)
  · rw [← handed (by rcases is with is | is <;> simp [is])]
    rcases is with is | is <;> simp only [toBench, is]
  · rw [← handed (by simp [is])]
    simp only [toBench, is]
  · simp only [toBench, is]

theorem fixtureAt_toBench (wf : tableWf s.fixtures = true) (owner : (fixtureAt s n).owner = .localOwner) :
    fixtureAt (toBench n s) n = benchRecord (fixtureAt s n) := by
  obtain ⟨empty, other, admitting, admitted⟩ := toBench_eq owner
  cases is : (fixtureAt s n).state with
  | empty => rw [empty is, fixtureAt_written wf, benchRecord, if_pos is]
  | present => rw [other (.inl is), fixtureAt_written wf, benchRecord, if_neg (by simp [is]), if_neg (by simp [is])]
  | faulted => rw [other (.inr is), fixtureAt_written wf, benchRecord, if_neg (by simp [is]), if_neg (by simp [is])]
  | admitting =>
    rw [admitting is, opEnded_spec, benchRecord, if_neg (by simp [is]), if_neg (by simp [is])]
    exact fixtureAt_written wf n { fixtureAt s n with owner := .bench, state := .present, stage := none, stateChg := true } _
  | admitted =>
    rw [admitted is, fixtureAt_leaveAdmitted wf is (by simp) (by simp), benchRecord, if_neg (by simp [is]), if_pos is]

theorem toBench_records (owner : (fixtureAt s n).owner = .localOwner) : (toBench n s).records = s.records := by
  obtain ⟨empty, other, admitting, admitted⟩ := toBench_eq owner
  cases is : (fixtureAt s n).state with
  | empty => rw [empty is]; rfl
  | present => rw [other (.inl is)]; rfl
  | faulted => rw [other (.inr is)]; rfl
  | admitting => rw [admitting is, opEnded_spec]; rfl
  | admitted => rw [admitted is, leaveAdmitted_records _ _ _ (.inl rfl)]

/-- Settles O47. -/
theorem supplyAndOwnerChangeTheFixture : Obligations.SupplyAndOwnerChangeTheFixture := by
  intro plus n s u wf f
  refine ⟨fun admitted => ?_, fun known => ⟨?_, fun away => ?_, fun admitted => ?_⟩, fun taken => ?_, fun taken => ?_⟩
  · intro faulted
    rw [supplyFault_eq admitted]
    exact ⟨fun unused => by rw [if_neg (by simp [unused])]; rfl, fun used => by rw [if_pos used]; rfl⟩
  · exact exec_ffltDeasserted known s
  · have at_n := (fixtureAt_setFixture wf n n { f with fflt := true }).trans (if_pos rfl)
    rw [exec_ffltAsserted known, watchSupply_quiet]
    rw [at_n]
    exact fun both => away both.1
  · have at_n := (fixtureAt_setFixture wf n n { f with fflt := true }).trans (if_pos rfl)
    have wf' : tableWf (setFixture n { f with fflt := true } s).fixtures = true := tableWf_bput _ _ _ wf
    have admitted' : (fixtureAt (setFixture n { f with fflt := true } s) n).state = .admitted := by rw [at_n]; exact admitted
    refine ⟨_, exec_ffltAsserted known s, watchSupply_fault admitted' (by rw [at_n]), ?_, fun used clear => ?_, fun unused => ?_⟩ <;>
      rw [watchSupply_fault admitted' (by rw [at_n])]
    · rw [fixtureAt_supplyFault wf' admitted', at_n]
      rfl
    · obtain ⟨x, filed, cause, -⟩ := leaveAdmitted_fault (s := setFixture n { f with fflt := true } s) n _ used clear
      exact ⟨x, filed, cause⟩
    · exact leaveAdmitted_records n _ true (.inr unused)
  · obtain ⟨is, -⟩ := lineFor_spec taken.1
    have fixtures : u.fixtures = s.fixtures := by rw [is]; rfl
    have same : fixtureAt u n = f := by rw [fixtureAt, fixtures]; rfl
    have wf : tableWf u.fixtures = true := by rw [fixtures]; exact wf
    rw [← same]
    intro c okBench
    refine ⟨fun r used => exec_ownerBench_refused taken used, fun unused => ⟨fun owner => ?_, fun owner => ?_⟩⟩
    · rw [exec_ownerBench taken unused, if_pos owner]
    · obtain ⟨empty, other, admitting, admitted⟩ := toBench_eq owner
      have record := fixtureAt_toBench wf owner
      have away : ¬(fixtureAt u n).owner = .bench := by simp [owner]
      refine ⟨toBench n u, by rw [exec_ownerBench taken unused, if_neg away], ?_, ?_, fun is => ?_, fun is => ?_, fun is => ?_, ?_, ?_,
        toBench_records owner, fun is => ?_, ⟨other, admitting⟩, empty, fun is => ?_⟩
      · rw [record, benchRecord]
        split <;> rfl
      · rw [record, benchRecord]
        split <;> rfl
      · rw [record, benchRecord, if_pos is]
        exact is
      · rw [record, benchRecord, if_neg is]
        exact ⟨rfl, rfl⟩
      · rw [record, benchRecord, if_neg (by simp [is]), if_pos is]
      · rw [record, benchRecord]
        split <;> rfl
      · rw [fixturePower, record, benchRecord]
        split
        · rename_i is
          simp [is]
        · rfl
      · rw [admitted is]
        exact leaveAdmitted_unjudged is (by simp) (by simp)
      · cases state : (fixtureAt u n).state with
        | admitted => exact absurd state is
        | empty => rw [empty state]; exact ⟨rfl, rfl, rfl⟩
        | present => rw [other (.inl state)]; exact ⟨rfl, rfl, rfl⟩
        | faulted => rw [other (.inr state)]; exact ⟨rfl, rfl, rfl⟩
        | admitting => rw [admitting state, opEnded_spec]; exact ⟨rfl, rfl, rfl⟩
  · obtain ⟨is, -⟩ := lineFor_spec taken.1
    have fixtures : u.fixtures = s.fixtures := by rw [is]; rfl
    have same : fixtureAt u n = f := by rw [fixtureAt, fixtures]; rfl
    rw [← same]
    refine ⟨fun owner => (command_of_takes taken plus _).trans ?_, fun owner => (command_of_takes taken plus _).trans ?_⟩
    · rw [if_pos owner]
      rfl
    · rw [if_neg (by simp [owner])]
      exact congrArg (fun w => (.next (settle (answer plus (ok [.bare (vnum n), .bare (.word "LOCAL")]) w)) : Result))
        (changeFixture_flag (f := { fixtureAt u n with owner := .localOwner }) (.inr (by simp [owner])) (.inl rfl))

end Sys2Proof.StepLaws

/-! ### Loops, the permit and the mute request (O48) -/

namespace Sys2Proof.StepLaws

open Sys2Proof.Machine Sys2Proof.Laws

variable {s t u v w : State} {n : Nat}

/-! #### Loops and CONFIRM (R173 to R176) -/

theorem permit_iff (s : State) :
    permit s = true ↔ ∀ n, 1 ≤ n → n ≤ 4 → (loopAt s n).closed = true ∧ (loopAt s n).confirmed = true := by
  unfold permit
  simp only [List.all_eq_true, Bool.and_eq_true]
  have listed (n : Nat) : n ∈ [1, 2, 3, 4] ↔ 1 ≤ n ∧ n ≤ 4 := by
    simp only [List.mem_cons, List.not_mem_nil, or_false]
    omega
  simp only [listed]
  exact ⟨fun h n low high => h n ⟨low, high⟩, fun h n both => h n both.1 both.2⟩

theorem loopAt_congr (h : t.loops = s.loops) (m : Nat) : loopAt t m = loopAt s m := by
  rw [loopAt, h]
  rfl

theorem loopAt_clearConfirmed (wf : tableWf s.loops = true) (m : Nat) :
    loopAt (clearConfirmed s) m = { loopAt s m with confirmed := false } :=
  bget_bmap loopReset (fun l => { l with confirmed := false }) rfl wf m

theorem exec_loopInputChange (low : 1 ≤ n) (high : n ≤ 4) (b : Bool) (s : State) :
    exec (.loopInputChange n b) s = .next (settle (loopInputAt n b s)) :=
  event_passes (i := .loopInputChange n b) (if_pos (by simp [within, low, high])) _ s

theorem exec_loopOpened (low : 1 ≤ n) (high : n ≤ 4) (s : State) : exec (.loopOpened n) s = .next (settle (loopOpens n s)) :=
  event_passes (i := .loopOpened n) (if_pos (by simp [within, low, high])) _ s

theorem exec_loopClosed (low : 1 ≤ n) (high : n ≤ 4) (s : State) : exec (.loopClosed n) s = .next (settle (loopCloses n s)) :=
  event_passes (i := .loopClosed n) (if_pos (by simp [within, low, high])) _ s

/-- A loop found OPEN, every confirmation withdrawn. -/
def loopOpen (n : Nat) (s : State) : State := clearConfirmed (setLoop n { loopAt s n with closed := false, counting := false } s)

theorem loopOpens_eq (counting : (loopAt s n).counting = true) (input : (loopAt s n).input = false)
    (closed : (loopAt s n).closed = true) : loopOpens n s
      = let w := loopOpen n s
        if permit s then permitLost (notify (permNotice w) w) else notify (permNotice w) w :=
  if_pos (by simp [counting, input, closed])

theorem loopOpens_quiet (h : ¬((loopAt s n).counting = true ∧ (loopAt s n).input = false ∧ (loopAt s n).closed = true)) :
    loopOpens n s = s := if_neg (by simpa [and_assoc] using h)

theorem loopCloses_quiet (h : ¬((loopAt s n).counting = true ∧ (loopAt s n).input = true ∧ (loopAt s n).closed = false)) :
    loopCloses n s = s := if_neg (by simpa [and_assoc] using h)

theorem loopAt_loopOpen (wf : tableWf s.loops = true) (n m : Nat) : loopAt (loopOpen n s) m
    = if m = n then { loopAt s n with closed := false, counting := false, confirmed := false }
      else { loopAt s m with confirmed := false } := by
  have wf' : tableWf (setLoop n { loopAt s n with closed := false, counting := false } s).loops = true := tableWf_bput _ _ _ wf
  rw [loopOpen, loopAt_clearConfirmed wf', loopAt_setLoop wf]
  split <;> rfl

/-- What the loops are once one has opened, whatever the engine then does. -/
theorem loopAt_loopOpens (counting : (loopAt s n).counting = true)
    (input : (loopAt s n).input = false) (closed : (loopAt s n).closed = true) (m : Nat) :
    loopAt (loopOpens n s) m = loopAt (loopOpen n s) m := by
  refine loopAt_congr ?_ m
  rw [loopOpens_eq counting input closed]
  dsimp only
  split <;> simp

/-- CONFIRM at a CLOSED loop, and at an OPEN one. -/
theorem confirmLoop_closed (plus : Bool) (closed : (loopAt s n).closed = true) : confirmLoop plus n s
    = let marked := setLoop n { loopAt s n with confirmed := true } s
      let replied := answer plus (ok [.bare (vnum n), .keyed "P" (bit (permit marked))]) marked
      if (loopAt s n).confirmed then replied else notify (permNotice marked) replied := if_pos closed

theorem confirmLoop_open (plus : Bool) (open_ : (loopAt s n).closed = false) : confirmLoop plus n s
    = let t := clearConfirmed s
      if anyConfirmed s then notify (permNotice t) (answer plus (erWith .openLoop (.loop n)) t)
      else answer plus (erWith .openLoop (.loop n)) t := if_neg (by simp [open_])

theorem loopsAndConfirm (plus : Bool) (n : Nat) (s u : State) (wf : tableWf s.loops = true) :
    let l := loopAt s n
    (1 ≤ n → n ≤ 4 →
      (∀ b, exec (.loopInputChange n b) s = .next (settle (setLoop n { l with
          input := b, counting := s.phase != .inReset && b != l.closed } s)))
      ∧ (¬(l.counting = true ∧ l.input = false ∧ l.closed = true) → exec (.loopOpened n) s = .next (settle s))
      ∧ (l.counting = true → l.input = false → l.closed = true → ∃ v,
        exec (.loopOpened n) s = .next (settle v)
        ∧ (loopAt v n).closed = false ∧ (∀ m, (loopAt v m).confirmed = false) ∧ permit v = false
        ∧ (∀ m, m ≠ n → (loopAt v m).closed = (loopAt s m).closed)
        ∧ (let w := loopOpen n s
           v = if permit s then permitLost (notify (permNotice w) w) else notify (permNotice w) w)
        ∧ (permit s = false → v.engine = s.engine ∧ v.routes = s.routes ∧ v.ring = s.ring))
      ∧ (¬(l.counting = true ∧ l.input = true ∧ l.closed = false) → exec (.loopClosed n) s = .next (settle s))
      ∧ (l.counting = true → l.input = true → l.closed = false →
        let v := setLoop n { l with closed := true, confirmed := false, counting := false } s
        exec (.loopClosed n) s = .next (settle (notify (permNotice v) v))))
    ∧ (Takes (.confirm plus n) s u →
      let marked := setLoop n { l with confirmed := true } u
      let reply := ok [.bare (vnum n), .keyed "P" (bit (permit marked))]
      (l.closed = true → l.confirmed = false →
        exec (.confirm plus n) s = .next (settle (notify (permNotice marked) (answer plus reply marked))))
      ∧ (l.closed = true → l.confirmed = true → exec (.confirm plus n) s = .next (replied plus reply marked)
          ∧ ∀ m, loopAt marked m = loopAt u m)
      ∧ (l.closed = false → ∃ v, exec (.confirm plus n) s = .next (settle v)
        ∧ (∀ m, (loopAt v m).confirmed = false ∧ (loopAt v m).closed = (loopAt u m).closed)
        ∧ v.link = (if anyConfirmed u then notify (permNotice (clearConfirmed u))
            (answer plus (erWith .openLoop (.loop n)) (clearConfirmed u))
          else answer plus (erWith .openLoop (.loop n)) (clearConfirmed u)).link)) := by
  refine ⟨fun low high => ⟨fun b => exec_loopInputChange low high b s, fun quiet => ?_, fun counting input closed => ?_,
    fun quiet => ?_, fun counting input open_ => ?_⟩, fun taken => ?_⟩
  · rw [exec_loopOpened low high, loopOpens_quiet quiet]
  · have loop := loopAt_loopOpens counting input closed
    have here : (loopAt (loopOpens n s) n).closed = false := by rw [loop, loopAt_loopOpen wf, if_pos rfl]
    refine ⟨loopOpens n s, exec_loopOpened low high s, here, fun m => ?_, ?_, fun m other => ?_, loopOpens_eq counting input closed,
      fun absent => ?_⟩
    · rw [loop, loopAt_loopOpen wf]
      split <;> rfl
    · rw [Bool.eq_false_iff]
      intro present
      have := ((permit_iff _).1 present n low high).1
      rw [here] at this
      exact Bool.noConfusion this
    · rw [loop, loopAt_loopOpen wf, if_neg other]
    · rw [loopOpens_eq counting input closed]
      dsimp only
      rw [if_neg (by simp [absent]), notify_eq _ (s := loopOpen n s) rfl]
      exact ⟨rfl, rfl, rfl⟩
  · rw [exec_loopClosed low high, loopCloses_quiet quiet]
  · rw [exec_loopClosed low high]
    exact congrArg (fun w => (.next (settle w) : Result)) (if_pos (by simp [counting, input, open_]))
  · obtain ⟨is, -⟩ := lineFor_spec taken.1
    have loops : u.loops = s.loops := by rw [is]; rfl
    have same : loopAt u n = loopAt s n := loopAt_congr loops n
    have wf : tableWf u.loops = true := by rw [loops]; exact wf
    rw [← same]
    refine ⟨fun closed new => ?_, fun closed again => ⟨?_, fun m => ?_⟩, fun open_ => ?_⟩
    · refine (command_of_takes taken plus _).trans ?_
      rw [confirmLoop_closed plus closed]
      exact congrArg (fun w => (.next (settle w) : Result)) (if_neg (by simp [new]))
    · refine (command_of_takes taken plus _).trans ?_
      rw [confirmLoop_closed plus closed]
      exact congrArg (fun w => (.next (settle w) : Result)) (if_pos again)
    · rw [loopAt_setLoop wf]
      split
      · rename_i is
        rw [is, ← again]
      · rfl
    · have loops : (confirmLoop plus n u).loops = (clearConfirmed u).loops := by
        rw [confirmLoop_open plus open_]
        dsimp only
        split <;> simp
      refine ⟨confirmLoop plus n u, command_of_takes taken plus _, fun m => ?_, ?_⟩
      · rw [loopAt_congr loops, loopAt_clearConfirmed wf]
        exact ⟨rfl, rfl⟩
      · rw [confirmLoop_open plus open_]

theorem muteReq_iff (s : State) :
    let exposed := permit s = false ∧ ∃ r ∈ s.engine.applied, ∃ x, routeAt s r = some x ∧ x.radiates = true
    (exposure s = true ↔ exposed)
    ∧ (muteReq s = true ↔ s.engine.mute = true ∨ exposed ∨ s.latch = true ∨ s.phase ≠ .running) := by
  intro exposed
  have exposes : exposure s = true ↔ exposed := by
    rw [exposure, Bool.and_eq_true, anyRadiates_iff, Bool.not_eq_true']
  refine ⟨exposes, ?_⟩
  rw [← exposes]
  simp [muteReq, or_assoc]

/-! #### DROP requests (R103, R135) -/

theorem ringDropped_halts {gone : List Nat} {r : Nat} (ring : s.ring.state = .dwelling ∨ s.ring.state = .held)
    (first : FirstWith (fun r => r ∈ currentGroup s) gone r) : ringDropped gone s = haltRing .permit (vnum r) s := by
  obtain ⟨before, after, rfl, out, mem⟩ := first
  have none : before.filter (fun r => (currentGroup s).contains r) = [] :=
    List.filter_eq_nil_iff.2 fun b at_b => by simpa using out b at_b
  have list : (before ++ r :: after).filter (fun r => (currentGroup s).contains r)
      = r :: after.filter fun r => (currentGroup s).contains r := by
    rw [List.filter_append, none, List.filter_cons_of_pos (by simpa using mem), List.nil_append]
  unfold ringDropped
  rw [if_pos (by simpa using ring), list]

theorem ringDropped_same {gone : List Nat} (h : (s.ring.state ≠ .dwelling ∧ s.ring.state ≠ .held) ∨ ∀ r ∈ gone, r ∉ currentGroup s) :
    ringDropped gone s = s := by
  unfold ringDropped
  rcases h with off | apart
  · exact if_neg (by simpa using off)
  · have none : gone.filter (fun r => (currentGroup s).contains r) = [] :=
      List.filter_eq_nil_iff.2 fun r mem => by simpa using apart r mem
    rw [none]
    split <;> rfl

/-- The DROP request made for the applied routes that radiate (R103). -/
def dropGone (s : State) : List Nat := s.engine.applied.filter fun r => (routeAt s r).any fun x => x.radiates

def dropRequest (s : State) : Request :=
  { origin := .drop, target := s.engine.applied.filter fun r => !(dropGone s).contains r, plus := false }

theorem makeDrop_none (h : dropGone s = []) : makeDrop s = s := by
  unfold makeDrop
  dsimp only
  rw [routesWhere_any]
  exact if_pos (by rw [show s.engine.applied.filter _ = dropGone s from rfl, h]; rfl)

theorem makeDrop_taken {r : State × Machine.Taken} (h : dropGone s ≠ []) (takes : takeRequest (dropRequest s) (ringDropped (dropGone s) s) = r) :
    (r.2 = .accepted → makeDrop s = (proceed r.1).1) ∧ (r.2 ≠ .accepted → makeDrop s = r.1) := by
  have is : makeDrop s = if (dropGone s).isEmpty then s else
      match (takeRequest (dropRequest s) (ringDropped (dropGone s) s)).2 with
      | .accepted => (proceed (takeRequest (dropRequest s) (ringDropped (dropGone s) s)).1).1
      | _ => (takeRequest (dropRequest s) (ringDropped (dropGone s) s)).1 := by
    unfold makeDrop
    dsimp only
    rw [routesWhere_any]
    rfl
  rw [is, if_neg (by simpa using h), takes]
  refine ⟨fun accepted => ?_, fun other => ?_⟩
  · rw [accepted]
  · split
    · contradiction
    · rfl

theorem makeDrop_idle (h : dropGone s ≠ []) (mode : (ringDropped (dropGone s) s).engine.mode = .idle) :
    let d := ringDropped (dropGone s) s
    (checkSet d (dropRequest s) ≠ none → makeDrop s = d)
    ∧ (checkSet d (dropRequest s) = none → makeDrop s = (proceed (accept (dropRequest s) d)).1) := by
  intro d
  have takes : takeRequest (dropRequest s) d = decideRequest (dropRequest s) d := by
    simp only [takeRequest, d, mode]
  refine ⟨fun fails => ?_, fun passes => ?_⟩
  · obtain ⟨f, fails⟩ := Option.ne_none_iff_exists'.1 fails
    exact (makeDrop_taken h (takes.trans (decideRequest_fails (by simp [dropRequest]) mode fails))).2 (by simp)
  · exact (makeDrop_taken h (takes.trans (decideRequest_passes (by simp [dropRequest]) mode passes))).1 rfl

theorem makeDrop_waits (h : dropGone s ≠ []) (mode : (ringDropped (dropGone s) s).engine.mode = .staging)
    (moving : (ringDropped (dropGone s) s).engine.active ≠ []) :
    let d := ringDropped (dropGone s) s
    makeDrop s = d.setEngine { d.engine with
      mode := .check, waiting := some (dropRequest s), staging := quitStaging d.engine.staging } :=
  (makeDrop_taken h (takeRequest_waits mode moving)).2 (by simp)

theorem takeHeldDrop_taken (held : s.engine.dropHeld = true) (mode : s.engine.mode = .idle) :
    let free := s.setEngine { s.engine with dropHeld := false }
    takeHeldDrop s = if permit s then free else makeDrop free := if_pos (by simp [held, mode])

/-! #### A permit loss (R102, R177) -/

/-- A radiating route is applied. -/
def Exposed (s : State) : Prop := ∃ r ∈ s.engine.applied, ∃ x, routeAt s r = some x ∧ x.radiates = true

/-- The state with a DROP called for when a radiating route is applied (R103). -/
def flagged (s : State) : State :=
  if anyRadiates s s.engine.applied then s.setEngine { s.engine with dropHeld := true } else s

theorem flagged_exposed (h : Exposed s) : flagged s = s.setEngine { s.engine with dropHeld := true } :=
  if_pos ((anyRadiates_iff _).2 h)

theorem flagged_unexposed (h : ¬Exposed s) : flagged s = s := if_neg (mt (anyRadiates_iff _).1 h)

theorem flagged_engine (s : State) :
    (flagged s).engine = { s.engine with dropHeld := anyRadiates s s.engine.applied || s.engine.dropHeld } := by
  unfold flagged
  cases anyRadiates s s.engine.applied <;> rfl

theorem flagged_mode (s : State) : (flagged s).engine.mode = s.engine.mode := by rw [flagged_engine]

theorem permitLost_flags (mode : s.engine.mode ≠ .idle) (unstaged : s.engine.mode ≠ .staging) :
    (if anyRadiates s s.engine.applied && s.engine.mode != .idle && s.engine.mode != .staging then
      s.setEngine { s.engine with dropHeld := true } else s) = flagged s :=
  ite_congr (propext (by simp [mode, unstaged])) (fun _ => rfl) fun _ => rfl

theorem permitLost_drops (mode : s.engine.mode = .idle ∨ s.engine.mode = .staging) :
    (¬Exposed s → permitLost s = s) ∧ (Exposed s → permitLost s = makeDrop s) := by
  have flags : (if anyRadiates s s.engine.applied && s.engine.mode != .idle && s.engine.mode != .staging then
      s.setEngine { s.engine with dropHeld := true } else s) = s := if_neg (by rcases mode with h | h <;> simp [h])
  have is : permitLost s = if anyRadiates s s.engine.applied then makeDrop s else s := by
    unfold permitLost
    dsimp only
    rw [flags]
    rcases mode with h | h <;> simp only [h, callDrop]
  rw [is]
  exact ⟨fun h => if_neg (mt (anyRadiates_iff _).1 h), fun h => if_pos ((anyRadiates_iff _).2 h)⟩

theorem permitLost_check (mode : s.engine.mode = .check) : permitLost s
    = if anyRadiates s s.engine.applied || s.engine.waiting.any (fun q => anyRadiates s q.target) then
        advanceAll (abandonWaiting .permit (flagged s)) else flagged s := by
  have kept : (flagged s).engine.mode = .check := (flagged_mode s).trans mode
  have waiting : (flagged s).engine.waiting = s.engine.waiting := by rw [flagged_engine]
  have radiates (l : List Nat) : anyRadiates (flagged s) l = anyRadiates s l := by
    unfold flagged
    split <;> rfl
  unfold permitLost
  dsimp only
  rw [permitLost_flags (by simp [mode]) (by simp [mode])]
  simp only [kept, waiting, radiates]
  cases s.engine.waiting <;> rfl

theorem permitLost_inFlight {r : Trans} (held : s.engine.trans = some r) :
    (s.engine.mode = .muting → permitLost s = if r.radiating then followUp rounds (stopMuting .permit (flagged s)) else flagged s)
    ∧ (s.engine.mode = .breaking ∨ s.engine.mode = .making → permitLost s
        = if r.radiating then advanceAll (stopTransition .permit (flagged s)) else flagged s) := by
  have radiates : transRadiates (flagged s) = r.radiating := by
    have trans : (flagged s).engine.trans = some r := by rw [flagged_engine]; exact held
    simp only [transRadiates, trans]
  refine ⟨fun mode => ?_, fun mode => ?_⟩
  · have kept : (flagged s).engine.mode = .muting := (flagged_mode s).trans mode
    unfold permitLost
    dsimp only
    rw [permitLost_flags (by simp [mode]) (by simp [mode])]
    simp only [kept, radiates]
  · unfold permitLost
    dsimp only
    rw [permitLost_flags (by rcases mode with h | h <;> simp [h]) (by rcases mode with h | h <;> simp [h])]
    rcases mode with mode | mode
    · have kept : (flagged s).engine.mode = .breaking := (flagged_mode s).trans mode
      simp only [kept, radiates]
    · have kept : (flagged s).engine.mode = .making := (flagged_mode s).trans mode
      simp only [kept, radiates]

theorem permitLost_survey (mode : s.engine.mode = .survey) : (¬Exposed s → permitLost s = s)
    ∧ (Exposed s → permitLost s = advanceAll ((s.setEngine { s.engine with dropHeld := true }).setEngine { s.engine with
        dropHeld := true, survey := { s.engine.survey with todo := [] } })) := by
  have kept : (flagged s).engine.mode = .survey := (flagged_mode s).trans mode
  have is : permitLost s = if anyRadiates s s.engine.applied then advanceAll ((flagged s).setEngine { (flagged s).engine with
      survey := { (flagged s).engine.survey with todo := [] } }) else flagged s := by
    unfold permitLost
    dsimp only
    rw [permitLost_flags (by simp [mode]) (by simp [mode])]
    split
    case h_7 => rfl
    all_goals rename_i other; rw [kept] at other; contradiction
  rw [is]
  refine ⟨fun h => ?_, fun h => ?_⟩
  · rw [if_neg (mt (anyRadiates_iff _).1 h), flagged_unexposed h]
  · rw [if_pos ((anyRadiates_iff _).2 h), flagged_exposed h]
    rfl

/-- A request waiting in CHECK that the loss abandons: what is told, and to whom (R102, R135; log entry 40). -/
theorem permitLost_waiting {q : Request} (mode : s.engine.mode = .check) (moving : s.engine.active ≠ [])
    (waits : s.engine.waiting = some q) (h : Exposed s ∨ ∃ r ∈ q.target, ∃ x, routeAt s r = some x ∧ x.radiates = true) :
    let v := abandoned .permit q (flagged s)
    (q.origin = .drop → permitLost s = v)
    ∧ (q.origin = .step → permitLost s = ringRefused .permit .dash v)
    ∧ (q.origin = .command → ∀ plus, s.link.hold = some (.goWait plus) →
      permitLost s = answer plus (er .permit) (v.setLink { v.link with hold := none })) := by
  intro v
  have is : permitLost s = advanceAll (abandonWaiting .permit (flagged s)) := by
    rw [permitLost_check mode, if_pos]
    rw [waits, Option.any_some, Bool.or_eq_true, anyRadiates_iff, anyRadiates_iff]
    exact h
  have engine : v.engine = { (flagged s).engine with waiting := none } := abandoned_engine .permit q (flagged s)
  have moving : v.engine.active ≠ [] := by
    rw [engine, flagged_engine]
    exact moving
  have check : v.engine.mode = .check := by
    rw [engine, flagged_engine]
    exact mode
  have stays (w : State) (same : w.engine = v.engine) : advanceAll w = w :=
    advanceAll_moving (by rw [same]; exact moving) (by rw [same, check]; simp) (by rw [same, check]; simp)
  obtain ⟨command, step, drop⟩ := abandonWaiting_some (s := flagged s) .permit (by rw [flagged_engine]; exact waits)
  refine ⟨fun origin => ?_, fun origin => ?_, fun origin plus hold => ?_⟩
  · rw [is, drop origin]
    exact stays v rfl
  · rw [is, step origin]
    refine stays _ ?_
    have told : abandoned .permit q (flagged s) = v := rfl
    rw [told]
    by_cases entering : v.ring.state = .entering
    · rw [ringRefused_entering _ _ entering, haltRing_engine, endedStaging_unstaged (by rw [check]; simp)]
    · rw [ringRefused_ignored _ _ entering]
  · have hold : v.link.hold = some (.goWait plus) := by
      refine (abandoned_goWait .permit q (flagged s) plus).2 ?_
      unfold flagged
      split <;> exact hold
    rw [is, command origin, answerGo_congr hold]
    exact stays _ (by simp)

/-- A transition that radiates, stopped at the loss (R102). -/
theorem permitLost_stops {r : Trans} (held : s.engine.trans = some r) (radiates : r.radiating = true)
    (mode : s.engine.mode = .breaking ∨ s.engine.mode = .making) :
    (r.stop ≠ none → s.engine.active ≠ [] → permitLost s = flagged s)
    ∧ (r.stop = none →
      let v := ((flagged s).setEngine { (flagged s).engine with trans := some (stopped .permit r) }).setLatch
        ((flagged s).latch || r.muteNeeded)
      (s.engine.active ≠ [] → permitLost s = v)
      ∧ (s.engine.active = [] → permitLost s = followUp rounds (endTransition (s.engine.mode == .making) v))) := by
  have is : permitLost s = advanceAll (stopTransition .permit (flagged s)) := by
    rw [(permitLost_inFlight held).2 mode, if_pos radiates]
  have trans : (flagged s).engine.trans = some r := by rw [flagged_engine]; exact held
  have kept : (flagged s).engine.mode = s.engine.mode := flagged_mode s
  have active : (flagged s).engine.active = s.engine.active := by rw [flagged_engine]
  refine ⟨fun before moving => ?_, fun new => ⟨fun moving => ?_, fun still => ?_⟩⟩
  · have same : stopTransition .permit (flagged s) = flagged s := by
      rw [stopTransition_eq, trans, if_pos (by simpa [Option.isSome_iff_ne_none] using before)]
    rw [is, same]
    exact advanceAll_busy (by rw [kept]; exact mode) (by rw [active]; exact moving)
  · rw [is, stopTransition_new .permit trans new]
    exact advanceAll_busy (by simpa [kept] using mode) (by simpa [active] using moving)
  · rw [is, stopTransition_new .permit trans new, ← kept]
    exact advanceAll_emptied (r := stopped .permit r) rfl (by simp [stopped]) rfl rfl (by simpa [kept] using mode)
      (by simpa [active] using still)

/-- Settles O48. -/
theorem loopsPermitAndMuteRequest : Obligations.LoopsPermitAndMuteRequest := by
  refine ⟨fun plus n s u wf => loopsAndConfirm plus n s u wf, fun s => ⟨permit_iff s, muteReq_iff s⟩, fun s => ?_⟩
  intro radiates exposed flag
  refine ⟨fun mode => permitLost_drops mode, fun mode moving => ⟨fun unexposed quiet => ?_, fun exposes none => ?_, fun q waits h => ?_⟩,
    fun t mode held => ?_, fun mode => ?_, takeHeldDrop_taken, ?_⟩
  · have waits : s.engine.waiting.any (fun q => anyRadiates s q.target) = false := by
      rw [Option.any_eq_false]
      refine fun q is => Bool.eq_false_iff.2 fun radiates => ?_
      obtain ⟨r, mem, x, at_r, bright⟩ := (anyRadiates_iff _).1 radiates
      exact quiet q is r mem ⟨x, at_r, bright⟩
    rw [permitLost_check mode, waits, if_neg (by simpa using mt (anyRadiates_iff _).1 unexposed), flagged_unexposed unexposed]
  · have exposes : Exposed s := exposes
    have clear : (flagged s).engine.waiting = Option.none := by rw [flagged_engine]; exact none
    rw [permitLost_check mode, if_pos (by simp [(anyRadiates_iff _).2 exposes]), abandonWaiting_none .permit clear,
      flagged_exposed exposes]
    exact advanceAll_moving moving (by simp [mode]) (by simp [mode])
  · exact permitLost_waiting mode moving waits h
  · intro u
    have is : u = flagged s := rfl
    rw [is]
    refine ⟨fun dark => ?_, fun bright => ⟨fun muting => ?_, fun other moving => ?_, fun other still new => ?_⟩⟩
    · rcases mode with mode | mode
      · rw [(permitLost_inFlight held).1 mode, if_neg (by simp [dark])]
      · rw [(permitLost_inFlight held).2 mode, if_neg (by simp [dark])]
    · have trans : (flagged s).engine.trans = some t := by rw [flagged_engine]; exact held
      rw [(permitLost_inFlight held).1 muting, if_pos bright, stopMuting, updTrans_eq, trans]
      rfl
    · obtain ⟨again, first⟩ := permitLost_stops held bright (mode.resolve_left other)
      exact ⟨fun before => again before moving, fun new => (first new).1 moving⟩
    · exact ((permitLost_stops held bright (mode.resolve_left other)).2 new).2 still
  · obtain ⟨dark, bright⟩ := permitLost_survey mode
    refine ⟨dark, fun e exposes current => ?_, fun exposes current => ?_⟩
    · obtain ⟨sensing, -, -⟩ := advance_survey (s := (s.setEngine { s.engine with dropHeld := true }).setEngine { s.engine with
        dropHeld := true, survey := { s.engine.survey with todo := [] } }) mode
      rw [bright exposes, advanceAll_eq, sensing (by simp [current]), followUp_rest, takeHeldDrop_engaged (by simp [mode])]
      rfl
    · obtain ⟨-, -, last⟩ := advance_survey (s := (s.setEngine { s.engine with dropHeld := true }).setEngine { s.engine with
        dropHeld := true, survey := { s.engine.survey with todo := [] } }) mode
      rw [bright exposes, advanceAll_eq, last current rfl, followUp_rest]
      rfl
  · exact ⟨makeDrop_none, fun some mode => makeDrop_idle some mode, fun some mode moving => makeDrop_waits some mode moving,
      fun r ring first => ringDropped_halts ring first, ringDropped_same⟩

end Sys2Proof.StepLaws

/-! ### The laws of the applied set are not kept from every state that meets them (O55)

`EngineSafe` does not tie the make list of the transition in flight to the positions its target set requires. An element
whose break drive goes to the position a target route requires, while the make list holds it for another one, counts as on
its way there (`OnItsWay`) until that drive ends; then it is driven away again. -/

namespace Sys2Proof.StepLaws

open Sys2Proof.Machine Sys2Proof.Laws

/-- A FAILSAFE element on card 0, its drive to rest settling. -/
def strayElem : Elem :=
  { kind := .failsafe, n := 2, card := 0, slot := 0, pulse := some 10, settle := 5, guarded := false, life := 0, refs := [],
    pos := none, faulted := false }

/-- The route of the target set: it requires that element at rest. -/
def strayRoute : Route :=
  { state := .ready, src := 1, dst := 2, hops := [{ elem := 0, pos := 1, entersCommon := true }], found := false,
    carries := false, radiates := false, needsGuard := false, torn := none, last := none, pending := true }

/-- A transition to that route whose make list holds the element for position 2. -/
def strayTrans : Trans :=
  { number := 1, origin := .command, old := [], target := [0], muteNeeded := false, brk := [0], mak := [(0, 2)], brkTodo := [],
    makTodo := [(0, 2)], notedElems := [], notedFixtures := [], faultedElems := [], stop := none, firstFault := none,
    outcome := none, lastEm := none, claimed := [0], fixtures := [], radiating := false }

/-- That transition in BREAK, with the drive to rest as its last, and SETTLE_END about to come. -/
def strayState : State :=
  (((((State.reset.setPending [.settleEnd 0]).setPhase .running).setNet { netReset with elems := [(0, strayElem)] }).setRoutes
    [(0, strayRoute)]).setCards [(0, { cardReset with state := .enabled })]).setEngine { engineReset with
      mode := .breaking, number := 1, trans := some strayTrans
      active := [{ elem := 0, target := 1, settle := 5, stage := .settling 5 }] }

theorem strayState_tables : TablesSafe strayState := ⟨rfl, rfl, rfl, rfl, rfl, rfl, rfl, rfl, rfl, rfl⟩

theorem strayState_route {r : Nat} {x : Route} (h : routeAt strayState r = some x) : x = strayRoute := by
  have look : routeAt strayState r = if 0 = r then some strayRoute else none := rfl
  rw [look] at h
  split at h
  · exact (Option.some.inj h).symm
  · contradiction

theorem strayState_card (n : Nat) : (cardAt strayState n).pulses = 0 ∧ (cardAt strayState n).restart = none := by
  by_cases here : n = 0
  · subst here
    exact ⟨rfl, rfl⟩
  · have look : tget strayState.cards n = none := if_neg (Ne.symm here)
    rw [cardAt, bget, look]
    exact ⟨rfl, rfl⟩

theorem strayState_drives : DrivesSafe strayState := by
  refine ⟨fun n => (strayState_card n).1, by decide, by decide, by decide, by decide, fun t held => ?_, by decide, by decide, by decide⟩
  obtain rfl := Option.some.inj held
  decide

theorem strayState_applied : AppliedSafe strayState := ⟨by decide, fun _ _ _ r mem => by cases mem⟩

theorem strayState_target : TargetKept strayState strayTrans := by
  refine ⟨by decide, List.pairwise_singleton _ _, fun r mem => ?_, rfl⟩
  obtain rfl := List.mem_singleton.1 mem
  exact ⟨strayRoute, rfl, .inl ⟨rfl, rfl⟩⟩

theorem strayState_record : RecordKept strayState strayTrans := by
  refine ⟨fun r _ x at_r => ?_, fun _ => ⟨rfl, by decide, by decide⟩, by decide, by decide, by decide⟩
  obtain rfl := strayState_route at_r
  decide

theorem strayState_elements : ElementsKept strayState strayTrans := by
  refine ⟨fun r mem => (by cases mem), fun _ r _ x at_r h hop => .inr (.inr ?_)⟩
  obtain rfl := strayState_route at_r
  obtain rfl := List.mem_singleton.1 hop
  exact ⟨strayElem, rfl, rfl, rfl, .inr (.inr (.inl ⟨_, List.mem_singleton_self _, rfl, rfl⟩))⟩

theorem strayState_engine : EngineSafe strayState := by
  have laws : AppliedLaws strayState :=
    ⟨List.Pairwise.nil, ⟨by decide, fun r mem => (by cases mem)⟩, fun _ r mem => (by cases mem)⟩
  have group : GroupLaw strayState := ⟨by decide, by decide⟩
  have requests : RequestsSafe strayState := by
    refine ⟨by decide, by decide, fun q waits => (by cases waits), by decide, fun mode => ?_, rfl, fun runs => ?_, fun n busy => ?_⟩
    · rcases mode with mode | mode <;> cases mode
    · intro _ a held
      cases held
    · rcases busy with busy | busy | busy
      · exact absurd (strayState_card n).2 busy
      · cases busy
      · cases busy
  exact ⟨laws, group, requests, fun _ => ⟨strayTrans, rfl, strayState_target, strayState_record, strayState_elements⟩⟩

/-- The state SETTLE_END leaves: the element stands where the route requires it, and its drive away is issued. -/
def strayNext : State := settle (settleEnds 0 (strayState.setPending []))

theorem step_strayState : step strayState = .next strayNext := rfl

/-- The transition as that drive away has left it. -/
theorem strayNext_trans : strayNext.engine.trans = some { strayTrans with makTodo := [], lastEm := some 0 } := by decide

theorem strayNext_unkept : ¬ElementsKept strayNext { strayTrans with makTodo := [], lastEm := some 0 } := by
  intro kept
  have at_r : routeAt strayNext 0 = some strayRoute := by decide
  have hop := kept.2 rfl 0 (List.mem_singleton_self 0) strayRoute at_r _ (List.mem_singleton_self _)
  rcases hop with faulted | noted | ⟨e, -, -, -, drive | drive | ⟨d, moving, -, target⟩ | ⟨-, -, -, still⟩⟩
  · cases faulted
  · cases noted
  · cases drive
  · cases drive.1
  · have active : strayNext.engine.active = [{ elem := 0, target := 2, settle := 5, stage := .pulsing 10 }] := by decide
    rw [active] at moving
    obtain rfl := List.mem_singleton.1 moving
    exact absurd target (by decide)
  · exact still (by decide)

/-- Refutes O55: from `strayState`, which meets every premise, SETTLE_END leads to a state in which the element that the
target set requires at rest is driven to another position, so that nothing brings it to its place. -/
theorem not_stepsKeepTheTablesCanonical : ¬ Obligations.StepsKeepTheTablesCanonical := by
  intro ⟨_, _, keeps⟩
  obtain ⟨-, -, -, flight⟩ :=
    keeps strayState strayNext strayState_tables strayState_drives strayState_applied strayState_engine step_strayState
  obtain ⟨t, held, -, -, kept⟩ := flight (by decide)
  obtain rfl := Option.some.inj (strayNext_trans.symm.trans held)
  exact strayNext_unkept kept

end Sys2Proof.StepLaws
